-- ==== Sys2Proof/Word.lean ====
section
/-! DEFINITION. The word types of the QS9600 and the element names of Table 0-4 (rule R5): bytes, words and
doublewords (R7), and the index types of channels, clusters, regions, dies, threads and contexts. -/

namespace Sys2Proof

/-- Byte, 8 bits (Table 0-5). -/
abbrev Byte := BitVec 8
/-- Word, 32 bits (Table 0-5). -/
abbrev Word := BitVec 32
/-- Doubleword, 64 bits (Table 0-5). -/
abbrev DWord := BitVec 64
/-- A force DAC code, 18 bits offset binary (R64). -/
abbrev Code := BitVec 18

/-- Logical (or physical) channel ch00-ch95 (R5). -/
abbrev Ch := Fin 96
/-- Cluster cl0-cl11; cluster n holds ch(8n) to ch(8n+7) (R5). -/
abbrev Cl := Fin 12
/-- Region rg0-rg5; region n holds cl(2n) and cl(2n+1) (R5). -/
abbrev Rg := Fin 6
/-- Channel die: 0 CDA (rg0-rg2), 1 CDB (rg3-rg5) (R5). -/
abbrev Die := Fin 2
/-- Lathe thread t0-t8 of a cluster (R5). -/
abbrev Th := Fin 9
/-- Security context 0-63 (R363). -/
abbrev Ctx := Fin 64
/-- Ring pair 0-4,095 of a context (14.5). -/
abbrev RingNo := Fin 4096
/-- Comparator in the order VH = 0, VL = 1, IH = 2, IL = 3 (6.6). -/
abbrev Cmp := Fin 4
/-- Event source 0-1,023 (R407). -/
abbrev Src := Fin 1024

/-- Converter A or B of a channel (Table 0-4). -/
inductive Conv where
  | a | b
deriving DecidableEq, Repr

/-- Regulated quantity (R161 bit QTY). -/
inductive Qty where
  | v | i
deriving DecidableEq, Repr

end Sys2Proof
end

