-- ==== Sys2Proof/Syntax.lean ====
section
/-! DEFINITION. The commands of the block: one constructor of Instr per row of spec/opcode_table.json, in the
table's order, and the operand types they carry. -/

namespace Sys2Proof

/-- A Lathe thread: cluster and thread number (R5, R245). -/
structure Thr where
  cl : Cl
  k  : Th
deriving DecidableEq, Repr

/-- The fields of a Zheve instruction word below OP, with its extension word (Table 10-1, R275, R276).
RB and F13 together are F17 of the F layout; `e` is the word at the next index, used only when `x` is set. -/
structure ZWord where
  x   : Bool
  rd  : BitVec 4
  ra  : BitVec 4
  rb  : BitVec 4
  f13 : BitVec 13
  e   : Word
deriving DecidableEq, Repr

/-- Submission packet header, Table 15-1 (R379). LEN is a 16-bit field. -/
structure Hdr where
  type  : Byte
  flags : Byte
  len   : BitVec 16
  seq   : Word
  tag   : Word
  dest  : Word
  arg0  : DWord
  arg1  : DWord
deriving DecidableEq, Repr

/-- One packet as a ring carried it: the hub tick at which the hub acts on it, the context and ring that carried it
(R359), its header and its payload bytes. -/
structure Pkt where
  tk      : Nat
  ctx     : Ctx
  ring    : RingNo
  hdr     : Hdr
  payload : List Byte
deriving DecidableEq, Repr

/-- What a ring read returned for one packet (R390, R391): `hdrErr` when the header unit could not be read,
`payErr` names the first payload unit, from 1 on, that returned an error. -/
structure Fetched where
  hdr     : Hdr
  payload : List Byte
  hdrErr  : Bool
  payErr  : Option Nat
deriving DecidableEq, Repr

/-- A write to DOORBELL (Table 14-7): its ring and index, whether it is one aligned 64-bit write (R364) and whether
it is poisoned (R364). -/
structure Bell where
  ring     : RingNo
  index    : Word
  size8    : Bool
  poisoned : Bool
deriving DecidableEq, Repr

/-- A write to a doorbell page other than a doorbell and CR_CTL (Table 14-6). -/
inductive PageWrite where
  /-- A 64-bit write of REGWR: BAR0 word offset (byte address bits 19:2) and data. -/
  | regwr (off : BitVec 18) (data : Word)
  /-- A write of CR_SQBASE, CR_CQBASE, CR_TAILWB or CR_CFG, numbered 0-3. -/
  | crWord (n : Fin 4) (data : DWord)
  /-- A write of any other size to REGWR at this page offset (R364). -/
  | badSize (off : BitVec 12)
  /-- A poisoned write at this page offset (R364). -/
  | poisoned (off : BitVec 12)
  /-- A write to a read-only or reserved page offset. -/
  | other (off : BitVec 12)
deriving DecidableEq, Repr

/-- The RC fields of BAR0 (R220, Table 12-8, R417, Table 17-6). -/
inductive RcField where
  | trgCnt (n : Fin 16)
  | preempt (r : Rg)
  | evLost
  | ecc (sub : Fin 4)
deriving DecidableEq, Repr

/-- A barrier: cluster barrier 0-3 of a cluster, or package barrier 0-7 (R266). -/
inductive BarRef where
  | cluster (cl : Cl) (n : Fin 4)
  | package (n : Fin 8)
deriving DecidableEq, Repr

/-- A fall-through queue of Table 16-1 (R400). -/
inductive QueueRef where
  | dac (c : Ch)
  | result (c : Ch)
  | intake (cl : Cl)
deriving DecidableEq, Repr

/-- The supplies of Table 19-8. -/
inductive Supply where
  | core | ddr | pcie08 | pcie18 | io | vdda | vhvP | vhvN | aon
deriving DecidableEq, Repr

/-- What the read of a patrol scrub found at a block (R430, R431): `ce` a corrected error, `ue` an uncorrectable one. -/
inductive ScrubRead where
  | clean | ce | ue
deriving DecidableEq, Repr

/-- What a calibration or Seasoning step measured (Table 12-4, Table 13-1). `ofs` is the mean of a converter step
(24-bit units); `loV hiV loI hiI` are a DAC step's errors at codes 0x1_0000 and 0x3_0000 in 1/16 DAC LSB, voltage then
current output; `shunt` SHUNT_VAL in µΩ; `sense` the sense voltage in µV; `e` the SKEW time in units of 1 ps; `vals` the
VALUEs a Seasoning item gives, in the order of Table 13-2's paths for that item; `points` the 65 INL points of a DAC
linearity item in 1/16 DAC LSB. -/
structure StepMeas where
  ofs    : Int
  loV    : Int
  hiV    : Int
  loI    : Int
  hiI    : Int
  shunt  : Nat
  sense  : Nat
  e      : Int
  vals   : List Int
  points : List Int
deriving DecidableEq, Repr

/-- The commands of the QS9600: the rows of spec/opcode_table.json. -/
inductive Instr where
  /-- JMP (R282). Thread jumps to an immediate or register target. -/
  | jmp (t : Thr) (w : ZWord)
  /-- BR_COND (R282). Thread branches when a register or LAST condition holds. -/
  | brCond (t : Thr) (w : ZWord)
  /-- CALL (R282). Thread pushes the return index and jumps, or faults STACK_OVF. -/
  | call (t : Thr) (w : ZWord)
  /-- RET (R270). Thread pops its return index, or ends the thread when the stack is empty. -/
  | ret (t : Thr) (w : ZWord)
  /-- LOOP (R283). Thread decrements a counter register and branches while it is non-zero. -/
  | loop (t : Thr) (w : ZWord)
  /-- ADD (R285). Thread adds modulo 2^32 and sets OVF on signed overflow. -/
  | add (t : Thr) (w : ZWord)
  /-- SUB (R285). Thread subtracts modulo 2^32 and sets OVF on signed overflow. -/
  | sub (t : Thr) (w : ZWord)
  /-- MUL (R285). Thread keeps the low 32 bits of a signed product and sets OVF on overflow. -/
  | mul (t : Thr) (w : ZWord)
  /-- SHL (R285). Thread shifts left and sets OVF when the signed result differs. -/
  | shl (t : Thr) (w : ZWord)
  /-- SHR (R285). Thread shifts right, arithmetically or logically. -/
  | shr (t : Thr) (w : ZWord)
  /-- AND (R285). Thread computes a bitwise AND. -/
  | and (t : Thr) (w : ZWord)
  /-- OR (R285). Thread computes a bitwise OR. -/
  | or (t : Thr) (w : ZWord)
  /-- XOR (R285). Thread computes a bitwise XOR. -/
  | xor (t : Thr) (w : ZWord)
  /-- MIN (R285). Thread takes the lesser value, signed or unsigned. -/
  | min (t : Thr) (w : ZWord)
  /-- MAX (R285). Thread takes the greater value, signed or unsigned. -/
  | max (t : Thr) (w : ZWord)
  /-- SAT (R285). Thread clamps a register to a signed or unsigned N-bit range. -/
  | sat (t : Thr) (w : ZWord)
  /-- MOV (R286). Thread copies one general register to another. -/
  | mov (t : Thr) (w : ZWord)
  /-- LDI (R286). Thread loads an immediate value into a register. -/
  | ldi (t : Thr) (w : ZWord)
  /-- LD (R286). Thread loads a word from its data address space, with range and alignment checks. -/
  | ld (t : Thr) (w : ZWord)
  /-- ST (R248). Thread stores a word to data or table SRAM under the write rights of its blocks. -/
  | st (t : Thr) (w : ZWord)
  /-- MOVS (R250). Thread reads a special register into general registers. -/
  | movs (t : Thr) (w : ZWord)
  /-- MOVD (R250). Thread writes a special register, clearing W1C bits or writing counters. -/
  | movd (t : Thr) (w : ZWord)
  /-- EVT (R311). Thread raises PROG_EVT with a code, as a channel event or a cluster event. -/
  | evt (t : Thr) (w : ZWord)
  /-- EMIT (R312). Thread sends eight registers and a tag as one EMIT packet, waiting for host credit when none is available. -/
  | emit (t : Thr) (w : ZWord)
  /-- EMIT_CREDIT_AVAILABLE (R33). Host credit returns and a waiting EMIT completes, sending its packet. -/
  | emitCreditAvailable (tk : Nat) (t : Thr)
  /-- MODE (R60). Thread or host submits a mode word, which is accepted as pending, stored in Off, deferred or rejected. -/
  | mode (t : Thr) (w : ZWord)
  /-- FORCE_SETPOINT (R292). Writes the static setpoint used from the next loop period. -/
  | forceSetpoint (t : Thr) (w : ZWord)
  /-- FORCE_BASE (R292). Writes the pulse base level. -/
  | forceBase (t : Thr) (w : ZWord)
  /-- FORCE_PARKCODE (R78). Writes the park code and applies it by state at the next update boundary; this is a first write. -/
  | forceParkcode (t : Thr) (w : ZWord)
  /-- FORCE_CLEARCODE (R292). Writes the stored clear code, which FOUT shows under straps 10 wherever the clear output is shown. -/
  | forceClearcode (t : Thr) (w : ZWord)
  /-- FORCE_LIST (R293). Selects a setpoint list after checking its place in the list area. -/
  | forceList (t : Thr) (w : ZWord)
  /-- LIMIT (R288). Writes one compliance limit unless it would cross the other limit of the same quantity. -/
  | limit (t : Thr) (w : ZWord)
  /-- RANGE (R96). Copies a range entry and starts a range change, or is refused by state. -/
  | range (t : Thr) (w : ZWord)
  /-- LAW (R159). Writes a hysteretic band parameter unless the loop is closed. -/
  | law (t : Thr) (w : ZWord)
  /-- COEF (R159). Writes a linear, notch or common loop parameter unless the loop is closed. -/
  | coef (t : Thr) (w : ZWord)
  /-- OPEN (R56). Opens the loop into Held at the next sample boundary, or returns a status. -/
  | openLoop (t : Thr) (w : ZWord)
  /-- CLOSE (R56). Closes the loop (T2, T3 or T6) at the next sample boundary, or returns a status. -/
  | closeLoop (t : Thr) (w : ZWord)
  /-- HEEL (R163). Writes the setpoint and slew and starts or retargets a Heel ramp from the measured value. -/
  | heel (t : Thr) (w : ZWord)
  /-- PARK (R56). Writes the drain slew and moves the channel into Draining, or cancels deferred requests in Draining. -/
  | park (t : Thr) (w : ZWord)
  /-- TRIPCLR (R182). Reads all comparators at the judging boundary and clears every latch into Parked, or returns STILL_ACTIVE. -/
  | tripclr (t : Thr) (w : ZWord)
  /-- BLANK (R179). Replaces the program blanking window from the tick after issue. -/
  | blank (t : Thr) (w : ZWord)
  /-- SEQ (R113). Copies and checks a converter configuration and schedules it to take effect. -/
  | seq (t : Thr) (w : ZWord)
  /-- INJ (R120). Sends an urgent request to a converter's injected sequence. -/
  | inj (t : Thr) (w : ZWord)
  /-- AVG (R131). Writes the averaging exponent of one entry, applied from its next interval. -/
  | avg (t : Thr) (w : ZWord)
  /-- READ (R137). Copies both halves of a result register into a register pair. -/
  | read (t : Thr) (w : ZWord)
  /-- SEG (R196). Places a segment descriptor in NEXT and starts Fetch loading it, or returns BAD_SEG or SEG_BUSY. -/
  | seg (t : Thr) (w : ZWord)
  /-- JUMP (R201). Requests that NEXT follow the current pass, resolved at a commit point. -/
  | jump (t : Thr) (w : ZWord)
  /-- RATE (R189). Sets the generator rate M/N for the next start. -/
  | rate (t : Thr) (w : ZWord)
  /-- MARK (R300). Writes the marker routing of M0 or M1 into MKCFG. -/
  | mark (t : Thr) (w : ZWord)
  /-- ARM (R224). Arms capture on a trigger line at the next sample boundary. -/
  | arm (t : Thr) (w : ZWord)
  /-- ARM_OFF (R224). Disarms capture at the next sample boundary. -/
  | armOff (t : Thr) (w : ZWord)
  /-- STAY (R224). Writes the Stay hold-off kind and value. -/
  | stay (t : Thr) (w : ZWord)
  /-- REC (R224). Writes the pre-trigger length, record length and record count. -/
  | recSet (t : Thr) (w : ZWord)
  /-- STRM (R303). Writes the stream chunk length. -/
  | strm (t : Thr) (w : ZWord)
  /-- WAIT_TICK (R265). Thread waits until s.tick reaches an absolute or relative target. -/
  | waitTick (t : Thr) (w : ZWord)
  /-- WAIT_TICK_DONE (R264). The target tick of a WAIT.TICK is reached and the wait completes. -/
  | waitTickDone (t : Thr)
  /-- WAIT_TRIG (R264). Thread waits for an edge on a trigger matrix line. -/
  | waitTrig (t : Thr) (w : ZWord)
  /-- WAIT_TRIG_DONE (R264). A line edge arrives and the WAIT.TRIG completes with its arrival tick. -/
  | waitTrigDone (t : Thr)
  /-- WAIT_EVT (R264). Thread waits until s.evt AND a mask is non-zero. -/
  | waitEvt (t : Thr) (w : ZWord)
  /-- WAIT_EVT_DONE (R264). A masked s.evt bit sets and the WAIT.EVT completes. -/
  | waitEvtDone (tk : Nat) (t : Thr)
  /-- WAIT_TIMEOUT (R264). The timeout of a WAIT.TRIG, WAIT.EVT or SYNC expires, ending the wait with TIMEOUT. -/
  | waitTimeout (t : Thr)
  /-- SYNC_CLUSTER (R266). Thread arrives at a cluster barrier. -/
  | syncCluster (t : Thr) (w : ZWord)
  /-- SYNC_PACKAGE (R266). t8 arrives at a package barrier. -/
  | syncPackage (t : Thr) (w : ZWord)
  /-- SYNC_RELEASE (R266). The release tick after the last arrival comes and every member completes OK. -/
  | syncRelease (b : BarRef)
  /-- CAL (R307). Queues a self-trim request for a target. -/
  | cal (t : Thr) (w : ZWord)
  /-- CAL_RES (R306). CAL with RES = 1 reads the calibration outcome word. -/
  | calRes (t : Thr) (w : ZWord)
  /-- CALGAP (R308). Opens, replaces or closes a calibration window on named converters. -/
  | calgap (t : Thr) (w : ZWord)
  /-- SYSCAL_ZERO (R309). Starts the zero measurement of a system calibration triple. -/
  | syscalZero (t : Thr) (w : ZWord)
  /-- SYSCAL_FULL (R309). Starts the full-scale measurement of a triple with its applied value. -/
  | syscalFull (t : Thr) (w : ZWord)
  /-- SYSCAL_APPLY (R310). Computes and installs SYS_OFS and SYS_GAIN for a triple. -/
  | syscalApply (t : Thr) (w : ZWord)
  /-- SYSCAL_TIMEOUT (R309). A system calibration measurement that has not gathered its samples in time finishes with TIMEOUT. -/
  | syscalTimeout (tk : Nat) (c : Ch)
  /-- NOP (R384). Host packet that does nothing and completes OK. -/
  | nop (p : Pkt)
  /-- RING_CREATE (R368). Sets a ring descriptor and opens the ring. -/
  | ringCreate (p : Pkt)
  /-- RING_DESTROY (R373). Stops fetching a ring and drains it to Closed. -/
  | ringDestroy (p : Pkt)
  /-- RING_QUERY (R368). Returns a ring descriptor. -/
  | ringQuery (p : Pkt)
  /-- LOAD (R268). Writes instruction, data, table or acquisition memory from a packet payload. -/
  | load (p : Pkt)
  /-- START (R269). Starts named threads at entry addresses with parameters, ending stimulus freeze and applying plans. -/
  | start (p : Pkt)
  /-- STOP (R271). Halts named threads at their next issue tick with cause HOST_STOP. -/
  | stop (p : Pkt)
  /-- POKE (R384). Sets HOST_POKE in s.evt of named threads. -/
  | poke (p : Pkt)
  /-- MEMRD (R384). Reads cluster SRAM or acquisition memory into a completion payload. -/
  | memrd (p : Pkt)
  /-- CHCMD (R385). Carries one channel instruction word from the host with operands in V, W and U. -/
  | chcmd (p : Pkt)
  /-- RESULTS (R384). Returns a channel's 40 result registers. -/
  | results (p : Pkt)
  /-- READOUT (R386). Reads, and optionally frees, a range of a channel's data or side ring. -/
  | readout (p : Pkt)
  /-- REF_ASSIGN (R320). Writes the assigned value of a region's buried reference. -/
  | refAssign (p : Pkt)
  /-- PAIR_REINSTALL (R336). Reinstalls a tagged system calibration pair on its physical channel. -/
  | pairReinstall (p : Pkt)
  /-- SZN_REPORT (R348). Returns Seasoning report entries the context may see. -/
  | sznReport (p : Pkt)
  /-- REMAP (R354). Exchanges the physical channels of two logical channels of one cluster. -/
  | remap (p : Pkt)
  /-- FW_LOAD (R350). Writes part of a firmware image into the slot not running; the last part is verified. -/
  | fwLoad (p : Pkt)
  /-- FW_ACTIVATE (R350). Requests activation of the other firmware slot. -/
  | fwActivate (p : Pkt)
  /-- FW_SWITCH (R351). At the next packet boundary the hub hands its state over and switches firmware slots. -/
  | fwSwitch (tk : Nat)
  /-- FW_ACTIVATED (R351). The new firmware resumes ring service; FW_GEN increases and the activation enters the Pedigree. -/
  | fwActivated (tk : Nat)
  /-- FW_REVERTED (R352). The new firmware has not resumed within 200 ms and the hub returns to the previous slot. -/
  | fwReverted (tk : Nat)
  /-- PWR_STATE_DEEP_SLEEP (R475). Requests Deep sleep and sets DEEP_PEND. -/
  | pwrStateDeepSleep (p : Pkt)
  /-- PWR_STATE_STANDBY (R480). Powers down every region to reach Standby. -/
  | pwrStateStandby (p : Pkt)
  /-- REGION_PWR_UP (R477). Starts the power-up of named regions in ascending order. -/
  | regionPwrUp (p : Pkt)
  /-- REGION_PWR_DOWN (R478). Powers down named regions through draining of their channels. -/
  | regionPwrDown (p : Pkt)
  /-- REGION_UP (R477). A region completes its power-up; its channels take T1. -/
  | regionUp (tk : Nat) (r : Rg) (unres act : BitVec 64)
  /-- REGION_DOWN (R478). Every channel of a region is Off; the domain turns off and latched trips clear. -/
  | regionDown (tk : Nat) (r : Rg)
  /-- SCLK_SET (R470). Requests a new sample clock for a region. -/
  | sclkSet (p : Pkt)
  /-- SCLK_LOCKED (R470). The region PLL locks at the new sample clock and the packet completes. -/
  | sclkLocked (tk : Nat) (r : Rg)
  /-- CH_RESET (R63). Performs a per-channel reset. -/
  | chReset (p : Pkt)
  /-- WAKE_AT (R480). Sets or cancels the always-on wake timer. -/
  | wakeAt (p : Pkt)
  /-- ID_GET (R446). Returns the device certificate. -/
  | idGet (p : Pkt)
  /-- QUOTE (R461). Requests a signed quote over a nonce. -/
  | quote (p : Pkt)
  /-- CHECKPOINT (R458). Returns a stored checkpoint or requests a new one. -/
  | checkpoint (p : Pkt)
  /-- PED_READ (R455). Reads, and optionally frees, Pedigree entries. -/
  | pedRead (p : Pkt)
  /-- PED_CFG (R462). Sets CKPT_N. -/
  | pedCfg (p : Pkt)
  /-- CTX_OPEN (R449). Opens a context and passes it named channels. -/
  | ctxOpen (p : Pkt)
  /-- CTX_MOVE (R449). Moves named channels between open contexts. -/
  | ctxMove (p : Pkt)
  /-- CTX_CLOSE (R449). Disables a context's rings and returns its channels to context 0. -/
  | ctxClose (p : Pkt)
  /-- SVN_COMMIT (R442). Raises SVN_MIN to the running image's SVN. -/
  | svnCommit (p : Pkt)
  /-- PROVISION_XREF (R447). Writes XREF_VAL once into OTP. -/
  | provisionXref (p : Pkt)
  /-- PROVISION_SSID (R447). Writes the subsystem identifiers once into OTP. -/
  | provisionSsid (p : Pkt)
  /-- PROVISION_MEMORG (R447). Writes the memory organisation once into OTP. -/
  | provisionMemorg (p : Pkt)
  /-- RING_SERVICE (R374). Hub takes the next packets of a ring in service order, reads them, frees units and accepts or rejects each. -/
  | ringService (tk : Nat) (k : Ctx) (r : RingNo) (ps : List Fetched)
  /-- FENCE_RELEASE (R382). Every earlier packet of the ring has completed and a fenced packet executes. -/
  | fenceRelease (tk : Nat) (k : Ctx) (r : RingNo)
  /-- DESCRIPTOR_FETCH (R375). A ring descriptor not cached arrives from memory, or faults the ring on an uncorrectable error. -/
  | descriptorFetch (tk : Nat) (k : Ctx) (r : RingNo) (ue : Bool)
  /-- COMPLETION_WRITE (R370). A waiting completion finds free units, is written, and CQ_TAIL goes to TAIL_WB. -/
  | completionWrite (tk : Nat) (k : Ctx) (r : RingNo)
  /-- MSIX_MODERATION_TIMEOUT (R371). MOD_T expires after an unsignalled completion and the ring's vector is sent. -/
  | msixModerationTimeout (tk : Nat) (k : Ctx) (r : RingNo)
  /-- DOORBELL_SQ_TAIL (R365). A doorbell announces a new submission tail and is judged against the ring state. -/
  | doorbellSqTail (tk : Nat) (k : Ctx) (d : Bell)
  /-- DOORBELL_CQ_HEAD (R365). A doorbell announces a new completion head and is judged against the ring state. -/
  | doorbellCqHead (tk : Nat) (k : Ctx) (d : Bell)
  /-- REGISTER_WRITE (R366). A REGWR or page write to a register with no row of its own is judged against the rights and applied. -/
  | registerWrite (tk : Nat) (k : Ctx) (w : PageWrite)
  /-- CR_CTL_ENABLE (R378). Checks the CR words and opens the control ring, writing recaps; `posted` are the headers
  that the device reads from the context's old submission rings under FRESH = 0, by ring, in order (R377). -/
  | crCtlEnable (tk : Nat) (k : Ctx) (fresh disable : Bool) (posted : List (RingNo × Hdr))
  /-- CR_CTL_DISABLE (R373). Destroys every ring of the context, then its control ring. -/
  | crCtlDisable (tk : Nat) (k : Ctx)
  /-- SWRESET (R486). HUBCTL with its key performs a software reset. -/
  | swreset (tk : Nat) (k : Ctx) (key : BitVec 16)
  /-- REG_DIRECT_WRITE (R360). A direct BAR0 write outside the MSI-X table is dropped, counted and logged. -/
  | regDirectWrite (tk : Nat) (off : BitVec 20)
  /-- MSIX_TABLE_WRITE (R360). A direct write to the MSI-X table is applied under PCI Express rules. -/
  | msixTableWrite (tk : Nat) (off : BitVec 15) (data : Word)
  /-- RESULT_READ_LOW (R136). A low-half read of a result register returns RESULT and takes a snapshot, or returns the overwrite report. -/
  | resultReadLow (tk : Nat) (c : Ch) (r : Fin 40)
  /-- RESULT_READ_HIGH (R136). A high-half read returns the snapshot and clears its flag, or the live TSTAMP. -/
  | resultReadHigh (tk : Nat) (c : Ch) (r : Fin 40)
  /-- RC_FIELD_READ (R361). A read of an RC field returns its value and clears it. -/
  | rcFieldRead (tk : Nat) (f : RcField)
  /-- PROBE (R240). PACKCTL PROBE drives one edge on PACK_SYNC to time its round trip. -/
  | probe (tk : Nat) (k : Ctx)
  /-- PROBE_RETURN (R240). The probe edge returns through the repeater; RTT_SELF is set and RTT_VALID becomes 1. -/
  | probeReturn (tk : Nat) (rtt : BitVec 16)
  /-- FORM (R241). PACKCTL FORM starts Pack forming, or is refused with FORM_ERR. -/
  | form (tk : Nat) (k : Ctx)
  /-- ORIGIN_PULSE (R241). The origin pulse lands and each member loads s.tick from ORIGIN. -/
  | originPulse (tk : Nat)
  /-- FORM_TIMEOUT (R241). No origin pulse lands within 131,072 ticks; FORM_ERR is set and PLLs return to REFCLK. -/
  | formTimeout (tk : Nat)
  /-- RETRAIN (R436). MCCTL RETRAIN sets RETRAIN_PEND. -/
  | retrain (tk : Nat) (k : Ctx)
  /-- RETRAIN_START (R436). With no record, generator or C2 request outstanding, a pending retraining begins. -/
  | retrainStart (tk : Nat)
  /-- EVSTAT_PEND_CLEAR (R410). A write of 1 to PEND clears PEND and OCC of an event source. -/
  | evstatPendClear (tk : Nat) (k : Ctx) (n : Src)
  /-- PM_D3HOT (R376). The function enters D3hot and stops issuing requests, signalling PME when a message falls due. -/
  | pmD3hot (tk : Nat)
  /-- L1_ENTRY (R376). After 16 µs idle the link enters L1 under ASPM. -/
  | l1Entry (tk : Nat)
  /-- DEEP_SLEEP_ENTRY (R475). With DEEP_PEND set the link enters L1.2 and the hub retains state and powers down. -/
  | deepSleepEntry (tk : Nat)
  /-- CLKREQ_WAKE (R476). CLKREQ# is asserted in Deep sleep and the always-on domain starts the wake. -/
  | clkreqWake (tk : Nat)
  /-- WAKE_AT_EXPIRY (R476). The WAKE_AT timer expires and the package wakes. -/
  | wakeAtExpiry (tk : Nat)
  /-- WAKE (R476). The hub reaches Standby after wake, restores s.tick and judges captured doorbells. -/
  | wake (tk : Nat) (us : Nat) (pulses : Nat) (gap : Bool)
  /-- PERST_N_ASSERT (R486). PERST_N goes low and the package reset of Table 1-8 applies. -/
  | perstNAssert (tk : Nat) (straps : BitVec 2) (test : Bool)
  /-- RESET_N_ASSERT (R485). A RESET_N low pulse of 1 µs or more resets the package. -/
  | resetNAssert (tk : Nat) (ns : Nat) (straps : BitVec 2) (test : Bool)
  /-- HUB_BOOT (R443). After a reset or supply rise the security core verifies an image and starts the hub, appending BOOT and setting READY. -/
  | hubBoot (tk : Nat) (cause : Fin 5)
  /-- REFCLK_LOST (R467). REFCLK has no edge for 1 µs; a hub fault with CAUSE 0x02. -/
  | refclkLost (tk : Nat)
  /-- SUPPLY_FALL (R483). A supply falls past its invalid threshold and the domains it feeds go down. -/
  | supplyFall (tk : Nat) (u : Supply)
  /-- SUPPLY_RISE (R482). Hub supplies become valid and the domain leaves reset, starting a hub boot. -/
  | supplyRise (tk : Nat) (u : Supply)
  /-- VDD_AON_RISE (R318). VDD_AON rises from off; factory trims, history and remap return to factory state. -/
  | vddAonRise (tk : Nat)
  /-- THERMAL_SAMPLE (R484). A region thermal sensor is read every 100 µs. -/
  | thermalSample (tk : Nat) (r : Rg) (temp : Int)
  /-- CLR_N_FALL (R80). CLR_N falls; every powered FOUT shows the clear output and channels are host-parked. -/
  | clrNFall (tk : Nat) (ns : Nat)
  /-- CLR_OVERRIDE_END (R83). CLR_N is high and the channel is not Draining; the override ends and FOUT returns to its state's code. -/
  | clrOverrideEnd (tk : Nat) (c : Ch)
  /-- TRG_EDGE (R219). A TRG pin crosses its level and gives an edge to its lines and edge counter. -/
  | trgEdge (tk : Nat) (pin : Fin 16) (rising fast : Bool)
  /-- TRIGGER_LINE_EDGE (R216). An edge arrives on a cluster trigger matrix line and every block that takes the line acts on it. -/
  | triggerLineEdge (tk : Nat) (cl : Cl) (line : Fin 32) (level : Bool) (te : Nat)
  /-- QUIET_STARTUP_END (R125). At least 400 ns after start-up a quiet converter begins its pass. -/
  | quietStartupEnd (tk : Nat) (c : Ch) (v : Conv)
  /-- PACK_TRIGGER_DRIVE (R242). The owner drives a Pack trigger pin 8 ticks after the edge on its source line. -/
  | packTriggerDrive (tk : Nat) (n : Fin 8)
  /-- PACK_TRIGGER_LANDING (R242). A Pack edge lands on every member's cluster lines at Td + LAND. -/
  | packTriggerLanding (tk : Nat) (n : Fin 8)
  /-- PACK_KEEP_PULSE (R244). A keep pulse lands and is checked against s.tick. -/
  | packKeepPulse (tk : Nat)
  /-- KEEP_PULSE_MISSING (R244). No keep pulse arrives for 131,072 ticks; PACK_ALIGN_LOST. -/
  | keepPulseMissing (tk : Nat)
  /-- PACK_CLK_LOST (R244). PACK_CLK has no edge for 50 ns or is off frequency; the package leaves the Pack alignment. -/
  | packClkLost (tk : Nat)
  /-- LOOP_PERIOD_BOUNDARY (R143). A loop-period boundary comes and the per-period actions of the channel run. -/
  | loopPeriodBoundary (c : Ch)
  /-- LOOP_COMPUTE (R157). The last sample of a loop period is delivered and the loop engine computes and queues one code. -/
  | loopCompute (c : Ch)
  /-- DAC_UPDATE (R66). At an update boundary the DAC takes the next queue item or repeats its code. -/
  | dacUpdate (tk : Nat) (c : Ch)
  /-- DEGLITCH_HOLD_END (R72). 12 ns after a major transition the output tracks the DAC again. -/
  | deglitchHoldEnd (c : Ch)
  /-- OUT_TYPE_CHANGEOVER_END (R75). After 2 µs the output stage is enabled in the new type at the park code. -/
  | outTypeChangeoverEnd (c : Ch)
  /-- RANGE_MAKE (R97). One sample period after S0 pins going high in the new pattern go high. -/
  | rangeMake (c : Ch)
  /-- RANGE_BREAK (R97). MBB_DELAY ticks after the make step pins going low go low. -/
  | rangeBreak (c : Ch)
  /-- RANGE_RELEASE (R97). The range change ends; ACTIVE takes the entry and an opened loop closes. -/
  | rangeRelease (c : Ch)
  /-- DRAIN_COMPLETE (R59). The blanking window after the safe pattern ends; records close and the channel enters Parked. -/
  | drainComplete (c : Ch)
  /-- COMPARATOR_ACTIVE (R171). A comparator input passes its threshold and the trip logic judges it. -/
  | comparatorActive (tk : Nat) (c : Ch) (m : Cmp)
  /-- ENTER_TRIPPED (R57). The synchronised latch moves the channel to Tripped at the next sample boundary. -/
  | enterTripped (tk : Nat) (c : Ch)
  /-- BLANKING_WINDOW_END (R180). A blanking window ends and a still-active comparator latches. -/
  | blankingWindowEnd (c : Ch) (win : Fin 5)
  /-- PULSE_EDGE (R91). The pulse timer changes the pulse gate, sending the pulse-edge signal. -/
  | pulseEdge (tk : Nat) (c : Ch)
  /-- CLUSTER_TIMER_EXPIRY (R259). A cluster timer expires, pulsing its source level for one tick. -/
  | clusterTimerExpiry (cl : Cl) (n : Fin 8)
  /-- SAMPLE_DELIVERED (R127). A converter code is delivered, corrected and added to its interval. -/
  | sampleDelivered (ts : Nat) (c : Ch) (v : Conv) (code : BitVec 16)
  /-- INJ_SEQUENCE_BEGIN (R116). A pending injected sequence begins at its sample boundary, interrupting the regular sequence. -/
  | injSequenceBegin (tk : Nat) (c : Ch) (v : Conv)
  /-- SEQ_TAKES_EFFECT (R114). An accepted SEQ closes open intervals and restarts the sequence at entry 0. -/
  | seqTakesEffect (tk : Nat) (c : Ch) (v : Conv)
  /-- RECORD_END (R225). A record reaches its last planned boundary. -/
  | recordEnd (tk : Nat) (c : Ch)
  /-- RECORD_FINALIZE (R231). Once its last results arrive the hub writes the final header, hashes it and raises REC_CLOSED. -/
  | recordFinalize (tk : Nat) (c : Ch)
  /-- CHUNK_END (R237). A stream chunk reaches its length and the next chunk opens or is skipped. -/
  | chunkEnd (tk : Nat) (c : Ch)
  /-- MARK_SPAN_CLOSE (R238). Under CAPT+STRM a marked span ends and MARK_CLOSE and MEAS items are written. -/
  | markSpanClose (tk : Nat) (c : Ch)
  /-- SIDE_ROOM_RETURN (R233). Room returns in the side ring and a SIDE_LOST item is written. -/
  | sideRoomReturn (tk : Nat) (c : Ch)
  /-- GENERATOR_START (R210). The start condition is met; NEXT moves to CUR and sample 0 begins. -/
  | generatorStart (tk : Nat) (c : Ch)
  /-- GENERATOR_SAMPLE (R190). A generator sample falls due and the entry and loops advance. -/
  | generatorSample (c : Ch)
  /-- FETCH_BLOCK_ARRIVAL (R197). Fetch completes a block read into a slot, ending starvation or making NEXT ready. -/
  | fetchBlockArrival (tk : Nat) (c : Ch) (next : Bool) (block : Nat)
  /-- MARKER_EDGE (R208). A marker changes level MK_DELAY ticks after the entry that causes it. -/
  | markerEdge (tk : Nat) (c : Ch) (m1 : Bool) (level : Bool)
  /-- CAL_STEP_START (R325). The region engine places the next step of the first request that can be placed. -/
  | calStepStart (tk : Nat) (r : Rg)
  /-- CAL_STEP_END (R322). A calibration or Seasoning step finishes its measurement. -/
  | calStepEnd (tk : Nat) (r : Rg) (m : StepMeas)
  /-- CAL_ACK (R330). The hub enters the result in the Pedigree and acknowledges, starting the ramp. -/
  | calAck (tk : Nat) (c : Ch)
  /-- CAL_TIMEOUT (R327). A request has not ended within CAL_TMO and finishes with TIMEOUT. -/
  | calTimeout (tk : Nat) (c : Ch)
  /-- SEASONING_CYCLE_START (R337). Every PERIOD minutes a region begins a Seasoning cycle. -/
  | seasoningCycleStart (tk : Nat) (r : Rg)
  /-- SEASONING_CYCLE_END (R338). A cycle completes or times out and the planner computes candidates. -/
  | seasoningCycleEnd (tk : Nat) (r : Rg)
  /-- SAMPLE_CLOCK_LOST (R15). A region PLL loses lock or the region loses power; its channels enter Held. -/
  | sampleClockLost (tk : Nat) (r : Rg) (power : Bool)
  /-- SAMPLE_CLOCK_RETURN (R15). The sample clock returns; intervals close and abandoned injected sequences count as drops. -/
  | sampleClockReturn (tk : Nat) (r : Rg)
  /-- REF_FAULT (R24). The reference buffer stays outside its window for 1 µs. -/
  | refFault (tk : Nat) (r : Rg)
  /-- TICK_CHECK (R27). Every 65,536 ticks the hub checks the s.tick copies. -/
  | tickCheck (tk : Nat)
  /-- DIE_LINK_CRC_FAIL (R29). A die link transfer fails its CRC and is replayed. -/
  | dieLinkCrcFail (tk : Nat) (d : Die)
  /-- DIE_LINK_DOWN (R31). Replays fail for 1 µs; the link is down, items abort and threads halt. -/
  | dieLinkDown (tk : Nat) (d : Die)
  /-- DIE_CLOCK_LOST (R395). A die core PLL loses lock; the die's threads halt and items abort. -/
  | dieClockLost (tk : Nat) (d : Die)
  /-- DIE_LINK_RETURN (R415). The link retrains and held event groups are delivered. -/
  | dieLinkReturn (tk : Nat) (d : Die)
  /-- CLUSTER_HALT (R397). An uncorrectable cluster SRAM error halts all nine threads. -/
  | clusterHalt (tk : Nat) (cl : Cl) (cause : Byte)
  /-- QUEUE_INTEGRITY (R403). A queue's counters disagree and the queue is reset. -/
  | queueIntegrity (tk : Nat) (q : QueueRef) (second : Nat)
  /-- COALESCE_WINDOW_END (R413). A coalescing window ends and one coalesced packet is written. -/
  | coalesceWindowEnd (tk : Nat) (n : Src)
  /-- HELD_PACKET_RELEASE (R414). A held event packet finds room and is written. -/
  | heldPacketRelease (tk : Nat) (n : Src)
  /-- TRAINING_COMPLETE (R434). Memory training ends, writing EYE words and raising MEM_TRAINED. -/
  | trainingComplete (tk : Nat) (eyes : Vector (Nat × Nat) 4)
  /-- REFRESH_DUE (R429). A rank refresh falls due and is issued or postponed. -/
  | refreshDue (tk : Nat) (rank : Fin 4) (busy waiting : Bool)
  /-- MR4_RATE_CHANGE (R429). MR4 asks for or drops the doubled refresh rate. -/
  | mr4RateChange (tk : Nat) (sub : Fin 4) (hot : Bool)
  /-- PATROL_SCRUB (R431). The patrol scrub reads and corrects the next block. -/
  | patrolScrub (tk : Nat) (res : ScrubRead)
  /-- DDR_CLOCK_STOP (R473). In Standby, 100 µs after the last request the DDR clock stops. -/
  | ddrClockStop (tk : Nat)
  /-- PEDIGREE_APPEND (R454). An event reaches the security core and its entry is appended when a slot is free. -/
  | pedigreeAppend (tk : Nat)
  /-- SIGNING_COMPLETE (R458). The signer finishes a checkpoint or quote. -/
  | signingComplete (tk : Nat)
  /-- HUB_FAULT (R488). A hub controller fault, security core fault or DDR controller fatal error records CAUSE 0x03 to 0x05 and acts as the package fault of Table 1-8. -/
  | hubFault (tk : Nat) (cause : BitVec 8)
  /-- COMPARATOR_INACTIVE (R184). A comparator input falls back inside its threshold by the hysteresis, so ACTIVE clears and an UNRESOLVED comparator that leaves its band on the inactive side clears UNRES. -/
  | comparatorInactive (tk : Nat) (c : Ch) (m : Cmp)
  /-- DIE_CORE_PLL_LOCK (R27). A channel die's core PLL locks again after a loss of lock; the hub aligns the die's s.tick to its count and the issue phase is fixed anew. -/
  | dieCorePllLock (tk : Nat) (d : Die) (phases : List (Fin 9))
  /-- D0_ENTRY (R376). The function returns from D3hot to D0 and ring service, completions and events resume with no state lost. -/
  | d0Entry (tk : Nat)
deriving DecidableEq, Repr

end Sys2Proof
end

