-- ==== Sys2Proof/Decode.lean ====
section
/-! DEFINITION. Decoding of table words. No row of spec/opcode_table.json gives bits (every row's field list is empty), so
no word spells a command by the table. The decoding of Zheve instruction words, which the manual itself gives
(Table 10-21), stands with the operand forms in Machine/Operands.lean. -/

namespace Sys2Proof

/-- The command that an nbits-wide word spells by the table's bits: none, since no row of the table has bits. -/
def decodeTableWord (nbits w : Nat) : Option Instr :=
  match nbits, w with
  | _, _ => none

end Sys2Proof
end

