-- ==== Sys2Proof/Machine/Operands.lean ====
section
/-! DEFINITION. Operand forms of the Zheve instruction word (10.1): field access, F17, sign extension, and the legality
of a word for its row (R277): X allowed, unnamed fields zero, named fields without a reserved value. -/

namespace Sys2Proof.Machine

/-- Bits lo+len-1 : lo of a bit vector, as a number. -/
def fld {n : Nat} (w : BitVec n) (lo len : Nat) : Nat := (w.toNat >>> lo) % 2 ^ len

/-- Bit i of a bit vector as a Bool. -/
def bit {n : Nat} (w : BitVec n) (i : Nat) : Bool := w.getLsbD i

/-- The signed value of the low n bits of x. -/
def sx (n : Nat) (x : Nat) : Int :=
  let y := x % 2 ^ n
  if y < 2 ^ (n - 1) then (y : Int) else (y : Int) - (2 ^ n : Nat)

/-- A field of a word read as signed. -/
def sfld {n : Nat} (w : BitVec n) (lo len : Nat) : Int := sx len (fld w lo len)

/-- A word from a number, low 32 bits. -/
def wd (n : Nat) : Word := BitVec.ofNat 32 n

/-- A word from an integer, modulo 2^32. -/
def wi (n : Int) : Word := BitVec.ofInt 32 n

/-- A Bool as 0 or 1. -/
def b1 (b : Bool) : Nat := if b then 1 else 0

/-- `v` shifted to bit `lo`, for assembling register words. -/
def at_ (v lo : Nat) : Nat := v * 2 ^ lo

/-- An integer as an n-bit field. -/
def ifld (n : Nat) (v : Int) : Nat := (v % (2 ^ n : Nat)).toNat

/-- F17 of the F layout (R275). -/
def f17 (w : ZWord) : BitVec 17 := w.rb ++ w.f13

/-- Bits of F17 as a number. -/
def ff (w : ZWord) (lo len : Nat) : Nat := fld (f17 w) lo len

/-- F17 sign-extended to a word (R286). -/
def f17s (w : ZWord) : Word := (f17 w).signExtend 32

/-- F layout: X only where allowed, RD and RA zero unless named, F17 zero outside `mask` (R277). -/
def legalF (w : ZWord) (xOk rdN raN : Bool) (mask : BitVec 17) : Bool :=
  (xOk || !w.x) && (rdN || w.rd == 0) && (raN || w.ra == 0) && (f17 w &&& ~~~mask) == 0

/-- F layout with the value operand V (R278): with X = 1 RA must be 0. -/
def legalV (w : ZWord) (mask : BitVec 17) : Bool := legalF w true false (!w.x) mask

/-- R layout: fields zero unless named, F13 zero outside `mask` (R277). -/
def legalR (w : ZWord) (xOk rdN raN rbN : Bool) (mask : BitVec 13) : Bool :=
  (xOk || !w.x) && (rdN || w.rd == 0) && (raN || w.ra == 0) && (rbN || w.rb == 0) && (w.f13 &&& ~~~mask) == 0

/-- A three-operand arithmetic word (R285): with X = 1 RB must be 0. -/
def legalAlu (w : ZWord) (mask : BitVec 13) : Bool := legalR w true true true (!w.x) mask

/-- JMP and CALL (Table 10-3, R282): IND bit 16, TGT bits 13:0. -/
def legalJmp (w : ZWord) : Bool :=
  legalF w false false (bit (f17 w) 16) 0x13FFF && (!(bit (f17 w) 16) || ff w 0 14 == 0)

/-- BR.cond (Table 10-4): RA zero under OK and NOK. -/
def legalBr (w : ZWord) : Bool := legalF w false false (ff w 14 3 < 6) 0x1FFFF

/-- LOOP (R283). -/
def legalLoop (w : ZWord) : Bool := legalF w false false true 0x03FFF

/-- SAT (Table 10-5). -/
def legalSat (w : ZWord) : Bool := legalR w false true true false 0x003F

/-- LDI (Table 10-6): F17 zero with X = 1. -/
def legalLdi (w : ZWord) : Bool := legalF w true true false (if w.x then 0 else 0x1FFFF)

/-- LD and ST (Table 10-6). -/
def legalMem (w : ZWord) : Bool := legalF w true true true (if w.x then 0 else 0x1FFFF)

/-- MOVS (Tables 10-6, 10-7): SEL 7 reserved, s.tick into an even RD. -/
def legalMovs (w : ZWord) : Bool :=
  legalF w false true false 0x00007 && ff w 0 3 != 7 && (ff w 0 3 != 0 || !(bit w.rd 0))

/-- MOVD (Tables 10-6, 10-7). -/
def legalMovd (w : ZWord) : Bool := legalF w false false true 0x00007 && ff w 0 3 != 7

/-- EVT (Table 10-18). -/
def legalEvt (w : ZWord) : Bool := legalF w false false false 0x0FFFF

/-- EMIT (Table 10-18, R312): RA 0-8. -/
def legalEmit (w : ZWord) : Bool := legalF w false false true 0x0FFFF && decide (w.ra.toNat ≤ 8)

/-- COEF and LAW (Table 10-8): INDEX bits 6:0. -/
def legalCoef (w : ZWord) : Bool := legalV w 0x0007F

/-- HEEL (Table 10-8): value E or g(RA), slew g(RB). -/
def legalHeel (w : ZWord) : Bool := legalR w true false (!w.x) true 0

/-- PARK (Table 10-8): with KEEP = 1, X and RA are 0. -/
def legalPark (w : ZWord) : Bool := if ff w 0 1 = 1 then legalF w false false false 0x1 else legalV w 0x1

/-- SEQ (Table 10-11): CONV 0 reserved. -/
def legalSeq (w : ZWord) : Bool := legalF w false false false 0x3 && ff w 0 2 != 0

/-- READ (Table 10-11): REG 0-39, RD even. -/
def legalRead (w : ZWord) : Bool := legalF w false true false 0x3F && decide (ff w 0 6 < 40) && !(bit w.rd 0)

/-- ARM with OFF = 0 and OFF = 1 (Table 10-13); the OFF bit is fixed by the row. -/
def legalArm (off : Bool) (w : ZWord) : Bool :=
  legalF w false false false 0x1001F && (!off || ff w 0 5 == 0)

/-- REC (Table 10-13): RA 0-13. -/
def legalRec (w : ZWord) : Bool := legalF w false false true 0 && decide (w.ra.toNat ≤ 13)

/-- WAIT.EVT (Table 10-14). -/
def legalWaitEvt (w : ZWord) : Bool := legalF w true true true 0

/-- SYNC (Table 10-14, R305); the KIND bit is fixed by the row. -/
def legalSync (pkg : Bool) (w : ZWord) : Bool :=
  legalF w true true false 0x1EFFF && !(bit w.rd 0) &&
    (pkg || (decide (ff w 13 3 ≤ 3) && ff w 9 3 == 0))

/-- CAL with RES = 0: TARGET 0-4, no RD (Tables 10-15, 10-16). -/
def legalCal (w : ZWord) : Bool := legalF w false false false 0x1000F && decide (ff w 0 4 ≤ 4)

/-- CAL with RES = 1: TARGET 0 (Table 10-15). -/
def legalCalRes (w : ZWord) : Bool := legalF w false true false 0x10000

/-- SYSCAL.ZERO (Table 10-15): K at most 16. -/
def legalSysZero (w : ZWord) : Bool := legalF w false false false 0x1FF && decide (ff w 4 5 ≤ 16)

/-- SYSCAL.FULL (Table 10-15). -/
def legalSysFull (w : ZWord) : Bool := legalV w 0x1FF && decide (ff w 4 5 ≤ 16)

/-- SYSCAL.APPLY (Table 10-15): K is 0. -/
def legalSysApply (w : ZWord) : Bool := legalF w false false false 0x00F

/-- The selector bits that a row fixes in its word: TARGET of FORCE (Table 10-9), OFF of ARM, KIND of SYNC, RES of CAL
and FN of SYSCAL. A command whose word disagrees is not well-formed; its meaning goes by the row. -/
def fixedBits : Instr → Option (ZWord × Nat × Nat × Nat)
  | .forceSetpoint _ w => some (w, 0, 3, 0)
  | .forceBase _ w => some (w, 0, 3, 1)
  | .forceParkcode _ w => some (w, 0, 3, 2)
  | .forceClearcode _ w => some (w, 0, 3, 3)
  | .forceList _ w => some (w, 0, 3, 4)
  | .arm _ w => some (w, 16, 1, 0)
  | .armOff _ w => some (w, 16, 1, 1)
  | .syncCluster _ w => some (w, 16, 1, 0)
  | .syncPackage _ w => some (w, 16, 1, 1)
  | .cal _ w => some (w, 16, 1, 0)
  | .calRes _ w => some (w, 16, 1, 1)
  | .syscalZero _ w => some (w, 0, 2, 0)
  | .syscalFull _ w => some (w, 0, 2, 1)
  | .syscalApply _ w => some (w, 0, 2, 2)
  | _ => none

/-- The fields of an instruction word with its extension word (Table 10-1). -/
def zword (v e : Word) : ZWord :=
  { x := bit v 25, rd := v.extractLsb' 21 4, ra := v.extractLsb' 17 4, rb := v.extractLsb' 13 4,
    f13 := v.extractLsb' 0 13, e := e }

/-- OP of an instruction word (Table 10-1). -/
def opOf (v : Word) : Nat := fld v 26 6

/-- The command of an opcode below 0x20 (Table 10-21). -/
def zheveLow (op : Nat) (t : Thr) (w : ZWord) : Option Instr :=
  match op with
  | 0x01 => some (.jmp t w)
  | 0x02 => some (.brCond t w)
  | 0x03 => some (.call t w)
  | 0x04 => some (.ret t w)
  | 0x05 => some (.loop t w)
  | 0x08 => some (.add t w)
  | 0x09 => some (.sub t w)
  | 0x0A => some (.mul t w)
  | 0x0B => some (.shl t w)
  | 0x0C => some (.shr t w)
  | 0x0D => some (.and t w)
  | 0x0E => some (.or t w)
  | 0x0F => some (.xor t w)
  | 0x10 => some (.min t w)
  | 0x11 => some (.max t w)
  | 0x12 => some (.sat t w)
  | 0x14 => some (.mov t w)
  | 0x15 => some (.ldi t w)
  | 0x16 => some (.ld t w)
  | 0x17 => some (.st t w)
  | 0x18 => some (.movs t w)
  | 0x19 => some (.movd t w)
  | 0x1C => some (.evt t w)
  | 0x1D => some (.emit t w)
  | _ => none

/-- The command of an opcode from 0x20 on (Table 10-21). -/
def zheveHigh (op : Nat) (t : Thr) (w : ZWord) : Option Instr :=
  match op with
  | 0x20 => some (.mode t w)
  | 0x21 =>
    match ff w 0 3 with
    | 0 => some (.forceSetpoint t w)
    | 1 => some (.forceBase t w)
    | 2 => some (.forceParkcode t w)
    | 3 => some (.forceClearcode t w)
    | 4 => some (.forceList t w)
    | _ => none
  | 0x22 => some (.limit t w)
  | 0x23 => some (.range t w)
  | 0x24 => some (.law t w)
  | 0x25 => some (.coef t w)
  | 0x26 => some (.openLoop t w)
  | 0x27 => some (.closeLoop t w)
  | 0x28 => some (.heel t w)
  | 0x29 => some (.park t w)
  | 0x2A => some (.tripclr t w)
  | 0x2B => some (.blank t w)
  | 0x2C => some (.seq t w)
  | 0x2D => some (.inj t w)
  | 0x2E => some (.avg t w)
  | 0x2F => some (.read t w)
  | 0x30 => some (.seg t w)
  | 0x31 => some (.jump t w)
  | 0x32 => some (.rate t w)
  | 0x33 => some (.mark t w)
  | 0x34 => if ff w 16 1 = 1 then some (.armOff t w) else some (.arm t w)
  | 0x35 => some (.stay t w)
  | 0x36 => some (.recSet t w)
  | 0x37 => some (.strm t w)
  | 0x38 => some (.waitTick t w)
  | 0x39 => some (.waitTrig t w)
  | 0x3A => some (.waitEvt t w)
  | 0x3B => if ff w 16 1 = 1 then some (.syncPackage t w) else some (.syncCluster t w)
  | 0x3C => if ff w 16 1 = 1 then some (.calRes t w) else some (.cal t w)
  | 0x3D => some (.calgap t w)
  | 0x3E =>
    match ff w 0 2 with
    | 0 => some (.syscalZero t w)
    | 1 => some (.syscalFull t w)
    | 2 => some (.syscalApply t w)
    | _ => none
  | _ => none

/-- The command that an instruction word spells for thread t: Table 10-21 (R313). `none` for a reserved opcode or a
reserved selector, which faults with BAD_OPCODE (R277). -/
def zheve (t : Thr) (v e : Word) : Option Instr :=
  if opOf v < 0x20 then zheveLow (opOf v) t (zword v e) else zheveHigh (opOf v) t (zword v e)

/-- The word of a Zheve command's thread and fields, where the command is a Zheve row. -/
def zparts : Instr → Option (Thr × ZWord)
  | .jmp t w | .brCond t w | .call t w | .ret t w | .loop t w | .add t w | .sub t w | .mul t w | .shl t w
  | .shr t w | .and t w | .or t w | .xor t w | .min t w | .max t w | .sat t w | .mov t w | .ldi t w | .ld t w
  | .st t w | .movs t w | .movd t w | .evt t w | .emit t w | .mode t w | .forceSetpoint t w | .forceBase t w
  | .forceParkcode t w | .forceClearcode t w | .forceList t w | .limit t w | .range t w | .law t w | .coef t w
  | .openLoop t w | .closeLoop t w | .heel t w | .park t w | .tripclr t w | .blank t w | .seq t w | .inj t w
  | .avg t w | .read t w | .seg t w | .jump t w | .rate t w | .mark t w | .arm t w | .armOff t w | .stay t w
  | .recSet t w | .strm t w | .waitTick t w | .waitTrig t w | .waitEvt t w | .syncCluster t w | .syncPackage t w
  | .cal t w | .calRes t w | .calgap t w | .syscalZero t w | .syscalFull t w | .syscalApply t w => some (t, w)
  | _ => none

/-- R277 for a Zheve command. -/
def zlegal : Instr → Bool
  | .jmp _ w | .call _ w => legalJmp w
  | .brCond _ w => legalBr w
  | .ret _ w | .openLoop _ w | .closeLoop _ w | .tripclr _ w | .jump _ w => legalF w false false false 0
  | .loop _ w => legalLoop w
  | .add _ w | .sub _ w | .mul _ w | .shl _ w | .and _ w | .or _ w | .xor _ w => legalAlu w 0
  | .shr _ w | .min _ w | .max _ w => legalAlu w 1
  | .sat _ w => legalSat w
  | .mov _ w => legalR w false true true false 0
  | .ldi _ w => legalLdi w
  | .ld _ w | .st _ w => legalMem w
  | .movs _ w => legalMovs w
  | .movd _ w => legalMovd w
  | .evt _ w => legalEvt w
  | .emit _ w => legalEmit w
  | .mode _ w | .strm _ w => legalV w 0
  | .forceSetpoint _ w | .forceBase _ w | .forceParkcode _ w | .forceClearcode _ w | .forceList _ w => legalV w 0x7
  | .limit _ w => legalV w 0x3
  | .range _ w => legalF w false false false 0x7
  | .law _ w | .coef _ w => legalCoef w
  | .heel _ w => legalHeel w
  | .park _ w => legalPark w
  | .blank _ w => legalV w 0xF
  | .seq _ w => legalSeq w
  | .inj _ w => legalF w false false false 0x1
  | .avg _ w => legalF w false false false 0x3FF
  | .read _ w => legalRead w
  | .seg _ w => legalF w false false false 0xF
  | .rate _ w => legalR w false false true true 0
  | .mark _ w => legalV w 0x10000
  | .arm _ w => legalArm false w
  | .armOff _ w => legalArm true w
  | .stay _ w => legalV w 0x10000
  | .recSet _ w => legalRec w
  | .waitTick _ w => legalV w 0x10000
  | .waitTrig _ w => legalF w true true false 0x1F
  | .waitEvt _ w => legalWaitEvt w
  | .syncCluster _ w => legalSync false w
  | .syncPackage _ w => legalSync true w
  | .cal _ w => legalCal w
  | .calRes _ w => legalCalRes w
  | .calgap _ w => legalV w 0x3
  | .syscalZero _ w => legalSysZero w
  | .syscalFull _ w => legalSysFull w
  | .syscalApply _ w => legalSysApply w
  | _ => true

/-- The instruction-word commands that Table 10-21 marks "tk": t8 issuing one faults with NO_CHAN (R281). -/
def tkOnly : Instr → Bool
  | .mode .. | .forceSetpoint .. | .forceBase .. | .forceParkcode .. | .forceClearcode .. | .forceList .. | .limit ..
  | .range .. | .law .. | .coef .. | .openLoop .. | .closeLoop .. | .heel .. | .park .. | .tripclr .. | .blank ..
  | .seq .. | .inj .. | .avg .. | .read .. | .seg .. | .jump .. | .rate .. | .mark .. | .arm .. | .armOff ..
  | .stay .. | .recSet .. | .strm .. | .cal .. | .calRes .. | .calgap .. | .syscalZero .. | .syscalFull ..
  | .syscalApply .. => true
  | _ => false

end Sys2Proof.Machine
end

