-- ==== Sys2Proof/Machine/Sparse.lean ====
section
/-! DEFINITION. Sparse maps and byte memories as plain data: a list of (key, value) pairs with keys strictly rising and
no pair whose value is the default, so that equal maps are equal lists. -/

namespace Sys2Proof.Machine

/-- The value at key `k`; `d` where the map lists none. -/
def sget {α : Type} (d : α) : List (Nat × α) → Nat → α
  | [], _ => d
  | (a, v) :: m, k => if a = k then v else sget d m k

/-- Remove key `k`. -/
def serase {α : Type} : List (Nat × α) → Nat → List (Nat × α)
  | [], _ => []
  | (a, v) :: m, k => if a = k then serase m k else (a, v) :: serase m k

/-- Put `v` at key `k` in key order, replacing what stood there. -/
def sput {α : Type} : List (Nat × α) → Nat → α → List (Nat × α)
  | [], k, v => [(k, v)]
  | (a, u) :: m, k, v =>
    if k < a then (k, v) :: (a, u) :: m
    else if a = k then (k, v) :: m
    else (a, u) :: sput m k v

/-- Write `v` at key `k`; writing the default removes the entry. -/
def sset {α : Type} [DecidableEq α] (d : α) (m : List (Nat × α)) (k : Nat) (v : α) : List (Nat × α) :=
  if v = d then serase m k else sput m k v

/-- Keys strictly rising from `lo` on and no default listed. -/
def swfFrom {α : Type} [DecidableEq α] (d : α) : Nat → List (Nat × α) → Bool
  | _, [] => true
  | lo, (a, v) :: m => decide (lo ≤ a) && decide (v ≠ d) && swfFrom d (a + 1) m

/-- The canonical form of a sparse map. -/
def swf {α : Type} [DecidableEq α] (d : α) (m : List (Nat × α)) : Bool := swfFrom d 0 m

/-- A byte memory: unlisted addresses read 0 (DESIGN CHOICE, log 4). -/
abbrev Memory := List Host.Cell

/-- The canonical form of a memory. -/
def Memory.wf (m : Memory) : Bool := swf (0 : Byte) m

/-- The byte at `a`. -/
def memByte (m : Memory) (a : Nat) : Byte := sget (0 : Byte) m a

/-- Write the byte at `a`. -/
def memSetByte (m : Memory) (a : Nat) (b : Byte) : Memory := sset (0 : Byte) m a b

/-- Write bytes from `a` upward. -/
def memSetBytes (m : Memory) (a : Nat) : List Byte → Memory
  | [] => m
  | b :: bs => memSetBytes (memSetByte m a b) (a + 1) bs

/-- `n` bytes from `a` upward. -/
def memBytes (m : Memory) (a : Nat) : Nat → List Byte
  | 0 => []
  | n + 1 => memByte m a :: memBytes m (a + 1) n

/-- The little-endian word at `a` (R6). -/
def memWord (m : Memory) (a : Nat) : Word :=
  memByte m (a + 3) ++ memByte m (a + 2) ++ memByte m (a + 1) ++ memByte m a

/-- Write the little-endian word at `a` (R6). -/
def memSetWord (m : Memory) (a : Nat) (w : Word) : Memory :=
  memSetByte (memSetByte (memSetByte (memSetByte m a (w.extractLsb' 0 8)) (a + 1) (w.extractLsb' 8 8))
    (a + 2) (w.extractLsb' 16 8)) (a + 3) (w.extractLsb' 24 8)

/-- The `n` words from `a` upward. -/
def memWords (m : Memory) (a : Nat) : Nat → List Word
  | 0 => []
  | n + 1 => memWord m a :: memWords m (a + 4) n

/-- Remove every listed byte with address in [lo, hi). -/
def memClear (m : Memory) (lo hi : Nat) : Memory := m.filter fun p => decide (p.1 < lo) || decide (hi ≤ p.1)

end Sys2Proof.Machine
end

