-- ==== Sys2Proof/Config.lean ====
section
/-! DEFINITION. What an implementation fixes and the manual leaves open: opaque constants, so that no proof can see a
value. Every constant here has a row in notes/assumptions (6 and 7). -/

namespace Sys2Proof.Config

/-- A fresh free value of width 64; the step applies it to State.freeCtr and advances the counter (log 6). -/
opaque freeValue : Nat → BitVec 64

/-- Factory trim code k (0-7) of physical channel c, from OTP (R318). The manual gives no values (log 6). -/
opaque factoryTrim : Nat → Nat → Int

/-- SERIAL, the 64-bit die set serial number (R446) (log 6). -/
opaque serial : BitVec 64

/-- Boot ROM identifier (Tables 18-5, 18-8) (log 6). -/
opaque romId : BitVec 32

/-- The device certificate, X.509 v3 DER bytes (R446) (log 6). -/
opaque certificate : List Byte

/-- The vendor key hash in OTP, 32 bytes (R441) (log 6). -/
opaque vendorKeyHash : BitVec 256

/-- RSASSA-PSS verification of an image: the signature of the header over the signed bytes (R440, R441) (log 7). -/
opaque sigVerifies : List Byte → Bool

/-- RSASSA-PSS signature byte i (0-383) of a body, with a salt that a counter stands for (R458, R461) (log 7). -/
opaque signature : Nat → List Byte → Nat → Byte

/-- The 32-byte pair key (18.2, R445) (log 7). -/
opaque pairKey : List Byte

end Sys2Proof.Config
end

