-- ==== Sys2Proof/Machine/State.lean ====
section
/-! DEFINITION. The state of the QS9600 as plain data, the closed reason types, and the state after reset.
Sparse maps are lists of (key, value) pairs in one canonical form (Machine/Ops.lean: keys strictly rising, no default
value listed). Signed quantities with a stated width are integers kept in range by the saturations of R11. -/

namespace Sys2Proof.Machine

/-- Reasons a step could stop with a fault. The model raises none of them: every fault of the manual is a next state
(thread, cluster, die and package faults, R272, Tables 1-4, 1-7, 1-8). -/
inductive Fault where
  /-- Raised by no step; it stands so that the type has a name for a stop. Safe: it is never raised. -/
  | stopped
deriving DecidableEq, Repr

/-- Reasons a step could refuse a command. -/
inductive Refusal where
  /-- Raised by exec for a row that has no meaning yet, with the row's mnemonic. Safe: the run stops. -/
  | notModelled (mnemonic : String)
deriving DecidableEq, Repr

/-- Channel states of Table 2-4 (R53). -/
inductive ChSt where
  | off | parked | heel | run | held | tripped | draining
deriving DecidableEq, Repr

/-- Thread states of Table 9-13 (R273). -/
inductive ThSt where
  | idle | running | waiting | ended | halted
deriving DecidableEq, Repr

/-- Ring states of Table 14-11 (R372). -/
inductive RingSt where
  | closed | opened | draining | faulted | recap
deriving DecidableEq, Repr

/-- Law governing the regulated quantity (R152). -/
inductive Law where
  | none | linear | hyst
deriving DecidableEq, Repr

/-- Package power states of Table 19-2 (R471), in the order of PSTATE. -/
inductive PState where
  | deepSleep | standby | ready | run
deriving DecidableEq, Repr

/-- Link power states (R376). -/
inductive LinkSt where
  | l0 | l1 | l12
deriving DecidableEq, Repr

/-- A blanking window: open while the tick is below `till` (R178). -/
structure Window where
  till : Nat
  mask : BitVec 4
deriving DecidableEq, Repr

/-- A range entry, Table 3-8 (R92). -/
structure RangeEntry where
  settle     : Nat
  sensePat   : BitVec 6
  compScale  : Nat
  senseScale : Nat
  blankLen   : Nat
  mbbDelay   : Nat
  outType    : Bool
  scaleSel   : Bool
  gatePat    : BitVec 6
deriving DecidableEq, Repr

/-- A range change in progress (R97): the copy of the entry, S0, the due ticks of make, break and release, which of
make and break have been done, whether the release closes the loop, whether a force flag was in effect at S0 (it chooses
GATE_PAT or SENSE_PAT until the release, R99), the gate pattern before the change, and whether the change was cut short
so that only its make and break steps are still to come (`dead`, Table 3-10). -/
structure RangeChange where
  target : Fin 8
  entry  : RangeEntry
  s0     : Nat
  makeAt : Nat
  breakAt : Nat
  relAt  : Nat
  made   : Bool
  broken : Bool
  closes : Bool
  forced : Bool
  oldPat : BitVec 6
  dead   : Bool
deriving DecidableEq, Repr

/-- The span of a range change for the samples taken in it (R98): S0, the tick from which samples are normal again, the
target's range code and its entry. -/
structure RSpan where
  s0    : Nat
  rel   : Option Nat
  code  : BitVec 3
  entry : RangeEntry
deriving DecidableEq, Repr

/-- A deferred HEEL or CLOSE (R62, R289). -/
inductive DefMove where
  | heel (v : Int) (slew : Nat)
  | close
deriving DecidableEq, Repr

/-- Pulse configuration, Table 3-7 (R90). -/
structure PulseCfg where
  gate   : BitVec 3
  pol    : Bool
  start  : BitVec 2
  trig   : BitVec 5
  width  : Nat
  period : Nat
  count  : Nat
deriving DecidableEq, Repr

/-- A running pulse sequence: configuration in force, tick of the present pulse's start, pulses still to come after
this one (`none` = no limit) (R90, R91). -/
structure PulseRun where
  cfg   : PulseCfg
  t0    : Nat
  left  : Option Nat
deriving DecidableEq, Repr

/-- States of the linear law of one quantity (R150). -/
structure LawSt where
  z1 : Int
  z2 : Int
  z3 : Int
  y1 : Int
  y2 : Int
deriving DecidableEq, Repr

/-- A loop period between its boundary and its computation (R144): the boundary tick, the combiner's setpoint (in Heel
the target of R164), whether the channel was in Heel, the mode word and the scaled current limits in effect at the
boundary, and whether the loop engine computes it (R146). -/
structure Period where
  tick : Nat
  sp   : Int
  heel : Bool
  mode : BitVec 8
  iH   : Int
  iL   : Int
  live : Bool
deriving DecidableEq, Repr

/-- LOOP samples delivered of one loop period, summed per quantity (R147); `per` is the boundary tick that ends it. -/
structure LoopAcc where
  per  : Nat
  accV : Int
  nV   : Nat
  accI : Int
  nI   : Nat
deriving DecidableEq, Repr

/-- Loop engine state of a channel beside its parameters (R146-R164). `mark` is the sample boundary index at which the
count of loop periods began (R143), `lastB` the tick of the last loop-period boundary that has come, `liveFrom` the
sample boundary of the last closing transition (R146), `cmode` the mode
word of the last computed period, `entering` that the loop closes with its next computed period (R153, R154), `sp` the
setpoint of the last loop period (Table 1-2). -/
structure LoopSt where
  lawV     : LawSt
  lawI     : LawSt
  hysPrev  : Int
  last     : Int
  law      : Law
  qty      : Qty
  xlimLo   : Bool
  xoverI   : Bool
  entering : Bool
  running  : Bool
  acc      : List LoopAcc
  flight   : List Period
  mark     : Nat
  lastB    : Nat
  liveFrom : Nat
  cmode    : BitVec 8
  sticky   : Word
  rejCount : Nat
  heelH    : Option Int
  heelSlew : Nat
  sp       : Int
deriving DecidableEq, Repr

/-- Comparators and Muzzle of a channel (06). `win` holds the windows of Table 6-3 in order: range change, gate
change, major transition, pulse edge, program. -/
structure TripSt where
  active   : BitVec 4
  latch    : BitVec 4
  unres    : BitVec 4
  first    : BitVec 2
  tripTs   : Word
  pendAt   : Nat
  count    : Nat
  sticky   : Word
  thr      : Vector Int 4
  win      : Vector Window 5
  pend     : Bool
  watch    : BitVec 4
deriving DecidableEq, Repr

/-- An averaging interval of one entry (R128): the exponent it began with, accumulator, count, SAT and timestamp, and
the range code of its samples. -/
structure Interval where
  k    : Nat
  acc  : Int
  n    : Nat
  satf : Bool
  ts   : Nat
  rc   : BitVec 3
deriving DecidableEq, Repr

/-- Configuration of one converter: MCFG word, sequence entries, injected entries (Tables 4-3, 4-4). -/
structure ConvCfg where
  mcfg : Word
  ents : Vector Word 16
  inj  : Vector Word 4
deriving DecidableEq, Repr

/-- Progress of an injected sequence (R115-R117): its samples lie after tick `from_`; entry index, samples taken of it,
sum, SAT, RANGING, first instant and codes (newest first) of the entry. -/
structure InjRun where
  from_ : Nat
  idx   : Nat
  taken : Nat
  acc   : Int
  sat   : Bool
  rng   : Bool
  first : Nat
  codes : List (BitVec 16)
deriving DecidableEq, Repr

/-- What happens to a converter's sampling at a boundary, kept until the samples taken before it have been delivered: an
injected sequence begins at boundary `b`, its samples lying after `from_` (R116, R122); a SEQ takes effect (R114); a
calibration step occupies the converter or leaves it (R323). -/
inductive ConvOp where
  | inj (b from_ : Nat)
  | seq (b : Nat) (cfg : ConvCfg)
  | calOn (b : Nat)
  | calOff (b : Nat)
deriving DecidableEq, Repr

/-- State of one converter (04). `cfg` is in force at the sampling instants, `mark` the boundary index where it took
effect; the fields that begin with `w` and the intervals follow the samples as they are delivered, 18 sample periods
later (R102): configuration with its mark, entry and samples of its dwell, injected sequence, calibration, and the last instant
delivered. `ops` are the changes between the two; `splits` the recent splits of an interleaved pair, from and till which
boundary (R122). -/
structure ConvSt where
  cfg      : ConvCfg
  mark     : Nat
  ops      : List ConvOp
  wcfg     : ConvCfg
  wmark    : Nat
  wpos     : Nat
  wtaken   : Nat
  winj     : Option InjRun
  wcal     : Bool
  wts      : Nat
  iv       : Vector Interval 16
  knext    : Vector Nat 16
  injPend  : Bool
  injFrom  : Nat
  injEnd   : Nat
  splitTill : Nat
  splits   : List (Nat × Nat)
  seqPend  : Option ConvCfg
  seqDue   : Nat
  seqJoint : Bool
  sticky   : Word
  rdrop    : Nat
  drop     : Nat
  starting : Option Nat
  passTill : Nat
  inCal    : Bool
  gapFrom  : Nat
  gapTill  : Nat
  abandoned : Bool
  lossCause : Nat
deriving DecidableEq, Repr

/-- A result register with its snapshot and overwrite counter (R135, R136). -/
structure ResReg where
  res    : Word
  tstamp : Word
  snap   : Word
  flag   : Bool
  ovr    : Nat
deriving DecidableEq, Repr

/-- An item of the result queue (Table 16-1). -/
structure RqItem where
  res    : Word
  tstamp : Word
  tag    : BitVec 6
deriving DecidableEq, Repr

/-- A segment as SEG took it from its descriptor (Table 7-3). `len` is the number of entries minus one. -/
structure Seg where
  d     : Fin 16
  base  : Nat
  len   : Nat
  ends  : BitVec 2
  wline : BitVec 5
  l     : Vector Nat 4
deriving DecidableEq, Repr

/-- A generator entry (Tables 7-1, 7-2). -/
structure GenEntry where
  dur   : Nat
  ftw   : Nat
  phase : Nat
  amp   : Int
  mark  : BitVec 2
  flags : BitVec 12
deriving DecidableEq, Repr

/-- What follows the running pass once its commit point has been reached (R200). -/
inductive Follower where
  | undecided | repeat | next | stop | void
deriving DecidableEq, Repr

/-- Waveform generator of a channel (07). -/
structure GenSt where
  running   : Bool
  cur       : Option Seg
  next      : Option Seg
  curSlot   : Bool
  curLoaded : Nat
  nextLoaded : Nat
  curFrom   : Nat
  passBase  : Nat
  readyAt   : Nat
  mkPend    : List (Nat × Bool × Bool)
  follower  : Follower
  jumpPend  : Bool
  jumpAt    : Nat
  commitAt  : Option Nat
  starving  : Bool
  starved   : Nat
  eccAt     : Option Nat
  eccNext   : Option Nat
  m         : Nat
  n         : Nat
  rateM     : Nat
  rateN     : Nat
  t0        : Nat
  j         : Nat
  ent       : Nat
  left      : Nat
  entry     : GenEntry
  theta     : Nat
  ctr       : Vector Nat 4
  beg       : Vector (Option Nat) 4
  waiting   : Option Nat
  waitHit   : Option Nat
  xs        : List Int
  x0        : Int
  dds       : Int
  lineHit   : Option Nat
  armedAt   : Option Nat
  mkDelay   : Nat
  smk       : BitVec 2
  mkBits    : BitVec 2
  mkLvl     : BitVec 2
  sticky    : Word
  starveCnt : Nat
  starveT0  : Word
  starveT1  : Word
  mkcfg     : Word
  skew      : Nat
  size      : Nat
  nextSize  : Nat
  cut       : Bool
deriving DecidableEq, Repr

/-- Crossing detector of R236. -/
inductive Det where
  | unknown | low | high
deriving DecidableEq, Repr

/-- A measurement set being gathered (R235, R236). Times are in 1/256 tick. -/
structure MeasSet where
  n      : Nat
  min    : Int
  max    : Int
  sum    : Int
  sumsq  : Nat
  cross  : Nat
  tFirst : Nat
  tLast  : Nat
  det    : Det
  y0     : Int
  t0     : Nat
  sat    : Bool
deriving DecidableEq, Repr

/-- A record or stream chunk from its opening to its final header (R229, R230). Slot lists are newest first; `rngA`,
`rngB` are the RANGING runs (first slot, range code) and `gapA`, `gapB` the runs of fill slots (first, number, cause) whose
side items are still to be written (R232), `sideFrom` the side ring's write point when it opened; `back` holds, newest
first, the delivery tick and the sampling tick of its latest samples with the sets as they stood before each (R29, R31). -/
structure Rec where
  seq     : Nat
  addr    : Nat
  area    : Nat
  first   : Nat
  trig    : Nat
  last    : Nat
  pre     : Nat
  planM1  : Nat
  len     : Nat
  slotsA  : List (BitVec 16)
  slotsB  : List (BitVec 16)
  ofsB    : Nat
  lost    : Nat
  side    : List Byte
  sideN   : Nat
  sideFrom : Nat
  calGen  : Nat
  chunk   : Nat
  stream  : Bool
  chanW   : Word
  flags   : Word
  cfgA    : ConvCfg
  cfgB    : ConvCfg
  markA   : Nat
  markB   : Nat
  range0  : BitVec 3
  clk     : Word
  mA      : MeasSet
  mB      : MeasSet
  rngA    : Option (Nat × BitVec 3)
  rngB    : Option (Nat × BitVec 3)
  gapA    : Option (Nat × Nat × Nat)
  gapB    : Option (Nat × Nat × Nat)
  back    : List (Nat × Nat × MeasSet × MeasSet)
deriving DecidableEq, Repr

/-- A marked span under CAPT+STRM (R238). -/
structure Mark where
  no    : Nat
  first : Nat
  last  : Nat
  mA    : MeasSet
  mB    : MeasSet
deriving DecidableEq, Repr

/-- A delivered sample as the capture unit sees it: converter, sampling tick, raw code, corrected value and its SAT, its
RANGING tag with the range code, its entry, and whether it is injected. -/
structure Samp where
  conv : Conv
  ts   : Nat
  code : BitVec 16
  y    : Int
  sat  : Bool
  rng  : Bool
  rc   : BitVec 3
  ent  : Nat
  inj  : Bool
  ilv  : Bool
deriving DecidableEq, Repr

/-- Capture unit of a channel (08). Ring positions are running byte totals; the offset in a ring is the total modulo
its size (R386). `doneSeq` and `doneMark` name the record or mark whose close ends the count of its ARM (R227); `stayRun` is
the Stay that the latest accepted edge began (Table 8-7). -/
structure CapSt where
  armed     : Bool
  line      : BitVec 5
  fill      : Nat
  opened    : Nat
  pre       : Nat
  lenm1     : Nat
  count     : Nat
  stay      : Word
  stayRun   : Word
  chunkm1   : Nat
  accSince  : Bool
  tAcc      : Nat
  nEv       : Nat
  cur       : Option Rec
  latest    : Option Nat
  recSeq    : Nat
  trigIgn   : Nat
  lost      : Nat
  lostNew  : Nat
  sticky    : Word
  streaming : Bool
  chunkNo   : Nat
  skipped   : Nat
  skipSlots : Nat
  marks     : List Mark
  markNo    : Nat
  wTot      : Nat
  fTot      : Nat
  openTot   : Nat
  swTot     : Nat
  sfTot     : Nat
  sideLost  : Nat
  closing   : List Rec
  hist      : List Samp
  chunkLast : Nat
  doneSeq   : Nat
  doneMark  : Nat
deriving DecidableEq, Repr

/-- A system calibration measurement in progress (R309): FULL or ZERO, converter, input IS, range code, K, sum and
count, the applied value F, the issue tick and the deadline tick. -/
structure SysMeas where
  full  : Bool
  conv  : Conv
  isI   : Bool
  rc    : BitVec 3
  k     : Nat
  acc   : Int
  n     : Nat
  f     : Int
  from_ : Nat
  until_ : Nat
deriving DecidableEq, Repr

/-- Calibration state of a logical channel (R306-R310): CAL request pending, system measurement, stored zero (z, K) and
full (f, F) values by triple, and the outcome word below PENDING. -/
structure CalSt where
  req     : Bool
  reqTgt  : Nat
  meas    : Option SysMeas
  zero    : List (Nat × (Int × Nat))
  full    : List (Nat × (Int × Int))
  outcome : Word
deriving DecidableEq, Repr

/-- One channel unit (01 1.2), by logical channel. Beside the registers the manual names: `held` is the held code of a
range change and the place of a drain ramp; `stimAt` the tick of T4 until the first loop period of the stimulus (R164); `queue` holds each code with the tick of its write (R401); `fed` is the tick at which the queue's writer wrote first since the last flush (R68);
`rhist` the latest range changes for the samples still under way (R98); `pulseSeen` that the pulse timer runs with PULSE
in effect and `pulseFrc` the pulse fields in force (R90); `safeStep` that a drain has applied the safe pattern (R59);
`goOff` that the channel goes on to Off when its drain ends (T14). -/
structure Channel where
  st         : ChSt
  mode       : BitVec 8
  modePend   : Option (BitVec 8)
  modeStored : Option (BitVec 8)
  frozen     : Bool
  stimAt     : Option Nat
  defMode    : Option (BitVec 8)
  defMove    : Option DefMove
  safeStep   : Bool
  goOff      : Bool
  drainSlew  : Nat
  setpoint   : Int
  base       : Int
  parkCode   : Code
  clearCode  : Code
  dac        : Code
  fout       : Code
  held       : Code
  hold       : Option Nat
  queue      : List (Nat × Code)
  qiDac      : Nat
  fed        : Option Nat
  powerupOut : Bool
  clrActive  : Bool
  outType    : Bool
  chgOver    : Option Nat
  foutLimit  : Bool
  calBus     : Bool
  rSticky    : Word
  act        : Fin 8
  tgt        : Fin 8
  work       : RangeEntry
  rchg       : Option RangeChange
  rhist      : List RSpan
  gates      : BitVec 6
  vlimH      : Int
  vlimL      : Int
  ilimH      : Int
  ilimL      : Int
  floorV     : Nat
  floorI     : Nat
  gbq        : Nat
  listSel    : Option Nat
  listNext   : Option Nat
  listIdx    : Nat
  listLeft   : Nat
  listVal    : Int
  listRun    : Bool
  pulse      : Option PulseRun
  pulseAct   : Bool
  pulseSeen  : Bool
  pulseFrc   : Option PulseCfg
  coef       : Vector Int 67
  loop       : LoopSt
  trip       : TripSt
  convA      : ConvSt
  convB      : ConvSt
  res        : Vector ResReg 40
  rq         : List RqItem
  qiRes      : Nat
  strgHigh   : Bool
  gen        : GenSt
  cap        : CapSt
  cal        : CalSt
deriving DecidableEq, Repr

/-- A margin plan of a physical channel: FLOOR_V, FLOOR_I and DAC_GBQ (Table 13-7). -/
structure Plan where
  floorV : Nat
  floorI : Nat
  gbq    : Nat
deriving DecidableEq, Repr

/-- What follows the physical channel (R336, R346, R354): trim codes now in the trim DACs and their targets in the
order of CFLAGS, the ramp, residuals, clip flags, system pairs (SYS_OFS, SYS_GAIN) and the hub's copy with their
generations, plans, the last candidate values of the planner, and j of R340 from the last DAC linearity item. -/
structure Phys where
  trims    : Vector Int 8
  target   : Vector Int 8
  aonTrims : Vector Int 8
  ramping  : Bool
  rampLen  : Nat
  rampEnd  : Word
  resid    : Vector Nat 8
  cflags   : Byte
  pairs    : Vector (Int × Nat) 32
  copies   : Vector (Option (Int × Nat × Nat)) 32
  planNext : Plan
  planForce : Plan
  planGen  : Nat
  planPend : Bool
  formed   : Bool
  cands    : List Plan
  inlEnds  : Nat
deriving DecidableEq, Repr

/-- What a waiting thread waits for (R264, R312); a tick as the program named it, absolute or from the issue tick on. -/
inductive WaitKind where
  | tick (target : Nat) (rel : Bool)
  | trig (line : BitVec 5) (rd : BitVec 4)
  | evt (mask : Word) (rd : BitVec 4)
  | sync (b : BarRef) (rd : BitVec 4)
  | emit (ra : BitVec 4) (tag : BitVec 16)
deriving DecidableEq, Repr

/-- A wait in progress: its kind, issue tick, timeout in ticks, and the completion tick once its condition has come. -/
structure Wait where
  kind    : WaitKind
  issued  : Nat
  timeout : Option Nat
  hit     : Option Nat
deriving DecidableEq, Repr

/-- One Lathe thread (09.2). -/
structure Thread where
  g      : Vector Word 16
  pc     : Nat
  stack  : List Nat
  st     : ThSt
  cause  : Byte
  last   : Byte
  waited : Nat
  sticky : Word
  evt    : Word
  tfTick : Word
  wait   : Option Wait
  ready  : Nat
  from_  : Option (Ctx × RingNo)
deriving DecidableEq, Repr

/-- A barrier (R266): common mask, arrivals and, from the last arrival on, the release tick. -/
structure Barrier where
  mask    : BitVec 12
  arrived : BitVec 12
  release : Option Nat
deriving DecidableEq, Repr

/-- One cluster (01 1.3). `tmr` holds the next expiry tick of each running timer. -/
structure Cluster where
  imem     : List Host.Cell
  dmem     : List Host.Cell
  tmem     : List Host.Cell
  thr      : Vector Thread 9
  phase    : Fin 9
  lines    : BitVec 32
  tmr      : Vector (Option Nat) 8
  bars     : Vector Barrier 4
  sramCorr : Nat
  intake   : Nat
  qiInt    : Nat
  tblBad   : List Nat
deriving DecidableEq, Repr

/-- A request in a region engine's queue (R325): slot 0-15 a channel of the region, 16 the region's own items;
`szn` a Seasoning request; target of a CAL; run 0 or 1 and step index in its list; what its steps measured; tick of
acceptance; once computed, the result (new codes, residuals, clip flags, E values); whether the hub has acknowledged it; and
REF_ASSIGN as each step began (R320). -/
structure EngReq where
  slot    : Nat
  szn     : Bool
  target  : Nat
  run     : Nat
  idx     : Nat
  meas    : List StepMeas
  t0      : Nat
  result  : Option (List Int × List Nat × Byte × List Int)
  acked   : Bool
  refs    : List Int
deriving DecidableEq, Repr

/-- One region (01 1.4, 12.6, 13.5). `stepEnd` and `stepRef` belong to the running step; `cycleAt` is the start of the last
Seasoning cycle, with `cycCfg` and `cycCh` in force in it and the paths it has measured; `fwPend` that the engine takes new firmware
when its step ends (R351); `cool` that its sensor has read below 95 °C since a thermal shutdown (R484); `relock` the pair that its
PLL locks to (R470). -/
structure Region where
  on        : Bool
  seqUp     : Bool
  seqDown   : Bool
  p         : Nat
  q         : Nat
  clkOk     : Bool
  refOk     : Bool
  calcfg    : Word
  natgap    : BitVec 16
  preempt   : Nat
  refAssign : Int
  shunt     : Nat
  xrefFault : Bool
  queue     : List EngReq
  busy      : Bool
  kind      : Nat
  stepConv  : Conv
  stepSlot  : Nat
  szncfg    : Word
  sznch     : BitVec 16
  cycle     : Nat
  cycleOn   : Bool
  maxP      : Nat
  maxQ      : Nat
  stepEnd   : Nat
  stepRef   : Int
  cycleAt   : Option Nat
  cycCfg    : Word
  cycCh     : BitVec 16
  fresh     : List Nat
  fwPend    : Bool
  temp      : Int
  warned    : Bool
  cool      : Bool
  relock    : Option (Nat × Nat)
deriving DecidableEq, Repr

/-- One channel die (01 1.5): link up, core PLL locked, and a CRC replay in progress. -/
structure DieState where
  linkUp : Bool
  clkOk  : Bool
  replay : Bool
deriving DecidableEq, Repr

/-- One context (14.4, 18.3). -/
structure CtxState where
  isOpen : Bool
  viol   : Nat
  crSq   : DWord
  crCq   : DWord
  crTail : DWord
  crCfg  : Word
deriving DecidableEq, Repr

/-- A ring pair's descriptor (Table 14-10) with what the hub keeps beside it: the last LIMIT written to the host, the
completions not yet signalled, and whether it is pending (R375). -/
structure Ring where
  sqBase  : DWord
  cqBase  : DWord
  tailWb  : DWord
  sqTail  : Word
  sqHead  : Word
  limit   : Word
  cqTail  : Word
  cqHead  : Word
  lastSeq : Word
  sqLog   : Nat
  cqLog   : Nat
  win     : Nat
  irqEn   : Bool
  vec     : BitVec 5
  modCnt  : Nat
  modT    : Nat
  weight  : Nat
  st      : RingSt
  shown   : Word
  unsig   : Nat
  unsigAt : Nat
  pend    : Bool
deriving DecidableEq, Repr

/-- A packet of the device (Table 15-4) with the ring it goes to. -/
structure OutPkt where
  ctx    : Ctx
  ring   : RingNo
  type   : Byte
  status : Byte
  seq    : Word
  tag    : Word
  limit  : Word
  code   : Byte
  ptype  : Byte
  about  : BitVec 16
  res0   : Word
  res1   : DWord
  pay    : List Byte
deriving DecidableEq, Repr

/-- An item in the hub's journal (R398), from acceptance until its completion has been written. `stage` is 0 accepted, 1 executing,
2 executed with its completion still waiting. -/
structure JEnt where
  ctx   : Ctx
  ring  : RingNo
  hdr   : Hdr
  stage : Fin 3
deriving DecidableEq, Repr

/-- A violation log entry (Table 15-7). -/
structure VEntry where
  tick   : Word
  value  : Word
  detail : Word
  cause  : Byte
  ctx    : BitVec 7
  ring   : BitVec 12
deriving DecidableEq, Repr

/-- An event as a source raised it: code, detail, tick (R389). -/
structure Ev where
  code   : BitVec 16
  detail : Word
  tick   : Nat
deriving DecidableEq, Repr

/-- Events folded into one coalesced packet (Table 16-8): how many, tick of the first, and the header's event. -/
structure Fold where
  n     : Nat
  first : Nat
  ev    : Ev
deriving DecidableEq, Repr

/-- An event packet that waits (R414): where it goes, the events it stands for, whether it is a coalesced packet, and
whether the source's vector follows its writing (R411). -/
structure HeldEv where
  ctx  : Ctx
  ring : RingNo
  fold : Fold
  coal : Bool
  msi  : Bool
deriving DecidableEq, Repr

/-- An event source (R409-R415): EVCFG, PEND, OCC, the end of its coalescing window with what is folded, the packets it
holds (ring, content, whether the vector follows it), and the group kept on a die whose link is down. -/
structure EvSource where
  cfg  : Word
  pend : Bool
  occ  : Nat
  win  : Option Nat
  fold : Option Fold
  held : List HeldEv
  grp  : Option Fold
deriving DecidableEq, Repr

/-- A captured doorbell or register write of a low-power link state (R376). -/
inductive Captured where
  | bell (k : Ctx) (kind : Bool) (b : Bell)
  | reg (k : Ctx) (w : PageWrite)
deriving DecidableEq, Repr

/-- Hub core state (14, 18, 19). `linkAt` is the tick of the last link activity (R376), `bootCause` the cause that the next hub boot
enters (Table 18-5), `resume` that VDD_AON has risen since the last boot, `ssid` the subsystem identifiers that configuration space
shows (R358). -/
structure Hub where
  ready     : Bool
  fault     : Bool
  cause     : Byte
  directWr  : Nat
  recovery  : Bool
  fallback  : Bool
  testHeld  : Bool
  d3hot     : Bool
  pme       : Bool
  link      : LinkSt
  capture   : List Captured
  paused    : Bool
  linkAt    : Nat
  bootCause : Fin 5
  resume    : Bool
  ssid      : Word
deriving DecidableEq, Repr

/-- Pack bus interface (08.8). `trgPend` holds the edges still to be driven, by line with their pin ticks, and `lastTrg` the
last pin tick of each line (R242). -/
structure Pack where
  cfg      : Word
  sticky   : Word
  formed   : Bool
  rttValid : Bool
  rttSelf  : BitVec 16
  dly      : Vector (BitVec 16) 9
  src      : Vector (BitVec 9) 8
  origin   : DWord
  probing  : Bool
  forming  : Option Nat
  loaded   : Bool
  lost     : Bool
  onPack   : Bool
  lastTrg  : Vector (Option Nat) 8
  trgPend  : List (Nat × Nat)
  driven   : BitVec 8
  keepAt   : Nat
deriving DecidableEq, Repr

/-- Firmware slots (13.7, 18.1): running slot (false A), VALID bits, activation state, the two images, the bytes loaded so far,
and the tick of the last switch. -/
structure Fw where
  slot       : Bool
  validA     : Bool
  validB     : Bool
  gen        : Nat
  activating : Bool
  switched   : Bool
  reverted   : Bool
  imgA       : List Host.Cell
  imgB       : List Host.Cell
  loadPos    : Nat
  switchAt   : Nat
deriving DecidableEq, Repr

/-- Always-on domain (R465, Table 19-11). `remap` holds per cluster the physical position serving each thread; `entryTick` is s.tick at
the last entry to Deep sleep or loss of REFCLK, `k0` at the last keep pulse before; `waking` that a wake is under way;
`tickOff` the always-on time less s.tick, which an origin pulse changes (R241). -/
structure Aon where
  pstate    : PState
  deepPend  : Bool
  tickEst   : Bool
  clrsel    : BitVec 2
  lastReset : BitVec 3
  wakeSrc   : BitVec 3
  supDip    : BitVec 4
  wakeAt    : Option Nat
  remap     : Vector (Vector (Fin 8) 8) 12
  sclk      : Vector (Nat × Nat) 6
  entryTick : Nat
  k0        : Nat
  waking    : Bool
  tickOff   : Int
deriving DecidableEq, Repr

/-- A UE log entry (Table 17-10). -/
structure UeEntry where
  tick   : Word
  finder : Byte
  lch    : Byte
  block  : Nat
deriving DecidableEq, Repr

/-- Memory controller (17). `org*` is what OTP holds for the next reset (R447); `bad` the 64-byte blocks in error; `lastUse` the tick of
the last C2 request (R473); `kept` that the always-on domain holds training values (R437); `hot` the sub-channels whose MR4 asks for the
doubled rate; `tryRate` the lower rate at which training runs again (R434). -/
structure MemCtl where
  present  : Bool
  org      : BitVec 12
  orgOtp   : BitVec 12
  orgSet   : Bool
  trained  : Bool
  retrain  : Bool
  training : Bool
  selfRef  : Bool
  hot      : BitVec 4
  step     : Nat
  stepNext : Nat
  rate     : Nat
  eyes     : Vector (Nat × Nat) 4
  ce       : Vector Nat 4
  ue       : Vector Nat 4
  ueLog    : Vector UeEntry 16
  ueHead   : Nat
  pass     : Nat
  mccfg0   : Word
  mccfg1   : Word
  winBase  : Vector (BitVec 25) 64
  winSize  : Vector (BitVec 25) 64
  ddrClk   : Bool
  patrol   : Nat
  postponed : Vector Nat 4
  bad      : List Nat
  lastUse  : Nat
  kept     : Bool
  tryRate  : Option Nat
deriving DecidableEq, Repr

/-- What happens when a Pedigree entry has been appended (R454). -/
inductive PedAfter where
  | none
  | record (c : Ch) (seq : Nat)
deriving DecidableEq, Repr

/-- An event that waits for its Pedigree entry (R454): KIND, logical channel for the order, the tick at which it reached the
security core, its TICK, the calibration generation and the activation count with it, and its body. -/
structure PedEv where
  kind  : Byte
  lch   : Nat
  came  : Nat
  tick  : Nat
  calGen : Nat
  fwGen : Nat
  body  : List Byte
  after : PedAfter
deriving DecidableEq, Repr

/-- A Pedigree entry (Tables 18-4, 18-5). -/
structure PedEntry where
  kind   : Byte
  epoch  : Nat
  seq    : Nat
  tick   : Nat
  calGen : Nat
  fwGen  : Nat
  body   : List Byte
deriving DecidableEq, Repr

/-- A signed checkpoint (Table 18-7): its number, the SEQ and head it covers, and its 544 bytes. -/
structure Ckpt where
  number : Nat
  epoch  : Nat
  seq    : Nat
  head   : BitVec 256
  bytes  : List Byte
deriving DecidableEq, Repr

/-- A job of the signer (R459): a checkpoint with its cause and the packets that wait for it, or a quote. -/
inductive SignJob where
  | ckpt (cause : Nat) (waiters : List Pkt)
  | quote (p : Pkt)
deriving DecidableEq, Repr

/-- Pedigree and signer (18.4, 18.5). -/
structure Ped where
  epoch   : Nat
  seq     : Nat
  head    : BitVec 256
  entries : List PedEntry
  wait    : List PedEv
  low     : Bool
  nvEpoch : Nat
  nvSeq   : Nat
  nvHead  : BitVec 256
  ckptN   : Nat
  ckpts   : List Ckpt
  ckptLast : Nat
  since   : Nat
  signing : Option (SignJob × List Byte × Nat × BitVec 256)
  queue   : List SignJob
deriving DecidableEq, Repr

/-- Security core fuses and OTP fields (R442, R447). -/
structure Sec where
  svnMin  : Nat
  svn     : Nat
  xref    : Nat
  xrefSet : Bool
  ssid    : Word
  ssidSet : Bool
deriving DecidableEq, Repr

/-- A Seasoning path's record (Tables 13-2, 13-4): last value, STALE, AT_LIMIT and the history of complete cycles as
(always-on minute, value), newest first. -/
structure PathRec where
  value   : Int
  stale   : Bool
  atLimit : Bool
  hist    : List (Nat × Int)
deriving DecidableEq, Repr

/-- The state of one QS9600 package. `pending` is the queue of commands; `freeCtr` is the model's own counter of free
values (log 6); `genAt` are the ticks from which the calibration generations are in force, newest first (R332); `clrTill` is the hub tick from which CLR_N is high;
`cache` lists the descriptors that the hub holds beside the control rings', latest use first (R375); `hostOut`, `msixSent`, `tailWb` and
`lastRead` are what the part has sent to the host; `pba` holds the pending bits of masked vectors. -/
structure State where
  pending  : List Instr
  tick     : Nat
  dieTick  : Vector Nat 2
  freeCtr  : Nat
  chan     : Vector Channel 96
  phys     : Vector Phys 96
  clus     : Vector Cluster 12
  rgn      : Vector Region 6
  die      : Vector DieState 2
  ctxs     : Vector CtxState 64
  owner    : Vector Ctx 96
  rings    : List (Nat × Ring)
  cache    : List Nat
  items    : List Pkt
  journal  : List JEnt
  cqWait   : List OutPkt
  hostOut  : List OutPkt
  msixSent : List Nat
  tailWb   : List (Nat × Word)
  lastRead : DWord
  ev       : Vector EvSource 1024
  evSeq    : Vector Nat 64
  evLost   : Nat
  hub      : Hub
  msixTbl  : List Host.Cell
  pba      : BitVec 2048
  vlog     : List VEntry
  vlogHead : Nat
  vlogTotal : Nat
  trgCfg   : Vector Word 16
  trgCnt   : Vector Nat 16
  trgLvl   : BitVec 16
  pack     : Pack
  fw       : Fw
  aon      : Aon
  supplies : BitVec 9
  hotLock  : Bool
  clrTill  : Nat
  bars     : Vector Barrier 8
  mem      : MemCtl
  acq      : List Host.Cell
  ped      : Ped
  sec      : Sec
  calGen   : Nat
  genAt    : List Nat
  planGen  : Nat
  paths    : List (Nat × PathRec)
deriving DecidableEq, Repr

/-! ## Reset -/

/-- Range entry after region power-up (Table 3-8). -/
def RangeEntry.reset : RangeEntry :=
  { settle := 0, sensePat := 0, compScale := 0x40000000, senseScale := 0x40000000, blankLen := 0, mbbDelay := 0,
    outType := false, scaleSel := false, gatePat := 0 }

/-- Law states after region power-up: DESIGN CHOICE 0, the preload of R154 ignores them (log 5). -/
def LawSt.reset : LawSt := { z1 := 0, z2 := 0, z3 := 0, y1 := 0, y2 := 0 }

/-- Loop engine after region power-up (Table 5-6, R163). -/
def LoopSt.reset : LoopSt :=
  { lawV := .reset, lawI := .reset, hysPrev := 0, last := 0, law := .none, qty := .v, xlimLo := false, xoverI := false,
    entering := false, running := false, acc := [], flight := [], mark := 0,
    lastB := 0, liveFrom := 0, cmode := 0, sticky := 0, rejCount := 0, heelH := none, heelSlew := 16, sp := 0 }

/-- Muzzle after region power-up (R168, Table 6-8): thresholds at their full-scale ends. -/
def TripSt.reset : TripSt :=
  { active := 0, latch := 0, unres := 0, first := 0, tripTs := 0, pendAt := 0, count := 0, sticky := 0,
    thr := #v[2047, -2048, 2047, -2048], win := Vector.replicate 5 { till := 0, mask := 0 }, pend := false,
    watch := 0 }

/-- An empty interval with exponent 0 (R128). -/
def Interval.reset : Interval := { k := 0, acc := 0, n := 0, satf := false, ts := 0, rc := 0 }

/-- Converter configuration after region power-up: SEQA0 = VS with LOOP, SEQB0 = IS with LOOP (R110). -/
def ConvCfg.reset (v : Conv) : ConvCfg :=
  { mcfg := 0, ents := (Vector.replicate 16 (0 : Word)).set 0 (match v with | .a => 0x00010000 | .b => 0x00010001),
    inj := Vector.replicate 4 0 }

/-- Converter after region power-up (Tables 4-3, 4-10). -/
def ConvSt.reset (v : Conv) : ConvSt :=
  { cfg := .reset v, mark := 0, ops := [], wcfg := .reset v, wmark := 0, wpos := 0, wtaken := 0, winj := none, wcal := false,
    wts := 0, iv := Vector.replicate 16 .reset, knext := Vector.replicate 16 0, injPend := false, injFrom := 0,
    injEnd := 0, splitTill := 0, splits := [], seqPend := none, seqDue := 0, seqJoint := false, sticky := 0, rdrop := 0, drop := 0,
    starting := none, passTill := 0, inCal := false, gapFrom := 0, gapTill := 0, abandoned := false, lossCause := 0 }

/-- Result register after region power-up (Table 4-8). -/
def ResReg.reset : ResReg := { res := 0, tstamp := 0, snap := 0, flag := false, ovr := 0 }

/-- An entry of zeros, held before any entry has been played (DESIGN CHOICE, log 5). -/
def GenEntry.zero : GenEntry := { dur := 0, ftw := 0, phase := 0, amp := 0, mark := 0, flags := 0 }

/-- Generator after region power-up (R189, Tables 7-6 to 7-9). -/
def GenSt.reset : GenSt :=
  { running := false, cur := none, next := none, curSlot := false, curLoaded := 0, nextLoaded := 0, curFrom := 0, passBase := 0,
    readyAt := 0, mkPend := [],
    follower := .undecided, jumpPend := false, jumpAt := 0, commitAt := none, starving := false, starved := 0, eccAt := none, eccNext := none,
    m := 1, n := 1, rateM := 1, rateN := 1, t0 := 0, j := 0, ent := 0, left := 0, entry := .zero, theta := 0,
    ctr := Vector.replicate 4 0, beg := Vector.replicate 4 none, waiting := none, waitHit := none, xs := [], x0 := 0,
    dds := 0, lineHit := none, armedAt := none, mkDelay := 0, smk := 0, mkBits := 0, mkLvl := 0, sticky := 0,
    starveCnt := 0, starveT0 := 0, starveT1 := 0, mkcfg := 0, skew := 0, size := 0, nextSize := 0, cut := false }

/-- Capture unit after region power-up (Table 8-5). -/
def CapSt.reset : CapSt :=
  { armed := false, line := 0, fill := 0, opened := 0, pre := 0, lenm1 := 0, count := 1, stay := 0, stayRun := 0, chunkm1 := 0xFFFFF,
    accSince := false, tAcc := 0, nEv := 0, cur := none, latest := none, recSeq := 0, trigIgn := 0, lost := 0,
    lostNew := 0, sticky := 0, streaming := false, chunkNo := 0, skipped := 0, skipSlots := 0, marks := [],
    markNo := 0, wTot := 0, fTot := 0, openTot := 0, swTot := 0, sfTot := 0, sideLost := 0, closing := [], hist := [],
    chunkLast := 0, doneSeq := 0, doneMark := 0 }

/-- Calibration state after region power-up (Table 10-17). -/
def CalSt.reset : CalSt := { req := false, reqTgt := 0, meas := none, zero := [], full := [], outcome := 0 }

/-- Parameters of one quantity set after region power-up, by offset (Table 5-3). -/
def coefResetSet (o : Nat) : Int :=
  if o = 0x00 then 0x0080 else if o = 0x04 then 0x4000 else if o = 0x07 then 1 else if o = 0x08 then 0x4000
  else if o = 0x0D then 1 else if o = 0x12 then 32767 else if o = 0x13 then 32767 else 0

/-- Loop parameters after region power-up and per-channel reset, by index (Tables 5-3 and 5-4). -/
def coefReset (i : Nat) : Int :=
  if i < 0x20 then coefResetSet i else if i < 0x40 then coefResetSet (i - 0x20)
  else if i = 0x41 then 131071 else if i = 0x42 then -131072 else 0

/-- A channel block at its region power-up values, in the state Off (R42, R85, Tables 2-4, 3-12). -/
def Channel.reset : Channel :=
  { st := .off, mode := 0, modePend := none, modeStored := none, frozen := false, stimAt := none, defMode := none, defMove := none,
    safeStep := false, goOff := false, drainSlew := 16, setpoint := 0, base := 0, parkCode := 0x20000,
    clearCode := 0x20000, dac := 0x20000, fout := 0x20000, held := 0x20000, hold := none, queue := [],
    qiDac := 0, fed := none, powerupOut := true, clrActive := false, outType := false, chgOver := none, foutLimit := false,
    calBus := false, rSticky := 0, act := 0, tgt := 0, work := .reset, rchg := none, rhist := [],
    gates := 0, vlimH := 8388607, vlimL := -8388608, ilimH := 8388607, ilimL := -8388608, floorV := 2,
    floorI := 2, gbq := 0, listSel := none, listNext := none, listIdx := 0, listLeft := 0, listVal := 0,
    listRun := false, pulse := none, pulseAct := false, pulseSeen := false, pulseFrc := none, coef := Vector.ofFn fun i => coefReset i.val,
    loop := .reset, trip := .reset, convA := .reset .a, convB := .reset .b, res := Vector.replicate 40 .reset, rq := [],
    qiRes := 0, strgHigh := false, gen := .reset, cap := .reset, cal := .reset }

/-- Plan words after reset: floors 2, guard 0 (Table 13-7). -/
def Plan.reset : Plan := { floorV := 2, floorI := 2, gbq := 0 }

/-- A physical channel at the model's reset: identity pairs (R127), plans at reset; trim codes 0 (log 5). -/
def Phys.reset : Phys :=
  { trims := Vector.replicate 8 0, target := Vector.replicate 8 0, aonTrims := Vector.replicate 8 0, ramping := false,
    rampLen := 0, rampEnd := 0, resid := Vector.replicate 8 0, cflags := 0,
    pairs := Vector.replicate 32 (0, 0x40000000), copies := Vector.replicate 32 none, planNext := .reset,
    planForce := .reset, planGen := 0, planPend := false, formed := false, cands := [], inlEnds := 0 }

/-- A physical channel with the factory trim set of OTP (R318, log 6). -/
def Phys.factory (c : Nat) : Phys :=
  let t := Vector.ofFn fun k : Fin 8 => max (-2048) (min (Config.factoryTrim c k.val) 2047)
  { Phys.reset with trims := t, target := t, aonTrims := t }

/-- A thread after a package reset (R273). -/
def Thread.reset : Thread :=
  { g := Vector.replicate 16 0, pc := 0, stack := [], st := .idle, cause := 0, last := 0, waited := 0, sticky := 0,
    evt := 0, tfTick := 0, wait := none, ready := 0, from_ := none }

/-- An empty barrier (R266). -/
def Barrier.empty : Barrier := { mask := 0, arrived := 0, release := none }

/-- A cluster at its reset values (Table 9-9). -/
def Cluster.reset : Cluster :=
  { imem := [], dmem := [], tmem := [], thr := Vector.replicate 9 .reset, phase := 0, lines := 0,
    tmr := Vector.replicate 8 none, bars := Vector.replicate 4 .empty, sramCorr := 0, intake := 0,
    qiInt := 0, tblBad := [] }

/-- A region at its reset values, powered down (Tables 12-8 to 12-10, 13-5, 13-6, R469). -/
def Region.reset : Region :=
  { on := false, seqUp := false, seqDown := false, p := 1, q := 4, clkOk := false, refOk := false,
    calcfg := 0x1DD00005, natgap := 0xFFFF, preempt := 0, refAssign := 6400000, shunt := 0, xrefFault := false,
    queue := [], busy := false, kind := 0, stepConv := .a, stepSlot := 0, szncfg := 0x003C0432, sznch := 0xFFFF,
    cycle := 0, cycleOn := false, maxP := 1, maxQ := 4, stepEnd := 0, stepRef := 0, cycleAt := none,
    cycCfg := 0, cycCh := 0, fresh := [], fwPend := false, temp := 0, warned := false,
    cool := true, relock := none }

/-- A context after reset; only context 0 is open (R363). -/
def CtxState.reset (o : Bool) : CtxState :=
  { isOpen := o, viol := 0, crSq := 0, crCq := 0, crTail := 0, crCfg := 0 }

/-- A Closed ring (R372). -/
def Ring.closed : Ring :=
  { sqBase := 0, cqBase := 0, tailWb := 0, sqTail := 0, sqHead := 0, limit := 0, cqTail := 0, cqHead := 0, lastSeq := 0,
    sqLog := 0, cqLog := 0, win := 0, irqEn := false, vec := 0, modCnt := 0, modT := 0, weight := 0, st := .closed,
    shown := 0, unsig := 0, unsigAt := 0, pend := false }

/-- An event source after reset (Tables 16-6, 16-7). -/
def EvSource.reset : EvSource :=
  { cfg := 0, pend := false, occ := 0, win := none, fold := none, held := [], grp := none }

/-- Hub core after reset (Table 14-4). -/
def Hub.reset : Hub :=
  { ready := false, fault := false, cause := 0, directWr := 0, recovery := false, fallback := false, testHeld := false,
    d3hot := false, pme := false, link := .l0, capture := [], paused := false, linkAt := 0, bootCause := 3, resume := true,
    ssid := 0x96001EB7 }

/-- Pack registers after reset (Tables 8-12, 8-13, R240). -/
def Pack.reset : Pack :=
  { cfg := 0, sticky := 0, formed := false, rttValid := false, rttSelf := 0, dly := Vector.replicate 9 0,
    src := Vector.replicate 8 0, origin := 0, probing := false, forming := none, loaded := false, lost := false,
    onPack := false, lastTrg := Vector.replicate 8 none, trgPend := [], driven := 0, keepAt := 0 }

/-- Memory controller after reset (Tables 17-7, 17-8); no organisation is written (log 5). -/
def MemCtl.reset : MemCtl :=
  { present := false, org := 0, orgOtp := 0, orgSet := false, trained := false, retrain := false, training := false,
    selfRef := true, hot := 0, step := 0, stepNext := 0, rate := 0,
    eyes := Vector.replicate 4 (0, 0), ce := Vector.replicate 4 0, ue := Vector.replicate 4 0,
    ueLog := Vector.replicate 16 { tick := 0, finder := 0, lch := 0, block := 0 }, ueHead := 0, pass := 0,
    mccfg0 := 0x20080400, mccfg1 := 0x003C1810, winBase := Vector.replicate 64 0, winSize := Vector.replicate 64 0,
    ddrClk := false, patrol := 0, postponed := Vector.replicate 4 0, bad := [], lastUse := 0, kept := false, tryRate := none }

/-- Pedigree at the model's reset (18.4); CKPT_N 1,024 (Table 18-11), the rest by log 5. -/
def Ped.reset : Ped :=
  { epoch := 0, seq := 0, head := 0, entries := [], wait := [], low := false, nvEpoch := 0, nvSeq := 0,
    nvHead := 0, ckptN := 1024, ckpts := [], ckptLast := 0, since := 0, signing := none, queue := [] }

/-- The MSI-X Table after reset: every vector masked (PRESUMED: PCI Express, log 18). -/
def msixReset : List Host.Cell := (List.range 2048).map fun i => (16 * i + 12, 1)

/-- The part right after its first reset, the hub not yet booted: every region Off, every thread Idle, context 0 open
and owner of all channels (R448), every register at its Reset column. Values the manual does not give: log 5. -/
def State.reset : State :=
  { pending := [], tick := 0, dieTick := Vector.replicate 2 0, freeCtr := 0, chan := Vector.replicate 96 .reset,
    phys := Vector.ofFn fun c => Phys.factory c.val, clus := Vector.replicate 12 .reset, rgn := Vector.replicate 6 .reset,
    die := Vector.replicate 2 { linkUp := true, clkOk := false, replay := false },
    ctxs := (Vector.replicate 64 (CtxState.reset false)).set 0 (CtxState.reset true), owner := Vector.replicate 96 0,
    rings := [], cache := [], items := [], journal := [], cqWait := [], hostOut := [], msixSent := [], tailWb := [], lastRead := 0,
    ev := Vector.replicate 1024 .reset, evSeq := Vector.replicate 64 0, evLost := 0, hub := .reset, msixTbl := msixReset, pba := 0,
    vlog := [], vlogHead := 0, vlogTotal := 0, trgCfg := Vector.replicate 16 0x003202A7,
    trgCnt := Vector.replicate 16 0, trgLvl := 0, pack := .reset,
    fw := { slot := false, validA := false, validB := false, gen := 0, activating := false, switched := false,
            reverted := false, imgA := [], imgB := [], loadPos := 0, switchAt := 0 },
    aon := { pstate := .standby, deepPend := false, tickEst := false, clrsel := 1, lastReset := 0, wakeSrc := 0,
             supDip := 0, wakeAt := none, remap := Vector.replicate 12 (Vector.ofFn id),
             sclk := Vector.replicate 6 (1, 4), entryTick := 0, k0 := 0, waking := false, tickOff := 0 },
    supplies := 0x1FF, hotLock := false, clrTill := 0, bars := Vector.replicate 8 .empty, mem := .reset, acq := [],
    ped := .reset,
    sec := { svnMin := 0, svn := 0, xref := 0, xrefSet := false, ssid := 0x96001EB7, ssidSet := false }, calGen := 0, genAt := [],
    planGen := 0, paths := [] }

end Sys2Proof.Machine
end

