-- ==== Sys2Proof/Machine/Ops.lean ====
section
/-! DEFINITION. Named operations over the state: saturations (R11), time, element maps (R5), accessors of channels,
threads, clusters, regions, contexts and rings, and the byte memories of a cluster. -/

namespace Sys2Proof.Machine

/-! ## Numbers (Table 0-7) -/

/-- satN(x) for signed N bits. -/
def satS (n : Nat) (x : Int) : Int := max (-(2 ^ (n - 1) : Nat)) (min x ((2 ^ (n - 1) : Nat) - 1))

/-- usatN(x). -/
def satU (n : Nat) (x : Int) : Int := max 0 (min x ((2 ^ n : Nat) - 1))

/-- Arithmetic right shift, rounding toward negative infinity (R11). -/
def asr (x : Int) (n : Nat) : Int := x.fdiv (2 ^ n : Nat)

/-- A count that stops at its greatest value. -/
def satAdd (cap n k : Nat) : Nat := min cap (n + k)

/-- Ceiling of a / b. -/
def ceilDiv (a b : Nat) : Nat := (a + b - 1) / b

/-- Ticks in a microsecond (500 MHz core clock, R38). -/
def ticksPerUs : Nat := 500

/-! ## Element maps (R5) -/

/-- The cluster of a channel. -/
def clOf (c : Ch) : Cl := ⟨c.1 / 8, by omega⟩
/-- The thread that serves a channel. -/
def thOf (c : Ch) : Thr := ⟨clOf c, ⟨c.1 % 8, by omega⟩⟩
/-- The region of a channel. -/
def rgOf (c : Ch) : Rg := ⟨c.1 / 16, by omega⟩
/-- The region of a cluster. -/
def rgOfCl (n : Cl) : Rg := ⟨n.1 / 2, by omega⟩
/-- The die of a region. -/
def dieOfRg (r : Rg) : Die := ⟨r.1 / 3, by omega⟩
/-- The die of a cluster. -/
def dieOfCl (n : Cl) : Die := dieOfRg (rgOfCl n)
/-- The die of a channel. -/
def dieOfCh (c : Ch) : Die := dieOfRg (rgOf c)
/-- Channel k of a cluster. -/
def chOf (n : Cl) (k : Fin 8) : Ch := ⟨8 * n.1 + k.1, by omega⟩
/-- The channel a thread serves; none for t8. -/
def thCh (t : Thr) : Option Ch := if h : t.k.1 < 8 then some (chOf t.cl ⟨t.k.1, h⟩) else none
/-- Thread t8 of a cluster. -/
def t8 (n : Cl) : Thr := ⟨n, 8⟩
/-- The channels of a cluster. -/
def chsOfCl (n : Cl) : List Ch := (List.finRange 8).map (chOf n)
/-- The channels of a region. -/
def chsOfRg (r : Rg) : List Ch := (List.finRange 16).map fun k => ⟨16 * r.1 + k.1, by omega⟩
/-- The clusters of a region. -/
def clsOfRg (r : Rg) : List Cl := [⟨2 * r.1, by omega⟩, ⟨2 * r.1 + 1, by omega⟩]
/-- The regions of a die. -/
def rgsOfDie (d : Die) : List Rg := [⟨3 * d.1, by omega⟩, ⟨3 * d.1 + 1, by omega⟩, ⟨3 * d.1 + 2, by omega⟩]
/-- The clusters of a die. -/
def clsOfDie (d : Die) : List Cl := (rgsOfDie d).flatMap clsOfRg
/-- The channels of a die. -/
def chsOfDie (d : Die) : List Ch := (rgsOfDie d).flatMap chsOfRg
/-- All channels, in ascending order. -/
def allChs : List Ch := List.finRange 96
/-- The threads of a cluster. -/
def thrsOf (n : Cl) : List Thr := (List.finRange 9).map fun k => ⟨n, k⟩

/-! ## Accessors -/

/-- A channel. -/
def State.ch (s : State) (c : Ch) : Channel := s.chan.get c
/-- Change a channel. -/
def State.modCh (s : State) (c : Ch) (f : Channel → Channel) : State :=
  { s with chan := s.chan.set c.1 (f (s.chan.get c)) c.2 }
/-- A cluster. -/
def State.cl (s : State) (n : Cl) : Cluster := s.clus.get n
/-- Change a cluster. -/
def State.modCl (s : State) (n : Cl) (f : Cluster → Cluster) : State :=
  { s with clus := s.clus.set n.1 (f (s.clus.get n)) n.2 }
/-- A thread. -/
def State.th (s : State) (t : Thr) : Thread := (s.cl t.cl).thr.get t.k
/-- Change a thread. -/
def State.modTh (s : State) (t : Thr) (f : Thread → Thread) : State :=
  s.modCl t.cl fun c => { c with thr := c.thr.set t.k.1 (f (c.thr.get t.k)) t.k.2 }
/-- A region. -/
def State.rg (s : State) (r : Rg) : Region := s.rgn.get r
/-- Change a region. -/
def State.modRg (s : State) (r : Rg) (f : Region → Region) : State :=
  { s with rgn := s.rgn.set r.1 (f (s.rgn.get r)) r.2 }
/-- Change a die. -/
def State.modDie (s : State) (d : Die) (f : DieState → DieState) : State :=
  { s with die := s.die.set d.1 (f (s.die.get d)) d.2 }
/-- Change a context. -/
def State.modCtx (s : State) (k : Ctx) (f : CtxState → CtxState) : State :=
  { s with ctxs := s.ctxs.set k.1 (f (s.ctxs.get k)) k.2 }
/-- The physical position in its cluster that serves logical channel c (R5, R354). -/
def State.physPos (s : State) (c : Ch) : Fin 8 := (s.aon.remap.get (clOf c)).get ⟨c.1 % 8, by omega⟩
/-- The physical channel that serves logical channel c. -/
def State.physOf (s : State) (c : Ch) : Ch := chOf (clOf c) (s.physPos c)
/-- The record of the physical channel that serves c. -/
def State.ph (s : State) (c : Ch) : Phys := s.phys.get (s.physOf c)
/-- Change it. -/
def State.modPh (s : State) (c : Ch) (f : Phys → Phys) : State :=
  let p := s.physOf c
  { s with phys := s.phys.set p.1 (f (s.phys.get p)) p.2 }
/-- Change an event source. -/
def State.modEv (s : State) (n : Src) (f : EvSource → EvSource) : State :=
  { s with ev := s.ev.set n.1 (f (s.ev.get n)) n.2 }

/-- Global ring number (14.5). -/
def gring (k : Ctx) (r : RingNo) : Nat := 4096 * k.1 + r.1
/-- A ring pair. -/
def State.ring (s : State) (k : Ctx) (r : RingNo) : Ring := sget Ring.closed s.rings (gring k r)
/-- Set a ring pair. -/
def State.setRing (s : State) (k : Ctx) (r : RingNo) (g : Ring) : State :=
  { s with rings := sset Ring.closed s.rings (gring k r) g }
/-- Change a ring pair. -/
def State.modRing (s : State) (k : Ctx) (r : RingNo) (f : Ring → Ring) : State := s.setRing k r (f (s.ring k r))

/-- The hub uses a ring's descriptor: the 64 control rings are always cached, the other 4,032 places are replaced least recently used
(R375). -/
def State.touchCache (s : State) (k : Ctx) (r : RingNo) : State :=
  if r = 0 then s else { s with cache := (gring k r :: s.cache.filter (· != gring k r)).take 4032 }
/-- The descriptor of a ring is cached. -/
def State.cached (s : State) (k : Ctx) (r : RingNo) : Bool := r == 0 || s.cache.contains (gring k r)

/-- A channel in a state other than Off has its unit powered; a region that is off leaves its channels Off or Held. -/
def State.rgOn (s : State) (c : Ch) : Bool := (s.rg (rgOf c)).on

/-! ## Time (R27, R38, log 2) -/

/-- The s.tick copy of a die. -/
def State.dt (s : State) (d : Die) : Nat := s.dieTick.get d

/-- The hub count moves to `t` if that lies ahead; each die whose core clock runs moves by the same amount. In Deep sleep no
count runs (R475). -/
def State.advance (s : State) (t : Nat) : State :=
  if s.aon.pstate = .deepSleep then s
  else { s with
    tick := max s.tick t
    dieTick := Vector.ofFn fun d => s.dt d + if (s.die.get d).clkOk then t - s.tick else 0 }

/-- As `advance`, to a tick of a die's own count. -/
def State.advanceDie (s : State) (d : Die) (t : Nat) : State := s.advance (s.tick + (t - s.dt d))

/-- CLR_N is high (R80). -/
def State.clrHigh (s : State) : Bool := decide (s.clrTill ≤ s.tick)

/-! ## Sample clock (R39, R103) -/

/-- Tick of sample boundary k: ceil(k Q / P) (R103). -/
def tickOf (p q k : Nat) : Nat := ceilDiv (k * q) p
/-- Index of the last sample boundary at or before tick t: floor(t P / Q). -/
def idxOf (p q t : Nat) : Nat := t * p / q
/-- The sample boundary index of a channel's region at its die's present tick. -/
def State.sIdx (s : State) (c : Ch) (t : Nat) : Nat := idxOf (s.rg (rgOf c)).p (s.rg (rgOf c)).q t
/-- Tick of sample boundary k of a channel. -/
def State.sTick (s : State) (c : Ch) (k : Nat) : Nat := tickOf (s.rg (rgOf c)).p (s.rg (rgOf c)).q k
/-- The first sample boundary after tick t (R246). -/
def State.nextB (s : State) (c : Ch) (t : Nat) : Nat := s.sTick c (s.sIdx c t + 1)
/-- The channel's die tick now. -/
def State.now (s : State) (c : Ch) : Nat := s.dt (dieOfCh c)
/-- The first sample boundary after now. -/
def State.bnd (s : State) (c : Ch) : Nat := s.nextB c (s.now c)
/-- One sample period in ticks, rounded up. -/
def State.sPeriod (s : State) (c : Ch) : Nat := ceilDiv (s.rg (rgOf c)).q (s.rg (rgOf c)).p

/-! ## Ownership (R19, R362, R408) -/

/-- Context k owns every channel of the list. -/
def State.ownsAll (s : State) (k : Ctx) (cs : List Ch) : Bool := cs.all fun c => s.owner.get c == k
/-- Owner of a group of channels: the context that owns all of them, context 0 while none does (R362, R408). -/
def State.groupOwner (s : State) (cs : List Ch) : Ctx :=
  match cs with
  | [] => 0
  | c :: _ => if s.ownsAll (s.owner.get c) cs then s.owner.get c else 0
/-- The region owner (R362). -/
def State.rgOwner (s : State) (r : Rg) : Ctx := s.groupOwner (chsOfRg r)
/-- Owner of an event source (R408). -/
def State.srcOwner (s : State) (n : Src) : Ctx :=
  if h : n.1 < 768 then s.owner.get ⟨n.1 / 8, by omega⟩
  else if h2 : n.1 < 864 then s.groupOwner (chsOfCl ⟨(n.1 - 768) / 8, by omega⟩)
  else if h3 : n.1 < 912 then s.rgOwner ⟨(n.1 - 864) / 8, by omega⟩
  else 0
/-- The channel die of an event source; none for hub sources (Table 16-4). -/
def srcDie (n : Src) : Option Die :=
  if h : n.1 < 768 then some (dieOfCh ⟨n.1 / 8, by omega⟩)
  else if h2 : n.1 < 864 then some (dieOfCl ⟨(n.1 - 768) / 8, by omega⟩)
  else if h3 : n.1 < 912 then some (dieOfRg ⟨(n.1 - 864) / 8, by omega⟩)
  else none

/-! ## Cluster table words (Tables 9-7, 9-8) -/

/-- Byte offset of word `o` of a channel's control area in its cluster's table SRAM. -/
def ctlOff (c : Ch) (o : Nat) : Nat := 0x800 * (c.1 % 8) + o
/-- A stored word of a channel's control area. -/
def State.ctl (s : State) (c : Ch) (o : Nat) : Word := memWord (s.cl (clOf c)).tmem (ctlOff c o)
/-- Store a word of a channel's control area. -/
def State.setCtl (s : State) (c : Ch) (o : Nat) (w : Word) : State :=
  s.modCl (clOf c) fun n => { n with tmem := memSetWord n.tmem (ctlOff c o) w }

/-! ## Supplies (Table 19-8) -/

/-- Bit of a supply in `supplies`. -/
def supIdx : Supply → Fin 9
  | .core => 0
  | .ddr => 1
  | .pcie08 => 2
  | .pcie18 => 3
  | .io => 4
  | .vdda => 5
  | .vhvP => 6
  | .vhvN => 7
  | .aon => 8

/-- A supply is valid. -/
def State.supOk (s : State) (u : Supply) : Bool := bit s.supplies (supIdx u)

/-- The region supplies that are invalid, as SUP_DIP bits (Table 19-7). -/
def State.rgSupBad (s : State) : Nat :=
  b1 (!s.supOk .vdda) + at_ (b1 (!s.supOk .vhvP)) 1 + at_ (b1 (!s.supOk .vhvN)) 2

/-! ## Free values (log 6) -/

/-- The next free value. -/
def State.free (s : State) : BitVec 64 := Config.freeValue s.freeCtr
/-- The counter moves on once a free value has been used. -/
def State.used (s : State) : State := { s with freeCtr := s.freeCtr + 1 }

/-- Apply an operation for each element of a list, in order. -/
def State.each {α : Type} (s : State) (l : List α) (f : α → State → State) : State := l.foldl (fun s a => f a s) s

end Sys2Proof.Machine
end

