-- ==== Sys2Proof/Machine/Dsp.lean ====
section
/-! DEFINITION. Fixed-point evaluation of the sine of R192 and of the resampler coefficients of R206. Both rules give
exact real expressions with a final rounding; the model evaluates them with 80 fraction bits (DEDUCED, log 12). -/

namespace Sys2Proof.Machine

/-- 2^80, the scale of the fixed-point values. -/
def dspOne : Int := 2 ^ 80
/-- π at that scale. -/
def dspPi : Int := 3797952473636338580787993

/-- Sum of the Taylor terms of the sine after `t`, with x² = `x2`, n the order of `t`. -/
def sinTail : Nat → Int → Int → Nat → Int
  | 0, _, _, _ => 0
  | k + 1, x2, t, n =>
    let t' := -((t * x2).fdiv dspOne).fdiv ((n + 1) * (n + 2) : Nat)
    t' + sinTail k x2 t' (n + 2)

/-- sin of an angle from 0 to π/2, at scale 2^80. -/
def sinFix (x : Int) : Int := x + sinTail 16 ((x * x).fdiv dspOne) x 1

/-- sin(2π P / 2^20), at scale 2^80. -/
def sinTurn (P : Int) : Int :=
  let p := P.emod (2 ^ 20)
  let q := p / 2 ^ 18
  let r := p % 2 ^ 18
  let x := fun (v : Int) => sinFix ((dspPi * v).fdiv (2 ^ 19))
  if q = 0 then x r else if q = 1 then x (2 ^ 18 - r) else if q = 2 then -x r else -x (2 ^ 18 - r)

/-- cos(2π P / 2^20), at scale 2^80. -/
def cosTurn (P : Int) : Int := sinTurn (P + 2 ^ 18)

/-- The sine shape of R192: floor(131071 sin(2πP/2^20) + 0.5). -/
def sineW (P : Nat) : Int := (131071 * sinTurn P + dspOne / 2).fdiv dspOne

/-- r(d) of R206 for d = a/64, at scale 2^80. -/
def resR (a : Int) : Int :=
  if a = 0 then dspOne
  else
    let sinc := (sinTurn (a * 2 ^ 13) * dspOne * 64).fdiv (dspPi * a)
    let w := (42 * dspOne + 50 * cosTurn (a * 2 ^ 10) + 8 * cosTurn (a * 2 ^ 11)).fdiv 100
    (sinc * w).fdiv dspOne

/-- The coefficients h[p][0..15] before the correction of the middle tap. -/
def resRow0 (p : Nat) : List Int :=
  let rs := (List.range 16).map fun (k : Nat) => resR (64 * ((k : Int) - 7) - p)
  let sum := rs.foldl (· + ·) 0
  rs.map fun r => (2 * (2 ^ 17 * r) + sum).fdiv (2 * sum)

/-- The coefficients h[p][0..15] of R206. -/
def resRow (p : Nat) : List Int :=
  let h := resRow0 p
  let fix := 2 ^ 17 - h.foldl (· + ·) 0
  h.zipIdx.map fun v => if v.2 = (if p < 32 then 7 else 8) then v.1 + fix else v.1

/-- Integer square root by bits, structural in the number of bits still to decide. -/
def isqrtBits : Nat → Nat → Nat → Nat
  | 0, _, r => r
  | k + 1, n, r => let c := r + 2 ^ k; isqrtBits k n (if c * c ≤ n then c else r)

/-- floor(sqrt n) for n below 2^160. -/
def isqrt (n : Nat) : Nat := isqrtBits 80 n 0

/-- round(sqrt n) to the nearest integer. -/
def rsqrt (n : Nat) : Nat := let r := isqrt n; if r * r + r < n then r + 1 else r

end Sys2Proof.Machine
end

