-- ==== Sys2Proof/Machine/HostOut.lean ====
section
/-! DEFINITION. What the device writes to the host: completion units, the tail word, MSI-X messages, completions,
violations with their log, and credit updates (14.5, 15.2-15.5). -/

namespace Sys2Proof.Machine

/-- Units of a device packet (R379). -/
def OutPkt.units (o : OutPkt) : Nat := 1 + (o.pay.length + 31) / 32

/-- Little-endian bytes of a number (R6). -/
def leBytes : Nat → Nat → List Byte
  | 0, _ => []
  | n + 1, v => BitVec.ofNat 8 v :: leBytes n (v / 256)

/-- A number from little-endian bytes. -/
def leNat : List Byte → Nat
  | [] => 0
  | b :: bs => b.toNat + 256 * leNat bs

/-- Free completion units of a ring: up to CQ_HEAD + 2^CQ_LOG2 (R367). -/
def Ring.room (g : Ring) : Nat := 2 ^ g.cqLog - (g.cqTail - g.cqHead).toNat

/-- The hub serves its rings: its firmware, or in recovery the boot ROM, runs and no switch of firmware is under way (R351,
R444). -/
def State.hubServes (s : State) : Bool := (s.hub.ready || s.hub.recovery) && !s.hub.paused

/-- The function issues requests: the hub serves, not in D3hot, link not in L1.2, no retraining under way (R376, R436). -/
def State.linkIssues (s : State) : Bool := s.hubServes && !s.hub.d3hot && s.hub.link != .l12 && !s.mem.training

/-- A completion of `n` units can be written now: room, nothing waiting before it on the ring (R370). -/
def State.canWrite (s : State) (k : Ctx) (r : RingNo) (n : Nat) : Bool :=
  s.linkIssues && (s.ring k r).st != .recap && decide (n ≤ (s.ring k r).room) && !(s.cqWait.any fun o => o.ctx == k && o.ring == r)

/-- Vector v is masked in the MSI-X Table (R360). -/
def State.msixMasked (s : State) (v : Nat) : Bool := bit (memWord s.msixTbl (16 * v + 12)) 0

/-- Send an MSI-X vector (R371); a masked one stays pending in the PBA (R360). -/
def State.msix (s : State) (v : Nat) : State :=
  if s.msixMasked v then { s with pba := s.pba ||| BitVec.ofNat 2048 (2 ^ v) } else { s with msixSent := v :: s.msixSent }

/-- Remove the first element that a test picks. -/
def eraseFirst {α : Type} (f : α → Bool) : List α → List α
  | [] => []
  | a :: l => if f a then l else a :: eraseFirst f l

/-- Change the first element that a test picks. -/
def updFirst {α : Type} (f : α → Bool) (g : α → α) : List α → List α
  | [] => []
  | a :: l => if f a then g a :: l else a :: updFirst f g l

/-- A completion leaves the hub: its item leaves the journal (R398). -/
def State.unjournal (s : State) (o : OutPkt) : State :=
  if o.type = 0x80 then
    { s with journal := eraseFirst (fun j => j.ctx == o.ctx && j.ring == o.ring && j.hdr.seq == o.seq && j.hdr.type == o.ptype
                                             && j.stage == 2) s.journal }
  else s

/-- Write a packet into free units, then CQ_TAIL to TAIL_WB (R370), then the ring's message under its moderation (R371).
The packet carries the LIMIT in force (R369). -/
def State.writeOut (s : State) (o : OutPkt) : State :=
  let g := s.ring o.ctx o.ring
  let tail := g.cqTail + wd o.units
  let n := g.unsig + 1
  let send := g.irqEn && decide (g.modCnt ≤ n)
  let g' := { g with
    cqTail := tail, shown := g.limit, unsig := if send || !g.irqEn then 0 else n,
    unsigAt := if g.unsig = 0 then s.tick else g.unsigAt }
  let s := { s.setRing o.ctx o.ring g' with
    hostOut := { o with limit := g.limit } :: s.hostOut
    tailWb := sput s.tailWb (gring o.ctx o.ring) tail
    hub := { s.hub with linkAt := s.tick, link := .l0 } }.unjournal o
  if send then s.msix (32 * o.ctx.1 + g.vec.toNat) else s

/-- Write a packet, or let it wait in the hub; in D3hot a message that falls due signals PME (R370, R376). -/
def State.post (s : State) (o : OutPkt) : State :=
  if s.canWrite o.ctx o.ring o.units then s.writeOut o
  else { s with
    cqWait := s.cqWait ++ [o]
    hub := { s.hub with pme := s.hub.pme || (s.hub.d3hot && (s.ring o.ctx o.ring).irqEn) } }

/-- A device packet with nothing in its variable fields (Table 15-4). -/
def OutPkt.blank (k : Ctx) (r : RingNo) (type : Byte) : OutPkt :=
  { ctx := k, ring := r, type := type, status := 0, seq := 0, tag := 0, limit := 0, code := 0, ptype := 0,
    about := BitVec.ofNat 16 r.1, res0 := 0, res1 := 0, pay := [] }

/-- Status values of a COMPLETION (Table 15-4). -/
def stOk : Byte := 0
/-- FAILED. -/
def stFailed : Byte := 1
/-- ABORTED_BY_FAULT. -/
def stAborted : Byte := 2
/-- DEFERRED. -/
def stDeferred : Byte := 3

/-- The same accepted packet: its ring and header (R381). -/
def samePkt (p q : Pkt) : Bool := p.ctx == q.ctx && p.ring == q.ring && p.hdr == q.hdr

/-- An item reaches a stage in the journal. -/
def State.mark (s : State) (p : Pkt) (n : Fin 3) : State :=
  { s with journal := updFirst (fun j => j.ctx == p.ctx && j.ring == p.ring && j.hdr == p.hdr && j.stage < n)
                               (fun j => { j with stage := n }) s.journal }

/-- A ring in Draining with no accepted packet and no completion left can close; a control ring only after every other ring of
its context (R373). -/
def State.canClose (s : State) (k : Ctx) (r : RingNo) : Bool :=
  (s.ring k r).st == .draining && !(s.items.any fun p => p.ctx == k && p.ring == r)
    && !(s.cqWait.any fun o => o.ctx == k && o.ring == r)
    && (r != 0 || !(s.rings.any fun g => g.1 / 4096 == k.1 && g.1 % 4096 != 0 && g.2.st != .closed))

/-- An item waits for ring r of context k to close: its RING_DESTROY (R373), or for the control ring the CTX_CLOSE of the context
(R449). -/
def waitsClose (k : Ctx) (r : RingNo) (p : Pkt) : Bool :=
  (p.ctx == k && p.hdr.type == 0x03 && fld p.hdr.arg0 0 12 == r.1)
    || (r == 0 && p.hdr.type == 0x5A && fld p.hdr.arg0 0 6 == k.1)

/-- A ring that can close is Closed; what waits for it completes, a destroy with the count of units not fetched, and closing goes on
with the rings that this sets free. The number bounds the chain. -/
def State.drainN : Nat → State → Ctx → RingNo → State
  | 0, s, _, _ => s
  | n + 1, s, k, r =>
    if s.canClose k r then
      let g := s.ring k r
      let s := s.setRing k r Ring.closed
      let ps := s.items.filter (waitsClose k r)
      let s := s.each ps fun p s =>
        let d := p.hdr.type == 0x03
        let s := if d then s else s.modCtx k fun c => { c with isOpen := false }
        let s := ({ s with items := eraseFirst (samePkt p) s.items }.mark p 2).post
          { OutPkt.blank p.ctx p.ring 0x80 with
            seq := p.hdr.seq, tag := p.hdr.tag, ptype := p.hdr.type, res0 := if d then g.sqTail - g.sqHead else 0 }
        s.drainN n p.ctx p.ring
      if r = 0 then s else s.drainN n k 0
    else s

/-- Close what can close from ring r of context k on. -/
def State.drainRing (s : State) (k : Ctx) (r : RingNo) : State := s.drainN 6 k r

/-- Rings of a context are disabled (R373): Open ones drain, Faulted and Recap ones close at once, the control
ring after the others. -/
def State.disableRings (s : State) (k : Ctx) : State :=
  let mine := s.rings.filter fun g => g.1 / 4096 == k.1
  let s := s.each mine fun g s =>
    let r : RingNo := ⟨g.1 % 4096, Nat.mod_lt _ (by omega)⟩
    match g.2.st with
    | .opened => s.setRing k r { g.2 with st := .draining, pend := false }
    | .faulted | .recap => s.setRing k r (if r = 0 then { g.2 with st := .draining, pend := false } else Ring.closed)
    | _ => s
  s.each mine fun g s => s.drainRing k ⟨g.1 % 4096, Nat.mod_lt _ (by omega)⟩

/-- The one completion of an item (R381): it leaves the journal, LAST_SEQ names it, and its packet is written. -/
def State.complete (s : State) (p : Pkt) (status code : Byte) (res0 : Word) (res1 : DWord) (pay : List Byte) : State :=
  let s := { s with items := eraseFirst (samePkt p) s.items }.mark p 2
  let s := s.modRing p.ctx p.ring fun g => { g with lastSeq := p.hdr.seq }
  let s := s.post { OutPkt.blank p.ctx p.ring 0x80 with
    status := status, seq := p.hdr.seq, tag := p.hdr.tag, code := code, ptype := p.hdr.type, res0 := res0,
    res1 := res1, pay := pay }
  s.drainRing p.ctx p.ring

/-- OK with nothing in RES0, RES1 and payload. -/
def State.ok (s : State) (p : Pkt) : State := s.complete p stOk 0 0 0 []
/-- FAILED with a code. -/
def State.failed (s : State) (p : Pkt) (code : Byte) : State := s.complete p stFailed code 0 0 []

end Sys2Proof.Machine
end

