-- ==== Sys2Proof/Machine/Events.lean ====
section
/-! DEFINITION. The event fabric (16.2, 16.3): delivery of a raised event under the source's EVCFG, coalescing, holding,
groups kept on a die, the events of channels, clusters and regions with their s.evt bits (R253), and violations. -/

namespace Sys2Proof.Machine

/-- Payload of a coalesced event packet (Table 16-8). -/
def foldPay (f : Fold) : List Byte := leBytes 4 f.n ++ leBytes 4 0 ++ leBytes 8 f.first ++ List.replicate 16 0

/-- An event packet for one ring (R389, R387): SEQ counts the context's event packets, this one included. -/
def State.evPkt (s : State) (n : Src) (h : HeldEv) : OutPkt :=
  { OutPkt.blank h.ctx h.ring 0x84 with
    seq := wd (s.evSeq.get h.ctx + 1), tag := wd (n.1 + at_ h.fold.ev.code.toNat 16), res0 := h.fold.ev.detail,
    res1 := BitVec.ofNat 64 h.fold.ev.tick, pay := if h.coal then foldPay h.fold else [] }

/-- The vector of a source: 32k + VEC of its owner (Table 16-6). -/
def State.srcVec (s : State) (n : Src) : Nat := 32 * (s.srcOwner n).1 + fld (s.ev.get n).cfg 24 5

/-- Write an event packet, hold it while its ring has no room, or discard it when its ring is not Open (R414). -/
def State.writeEv (s : State) (n : Src) (h : HeldEv) : State :=
  if (s.ring h.ctx h.ring).st != .opened then
    { s with evLost := satAdd 0xFFFFFFFF s.evLost 1 }
  else if s.canWrite h.ctx h.ring (if h.coal then 2 else 1) then
    let s' := s.writeOut (s.evPkt n h)
    let s' := { s' with evSeq := s'.evSeq.set h.ctx.1 (s'.evSeq.get h.ctx + 1) h.ctx.2 }
    if h.msi then s'.msix (s.srcVec n) else s'
  else
    let s := s.modEv n fun e => { e with held := e.held ++ [h] }
    { s with hub := { s.hub with pme := s.hub.pme || (s.hub.d3hot && (h.msi || (s.ring h.ctx h.ring).irqEn)) } }

/-- The rings a source's packet goes to: RING of the owner and, with BCAST on a hub source, ring 0 of every other open
context (R409, R411). -/
def State.evDest (s : State) (n : Src) : List (Ctx × RingNo) :=
  let cfg := (s.ev.get n).cfg
  let k := s.srcOwner n
  let r : RingNo := ⟨fld cfg 12 12, by unfold fld; omega⟩
  (k, r) :: if decide (912 ≤ n.1) && bit cfg 7 then
    ((List.finRange 64).filter fun j => (s.ctxs.get j).isOpen && j != k).map fun j => (j, 0) else []

/-- Send a packet of a source to all its rings; the vector follows the owner's copy (R411). With a window length set and
none open, the packet opens a window (R413). -/
def State.sendEv (s : State) (n : Src) (f : Fold) (coal msi : Bool) : State :=
  let k := s.srcOwner n
  let s := s.each (s.evDest n) fun d s =>
    s.writeEv n { ctx := d.1, ring := d.2, fold := f, coal := coal, msi := msi && d.1 == k }
  let co := fld (s.ev.get n).cfg 8 4
  if co ≠ 0 && (s.ev.get n).win == none then
    s.modEv n fun e => { e with win := some (s.tick + ticksPerUs * 2 ^ (co - 1)), fold := none }
  else s

/-- The end of a source's window (R413): nothing folded closes it; else one coalesced packet, which opens a new one. -/
def State.endWindow (s : State) (n : Src) : State :=
  let e := s.ev.get n
  let s := s.modEv n fun e => { e with win := none, fold := none }
  match e.fold with
  | some f => if bit e.cfg 30 then s.sendEv n f true false else s
  | none => s

/-- Fold an event into what is there (R413, R414): the header keeps the last event. -/
def Fold.add (f : Fold) (x : Ev) : Fold := { f with n := f.n + 1, ev := x }

/-- Fold into each waiting packet of a source; a packet that folds becomes a coalesced one (R414). -/
def State.foldHeld (s : State) (n : Src) (x : Ev) : State :=
  s.modEv n fun e => { e with held := e.held.map fun h => { h with fold := h.fold.add x, coal := true } }

/-- The packet part of R411 step 2 for one event: folded into a waiting packet, folded into an open window, or written
as a packet of its own. `msi` says that the vector falls due with this event. -/
def State.packEv (s : State) (n : Src) (x : Ev) (msi : Bool) : State :=
  let s := match (s.ev.get n).win with
    | some w => if w ≤ s.tick then s.endWindow n else s
    | none => s
  let e := s.ev.get n
  if !e.held.isEmpty then
    let s := s.foldHeld n x
    if msi then s.msix (s.srcVec n) else s
  else match e.win with
    | some _ =>
      let f := match e.fold with
        | some f => f.add x
        | none => { n := 1, first := x.tick, ev := x }
      let s := s.modEv n fun e => { e with fold := some f }
      if msi then s.msix (s.srcVec n) else s
    | none => s.sendEv n { n := 1, first := x.tick, ev := x } false msi

/-- Deliver an event of an enabled source (R411); a masked source delivers nothing (R412). -/
def State.deliver (s : State) (n : Src) (x : Ev) : State :=
  let e := s.ev.get n
  if !bit e.cfg 31 then s
  else
    let s := s.modEv n fun e => { e with occ := satAdd 0xFFFF e.occ 1, pend := true }
    let msi := !e.pend && bit e.cfg 29
    if bit e.cfg 30 then s.packEv n x msi
    else if msi then s.msix (s.srcVec n) else s

/-- Raise an event of tick `t` at a source (R411); on a die whose link is down the source keeps its first event and
counts the rest (R415). -/
def State.raiseAt (s : State) (n : Src) (code : Nat) (detail : Word) (t : Nat) : State :=
  let x : Ev := { code := BitVec.ofNat 16 code, detail := detail, tick := t }
  let down := match srcDie n with
    | some d => !(s.die.get d).linkUp
    | none => false
  if down then
    s.modEv n fun e => { e with grp := some (match e.grp with
      | some g => { g with n := g.n + 1 }
      | none => { n := 1, first := x.tick, ev := x }) }
  else s.deliver n x

/-- Raise an event at the present tick. -/
def State.raise (s : State) (n : Src) (code : Nat) (detail : Word) : State := s.raiseAt n code detail s.tick

/-- The group of a source judged when its die's link returns (R415). -/
def State.deliverGroup (s : State) (n : Src) : State :=
  match (s.ev.get n).grp with
  | none => s
  | some g =>
    let e := s.ev.get n
    let s := s.modEv n fun e => { e with grp := none }
    if !bit e.cfg 31 then s
    else if g.n ≤ 1 then s.deliver n g.ev
    else
      let s := s.modEv n fun e => { e with occ := satAdd 0xFFFF e.occ g.n, pend := true }
      let msi := !e.pend && bit e.cfg 29
      if bit e.cfg 30 then s.sendEv n g true msi
      else if msi then s.msix (s.srcVec n) else s

/-! ## Sources by element (Table 16-4) -/

/-- Source j of channel c. -/
def chSrc (c : Ch) (j : Fin 8) : Src := ⟨8 * c.1 + j.1, by omega⟩
/-- Source j of cluster n. -/
def clSrc (n : Cl) (j : Fin 8) : Src := ⟨768 + 8 * n.1 + j.1, by omega⟩
/-- Source j of region r. -/
def rgSrc (r : Rg) (j : Fin 8) : Src := ⟨864 + 8 * r.1 + j.1, by omega⟩
/-- Hub source h. -/
def hubSrc (h : Fin 112) : Src := ⟨912 + h.1, by omega⟩

/-- Raise hub event h with its code (Table 16-5: code 0x0300 + h for h below 32). -/
def State.raiseHub (s : State) (h : Fin 112) (detail : Word) : State := s.raise (hubSrc h) (0x300 + h.1) detail

/-! ## s.evt (R253) -/

/-- Set bit b of a thread's s.evt in tick `now` of its die; a WAIT.EVT on that bit has its condition met then (R264,
Table 9-11). -/
def State.latchEvtAt (s : State) (t : Thr) (b now : Nat) : State :=
  s.modTh t fun h =>
    let m : Word := wd (2 ^ b)
    let h' := { h with evt := h.evt ||| m }
    match h.wait with
    | some w => match w.kind with
      | .evt mask _ =>
        if w.hit == none && (h.evt &&& mask) == 0 && (m &&& mask) != 0 then
          { h' with wait := some { w with hit := some (now + 1) } }
        else h'
      | _ => h'
    | none => h'

/-- The same in the present tick. -/
def State.latchEvt (s : State) (t : Thr) (b : Nat) : State := s.latchEvtAt t b (s.dt (dieOfCl t.cl))

/-- A hub event reaches the s.evt of every powered cluster over the sync wires, 8 ticks after it was raised (R253). -/
def State.latchAll (s : State) (b : Nat) : State :=
  s.each (List.finRange 12) fun n s =>
    if (s.rg (rgOfCl n)).on then s.each (thrsOf n) fun t s => s.latchEvtAt t b (s.dt (dieOfCl t.cl) + 8) else s

/-- An event of a region reaches the s.evt of its clusters. -/
def State.latchRg (s : State) (r : Rg) (b : Nat) : State :=
  s.each (clsOfRg r) fun n s => s.each (thrsOf n) fun t s => s.latchEvt t b

/-- The channel events of Tables 9-5 and 16-4. -/
inductive ChEv where
  | stateChange | restarted | deferredCancelled | stimFrozen | trip | cmpWatch | xover | injRes | injDrop | genMark
  | genDone | starved | recClosed | capDone | calDone | progEvt | threadFault | queueIntegrity
deriving DecidableEq, Repr

/-- Bit of s.evt, source of the channel and code. -/
def ChEv.parts : ChEv → Option Nat × Fin 8 × Nat
  | .stateChange => (some 0, 0, 0x01)
  | .restarted => (some 11, 0, 0x02)
  | .deferredCancelled => (some 12, 0, 0x03)
  | .stimFrozen => (some 13, 0, 0x04)
  | .trip => (some 1, 1, 0x08)
  | .cmpWatch => (some 2, 1, 0x09)
  | .xover => (some 3, 2, 0x10)
  | .injRes => (some 4, 3, 0x18)
  | .injDrop => (some 5, 3, 0x19)
  | .genMark => (some 8, 4, 0x20)
  | .genDone => (some 9, 4, 0x21)
  | .starved => (some 10, 4, 0x22)
  | .recClosed => (some 6, 5, 0x28)
  | .capDone => (some 7, 5, 0x29)
  | .calDone => (some 14, 6, 0x30)
  | .progEvt => (none, 7, 0x38)
  | .threadFault => (none, 7, 0x39)
  | .queueIntegrity => (none, 7, 0x3A)

/-- Raise a channel event of tick `t` of its die: s.evt of the serving thread, then the fabric. -/
def State.chEvAt (s : State) (c : Ch) (e : ChEv) (detail : Word) (t : Nat) : State :=
  let hub := s.tick + (t - s.now c)
  let s := match e.parts.1 with
    | some b => s.latchEvtAt (thOf c) b t
    | none => s
  s.raiseAt (chSrc c e.parts.2.1) e.parts.2.2 detail hub

/-- Raise a channel event in the present tick. -/
def State.chEv (s : State) (c : Ch) (e : ChEv) (detail : Word) : State := s.chEvAt c e detail (s.now c)

/-! ## Violations (R390-R393) -/

/-- Write the violation log entry, raise VIOLATION_LOGGED and count it against the context (R390, R393). -/
def State.logViol (s : State) (k : Option Ctx) (r : RingNo) (cause : Byte) (value detail : Word) : State :=
  let e : VEntry :=
    { tick := BitVec.ofNat 32 s.tick, value := value, detail := detail, cause := cause,
      ctx := match k with
        | some k => BitVec.ofNat 7 k.1
        | none => 127
      ring := BitVec.ofNat 12 r.1 }
  let s := { s with
    vlog := if s.vlogHead < s.vlog.length then s.vlog.set s.vlogHead e else s.vlog ++ [e]
    vlogHead := (s.vlogHead + 1) % 256
    vlogTotal := satAdd 0xFFFFFFFF s.vlogTotal 1 }
  let s := match k with
    | some k => s.modCtx k fun c => { c with viol := satAdd 0xFFFF c.viol 1 }
    | none => s
  s.raiseHub 13 (wd s.vlogTotal)

/-- A packet's violation: logged with SEQ in DETAIL and answered on its own completion ring (R390). `seen` says that its
header was read. -/
def State.violPkt (s : State) (k : Ctx) (r : RingNo) (h : Hdr) (seen : Bool) (cause : Byte) (res0 res1 : Word) : State :=
  let s := s.logViol (some k) r cause res1 (if seen then h.seq else 0)
  s.post { OutPkt.blank k r 0x81 with
    seq := if seen then h.seq else 0, tag := if seen then h.tag else 0, ptype := if seen then h.type else 0,
    code := cause, res0 := res0, res1 := res1.setWidth 64 }

/-- A doorbell or register violation: logged with RES0 in DETAIL and, while the context's control ring is Open, answered
there (R365, R366). -/
def State.violBell (s : State) (k : Ctx) (r : RingNo) (cause : Byte) (res0 res1 : Word) : State :=
  let s := s.logViol (some k) r cause res1 res0
  if (s.ring k 0).st == .opened then
    s.post { OutPkt.blank k 0 0x81 with
      about := BitVec.ofNat 16 r.1, code := cause, res0 := res0, res1 := res1.setWidth 64 }
  else s

end Sys2Proof.Machine
end

