-- ==== Sys2Proof/Machine/Pedigree.lean ====
section
/-! DEFINITION. Acquisition memory areas and windows (17.2), and the queue of events that wait for a Pedigree entry
(R454). -/

namespace Sys2Proof.Machine

/-- Capacity in use, in bytes: none before training has ended (R420, Table 17-8). -/
def State.memCap (s : State) : Nat := if s.mem.present && s.mem.trained then fld s.mem.org 0 8 * 2 ^ 30 else 0
/-- End of the usable area: C - 64 MiB (R422). -/
def State.usable (s : State) : Nat := s.memCap - 2 ^ 26
/-- The window of a context: base and end addresses (R423, Table 17-9). -/
def State.window (s : State) (k : Ctx) : Nat × Nat :=
  let b := (s.mem.winBase.get k).toNat * 4096
  (b, b + (s.mem.winSize.get k).toNat * 4096)
/-- Bytes [a, a + n) lie inside the usable area and the window of context k (R423). -/
def State.inWindow (s : State) (k : Ctx) (a n : Nat) : Bool :=
  let w := s.window k
  decide (w.1 ≤ a) && decide (a + n ≤ w.2) && decide (a + n ≤ s.usable)

/-- The order of appending: arrival, then KIND, then logical channel (0-95) and region (96 + r) (R454). -/
def pedOrder (p : PedEv) : Nat := p.came * 2 ^ 16 + p.kind.toNat * 2 ^ 8 + p.lch

/-- Put an event in the queue for its Pedigree entry, in the order of R454. -/
def pedInsert (p : PedEv) : List PedEv → List PedEv
  | [] => [p]
  | q :: l => if pedOrder p < pedOrder q then p :: q :: l else q :: pedInsert p l

/-- A body of 96 bytes: bytes that a kind does not name are 0 (R452). -/
def pedBody (b : List Byte) : List Byte := (b ++ List.replicate 96 0).take 96

/-- An event with TICK `t` reaches the security core and waits for its entry (R454). -/
def State.pedQueueAt (s : State) (kind : Byte) (lch : Nat) (body : List Byte) (after : PedAfter) (t : Nat) : State :=
  let p : PedEv :=
    { kind := kind, lch := lch, came := s.tick, tick := t, calGen := s.calGen, fwGen := s.fw.gen, body := pedBody body, after := after }
  { s with ped := { s.ped with wait := pedInsert p s.ped.wait } }

/-- The same with the present tick. -/
def State.pedQueue (s : State) (kind : Byte) (lch : Nat) (body : List Byte) (after : PedAfter) : State :=
  s.pedQueueAt kind lch body after s.tick

/-! ## Pair items (R453) -/

/-- Place of a triple in the pairs of a physical channel, in the order of R460: converter, input, range code. -/
def tripleIdx (b isI : Bool) (rc : BitVec 3) : Fin 32 := ⟨16 * (b1 b) + 8 * (b1 isI) + rc.toNat, by
  have := rc.isLt; unfold b1; split <;> split <;> omega⟩

/-- Bytes 0x00-0x0F of a pair item (Table 18-6). -/
def pairHead (pch : Nat) (i : Fin 32) (ofs : Int) (gain gen : Nat) : List Byte :=
  leBytes 1 pch ++ leBytes 1 (i.1 / 16 + at_ (i.1 / 8 % 2) 1 + at_ (i.1 % 8) 2) ++ leBytes 2 0
    ++ leBytes 4 (ifld 32 ofs) ++ leBytes 4 gain ++ leBytes 4 gen

/-- TAG of a pair item: the first 16 bytes of HMAC-SHA-256 under the pair key (R453). -/
def pairTag (head : List Byte) : List Byte := (digBytes (hmac256 Config.pairKey head)).take 16

/-- A pair item. -/
def pairItem (pch : Nat) (i : Fin 32) (ofs : Int) (gain gen : Nat) : List Byte :=
  let h := pairHead pch i ofs gain gen
  h ++ pairTag h

end Sys2Proof.Machine
end

