-- ==== Sys2Proof/Machine/MemOps.lean ====
section
/-! DEFINITION. Acquisition memory accesses (17): capture rings, writes with the merge of R430, the error log and its
marks in open records. -/

namespace Sys2Proof.Machine

/-- Base address and size in bytes of the data ring (Table 8-5). -/
def State.dring (s : State) (c : Ch) : Nat × Nat := (fld (s.ctl c 0x46C) 0 25 * 4096, fld (s.ctl c 0x470) 0 25 * 4096)
/-- Base address and size in bytes of the side ring. -/
def State.sring (s : State) (c : Ch) : Nat × Nat := (fld (s.ctl c 0x474) 0 25 * 4096, fld (s.ctl c 0x478) 0 25 * 4096)
/-- A ring lies wholly inside the window of the channel's owner and the usable area (R423). -/
def State.ringOk (s : State) (c : Ch) (r : Nat × Nat) : Bool := decide (0 < r.2) && s.inWindow (s.owner.get c) r.1 r.2

/-- Store bytes in a ring at a running total, wrapping at its end. -/
def ringPut (m : Memory) (base size tot : Nat) : List Byte → Memory
  | [] => m
  | b :: bs => ringPut (memSetByte m (base + tot % max 1 size) b) base size (tot + 1) bs

/-- Address a is one of the n bytes from running total tot on of a ring. -/
def inRing (base size tot n a : Nat) : Bool :=
  decide (base ≤ a) && decide (a < base + size) && decide ((a - base + size - tot % max 1 size) % max 1 size < n)

/-- The aligned 64-byte block b meets those bytes. -/
def blockIn (base size tot n b : Nat) : Bool := (List.range 64).any fun j => inRing base size tot n (64 * b + j)

/-- The sub-channel of a byte address: bits 9:8 XOR bits 17:16 (R421). -/
def subChan (a : Nat) : Fin 4 := ⟨(a / 2 ^ 8 % 4) ^^^ (a / 2 ^ 16 % 4), by
  have h1 : a / 2 ^ 8 % 4 < 2 ^ 2 := by omega
  have h2 : a / 2 ^ 16 % 4 < 2 ^ 2 := by omega
  exact Nat.xor_lt_two_pow h1 h2⟩

/-- A record's bytes in the data ring, or its side items so far, meet block b. -/
def State.recHas (s : State) (c : Ch) (r : Rec) (b : Nat) : Bool :=
  let d := s.dring c
  let e := s.sring c
  blockIn d.1 d.2 r.addr r.area b || blockIn e.1 e.2 r.sideFrom ((s.ch c).cap.swTot - r.sideFrom) b

/-- An uncorrectable error is logged, counted and raised as MEM_UE; the records still open that hold its block take
DRAM_UE (R430, R433, Table 17-10). -/
def State.logUe (s : State) (finder lch b : Nat) : State :=
  let h := s.mem.ueHead % 16
  let sub := subChan (64 * b)
  let e : UeEntry := { tick := wd s.tick, finder := BitVec.ofNat 8 finder, lch := BitVec.ofNat 8 lch, block := b }
  let s := { s with mem := { s.mem with
    ueLog := s.mem.ueLog.set h e (by omega), ueHead := (h + 1) % 16
    ue := s.mem.ue.set sub.1 (satAdd 0xFFFF (s.mem.ue.get sub) 1) sub.2 } }
  let mark := fun (c : Ch) (r : Rec) => if s.recHas c r b then { r with flags := r.flags ||| 16 } else r
  let s := { s with chan := Vector.ofFn fun c => { s.ch c with cap := { (s.ch c).cap with
    cur := (s.ch c).cap.cur.map (mark c), closing := (s.ch c).cap.closing.map (mark c) } } }
  s.raiseHub 32 (wd (h + at_ sub.1 8))

/-- Write bytes to a ring of acquisition memory for channel `lch`. A whole block written is good again; of a block in error
written in part, the other bytes become 0, the block is good again, and the error is logged with finder RMW (R430). -/
def State.acqPut (s : State) (lch base size tot : Nat) (bs : List Byte) : State :=
  let hit := s.mem.bad.filter (blockIn base size tot bs.length)
  let m := ringPut s.acq base size tot bs
  let s := { s with acq := m }
  if hit.isEmpty then s
  else
    let s := { s with mem := { s.mem with bad := s.mem.bad.filter fun b => !hit.contains b } }
    s.each hit fun b s =>
      let rest := (List.range 64).filter fun j => !inRing base size tot bs.length (64 * b + j)
      if rest.isEmpty then s
      else { s with acq := rest.foldl (fun m j => memSetByte m (64 * b + j) 0) s.acq }.logUe 6 lch b

/-- Write bytes at a byte address of acquisition memory. -/
def State.acqWrite (s : State) (lch a : Nat) (bs : List Byte) : State := s.acqPut lch 0 (2 ^ 37) a bs

/-- The first block in error among the n bytes from running total tot on of a ring, in their order, with the offset of its
first byte met. -/
def State.firstBad (s : State) (base size tot n : Nat) : Option (Nat × Nat) :=
  if s.mem.bad.isEmpty then none
  else ((List.range n).find? fun i => s.mem.bad.contains ((base + (tot + i) % max 1 size) / 64)).map fun i =>
    ((base + (tot + i) % max 1 size) / 64, i)

/-- A request of the host's class: the DDR clock runs, self-refresh has ended, and the time is kept (R473). -/
def State.touchMem (s : State) : State :=
  if s.mem.trained then { s with mem := { s.mem with ddrClk := true, selfRef := false, lastUse := s.tick } } else s

end Sys2Proof.Machine
end

