-- ==== Sys2Proof/Machine/Modes.lean ====
section
/-! DEFINITION. The mode word and what it resolves to (02), when the stimulus runs, and loop-period boundaries (R143). -/

namespace Sys2Proof.Machine

/-- FV (Table 2-1). -/
def mFV (m : BitVec 8) : Bool := bit m 0
/-- FI. -/
def mFI (m : BitVec 8) : Bool := bit m 1
/-- LIST. -/
def mLIST (m : BitVec 8) : Bool := bit m 2
/-- DDS. -/
def mDDS (m : BitVec 8) : Bool := bit m 3
/-- PULSE. -/
def mPULSE (m : BitVec 8) : Bool := bit m 4
/-- HYST. -/
def mHYST (m : BitVec 8) : Bool := bit m 5
/-- CAPT. -/
def mCAPT (m : BitVec 8) : Bool := bit m 6
/-- STRM. -/
def mSTRM (m : BitVec 8) : Bool := bit m 7
/-- A force flag is set (R43). -/
def mForce (m : BitVec 8) : Bool := mFV m || mFI m
/-- Crossover (Table 2-2). -/
def mXover (m : BitVec 8) : Bool := mFV m && mFI m
/-- DRY_RUN of R52. -/
def mDry (m : BitVec 8) : Bool := !mForce m && (mLIST m || mDDS m || mPULSE m)
/-- The force group of a word. -/
def forceBits (m : BitVec 8) : BitVec 8 := m &&& 3

/-- STATE code (Table 2-4). -/
def ChSt.code : ChSt → Nat
  | .off => 0
  | .parked => 1
  | .heel => 2
  | .run => 3
  | .held => 4
  | .tripped => 5
  | .draining => 6

/-- The loop is closed: Heel, or Run with a force flag set (Table 2-5). -/
def Channel.closed (c : Channel) : Bool := c.st == .heel || (c.st == .run && mForce c.mode)

/-- The stimulus runs: Run or Held, dry run included, with no stimulus freeze (Tables 1-2, 2-5); after T4 from the next
loop period on (R164). -/
def Channel.stimRuns (c : Channel) : Bool := (c.st == .run || c.st == .held) && !c.frozen && c.stimAt.isNone

/-- D, the sample periods of a loop period (R143). -/
def Channel.D (c : Channel) : Nat := (c.coef.get 64).toNat + 1

/-- Sample boundary k is a loop-period boundary (R143). -/
def Channel.isLoopIdx (c : Channel) (k : Nat) : Bool := decide (c.loop.mark ≤ k) && (k - c.loop.mark) % c.D == 0

/-- Index of the first loop-period boundary at or after sample boundary k. -/
def Channel.loopIdxFrom (c : Channel) (k : Nat) : Nat :=
  if k ≤ c.loop.mark then c.loop.mark else c.loop.mark + ceilDiv (k - c.loop.mark) c.D * c.D

/-- Index of the first sample boundary at or after tick t. -/
def State.idxAt (s : State) (c : Ch) (t : Nat) : Nat :=
  let k := s.sIdx c t
  if s.sTick c k = t then k else k + 1

/-- The first loop-period boundary at or after tick t. -/
def State.loopFrom (s : State) (c : Ch) (t : Nat) : Nat := s.sTick c ((s.ch c).loopIdxFrom (s.idxAt c t))

/-- The first loop-period boundary after tick t. -/
def State.loopAfter (s : State) (c : Ch) (t : Nat) : Nat := s.loopFrom c (t + 1)

/-- Tick t is a loop-period boundary of the channel. -/
def State.isLoopB (s : State) (c : Ch) (t : Nat) : Bool := s.loopFrom c t == t

/-- Change the state of a channel at tick t and raise STATE_CHANGE with the new and the old STATE (R55, Table 16-4). -/
def State.setSt (s : State) (c : Ch) (x : ChSt) (t : Nat) : State :=
  let old := (s.ch c).st
  if old = x then s
  else (s.modCh c fun h => { h with st := x }).chEvAt c .stateChange (wd (x.code + at_ old.code 4)) t

/-- Set bits of LSTAT's sticky flags (R162). -/
def LoopSt.stick (l : LoopSt) (b : Nat) (on : Bool) : LoopSt := if on then { l with sticky := l.sticky ||| wd (2 ^ b) } else l

/-- Count a closed-loop reject (R60, Table 5-5). -/
def Channel.reject (c : Channel) : Channel := { c with loop := { c.loop with rejCount := satAdd 0xFFFF c.loop.rejCount 1 } }

end Sys2Proof.Machine
end

