-- ==== Sys2Proof/Machine/Cap.lean ====
section
/-! DEFINITION. The capture unit (08.4-08.7): rings, records and stream chunks, lane slots, side items, measurement sets,
closing and the final header. -/

namespace Sys2Proof.Machine

/-- Change the capture unit of a channel. -/
def State.modCap (s : State) (c : Ch) (f : CapSt → CapSt) : State := s.modCh c fun h => { h with cap := f h.cap }
/-- Set a sticky bit of CAPSTAT (Table 8-6). -/
def CapSt.stick (k : CapSt) (b : Nat) : CapSt := { k with sticky := k.sticky ||| wd (2 ^ b) }

/-- Round up to a multiple of 64. -/
def ceil64 (n : Nat) : Nat := ceilDiv n 64 * 64

/-- The largest data area of a record of L sample periods (R229). -/
def maxArea (L : Nat) : Nat := 512 + 2 * ceil64 (2 * L)

/-- Converter configuration bits (Table 4-3). -/
def ConvCfg.ilv (c : ConvCfg) : Bool := bit c.mcfg 23
/-- LP. -/
def ConvCfg.lp (c : ConvCfg) : Bool := bit c.mcfg 24
/-- STYLE B. -/
def ConvCfg.styleB (c : ConvCfg) : Bool := bit c.mcfg 0
/-- SEQ_LEN. -/
def ConvCfg.seqLen (c : ConvCfg) : Nat := fld c.mcfg 4 4
/-- INJ_LEN. -/
def ConvCfg.injLen (c : ConvCfg) : Nat := fld c.mcfg 10 2
/-- PDN. -/
def ConvCfg.pdn (c : ConvCfg) : Bool := bit c.mcfg 25

/-- A converter of a channel. -/
def Channel.conv (h : Channel) : Conv → ConvSt
  | .a => h.convA
  | .b => h.convB

/-- Interleave in force. -/
def Channel.ilv (h : Channel) : Bool := h.convA.cfg.ilv

/-- Sampling instants of a converter with slots at boundaries k0 .. k0 + n - 1: all, or under LP every fourth from the
boundary `mark` where its SEQ took effect (R123, R229). -/
def slotCount (cfg : ConvCfg) (mark k0 n : Nat) : Nat :=
  if cfg.lp then (List.range 4).foldl (fun a j => a + if (k0 + j) % 4 = mark % 4 ∧ j < n then (n - j + 3) / 4 else 0) 0
  else n

/-- Slots of lanes A and B of n sample periods from boundary k0 (R229). -/
def laneSlots (a b : ConvCfg) (ma mb k0 n : Nat) : Nat × Nat :=
  if a.ilv then (2 * n, 0) else (slotCount a ma k0 n, slotCount b mb k0 n)

/-- The same for the configuration in force. -/
def Channel.lanes (h : Channel) (k0 n : Nat) : Nat × Nat :=
  laneSlots h.convA.cfg h.convB.cfg h.convA.mark h.convB.mark k0 n

/-- The same for a record, by the configuration that it opened under. -/
def Rec.lanes (r : Rec) (k0 n : Nat) : Nat × Nat := laneSlots r.cfgA r.cfgB r.markA r.markB k0 n

/-- The lane and the slot index of a sample at boundary k in a record from boundary k0. -/
def Rec.slotOf (r : Rec) (v : Conv) (k0 k : Nat) : Bool × Nat :=
  if r.cfgA.ilv then (false, 2 * (k - k0) + (if v = .b then 1 else 0))
  else match v with
    | .a => (false, slotCount r.cfgA r.markA k0 (k - k0))
    | .b => (true, slotCount r.cfgB r.markB k0 (k - k0))

/-! ## Measurement sets (R235, R236) -/

/-- A set before its first sample. -/
def MeasSet.empty : MeasSet :=
  { n := 0, min := 0, max := 0, sum := 0, sumsq := 0, cross := 0, tFirst := 0, tLast := 0, det := .unknown, y0 := 0,
    t0 := 0, sat := false }

/-- A counted sample enters a set (R235) and its crossing detector (R236). -/
def MeasSet.add (m : MeasSet) (xl : Int) (xh : Nat) (y : Int) (ts : Nat) (sat : Bool) : MeasSet :=
  let m1 := { m with
    n := m.n + 1, min := if m.n = 0 ∨ y < m.min then y else m.min, max := if m.n = 0 ∨ m.max < y then y else m.max,
    sum := m.sum + y, sumsq := m.sumsq + y.natAbs * y.natAbs, sat := m.sat || sat, y0 := y, t0 := ts }
  match m.det with
  | .unknown => { m1 with det := if xl ≤ y then .high else .low }
  | .high => if y < xl - 16 * xh then { m1 with det := .low } else m1
  | .low =>
    if xl ≤ y then
      let tx := 256 * m.t0 + ((256 * (xl - m.y0) * ((ts : Int) - m.t0)).fdiv (y - m.y0)).toNat
      { m1 with det := .high, cross := m.cross + 1, tFirst := if m.cross = 0 then tx else m.tFirst, tLast := tx }
    else m1

/-- A sample that is not counted returns the detector to unknown (R236). -/
def MeasSet.skip (m : MeasSet) : MeasSet := { m with det := .unknown }

/-- rnd(a, m) of R128. -/
def rnd (a : Int) (m : Nat) : Int := (2 * a + m).fdiv (2 * m)

/-- The 64 bytes of a set (Table 8-11). -/
def MeasSet.bytes (m : MeasSet) : List Byte :=
  if m.n = 0 then List.replicate 48 0 ++ leBytes 4 3 ++ List.replicate 12 0
  else
    let per := if 2 ≤ m.cross then (m.tLast - m.tFirst) / (m.cross - 1) else 0
    let freq := if per = 0 then 0 else (2 * 128000000000000000 + per) / (2 * per)
    let nv := m.n * m.sumsq
    let sq := m.sum.natAbs * m.sum.natAbs
    let fl := (if m.cross < 2 then 2 else 0) + if m.sat then 4 else 0
    -- floor(sqrt(a/b) + 1/2) = floor((isqrt(4a/b) + 1) / 2)
    let rt := fun (a b : Nat) => (isqrt (4 * a / b) + 1) / 2
    leBytes 4 m.n ++ leBytes 4 (ifld 32 m.min) ++ leBytes 4 (ifld 32 m.max) ++ leBytes 4 (ifld 32 (rnd m.sum m.n))
      ++ leBytes 4 (rt m.sumsq m.n) ++ leBytes 4 (ifld 32 (m.max - m.min)) ++ leBytes 4 (rt (2 * (nv - sq)) (m.n * m.n))
      ++ leBytes 4 m.cross ++ leBytes 8 per ++ leBytes 8 freq ++ leBytes 4 fl ++ List.replicate 12 0

/-! ## Side items (R232, R233) -/

/-- A 16-byte side item from its four words. -/
def sideItem (w0 w1 w2 w3 : Nat) : List Byte := leBytes 4 w0 ++ leBytes 4 w1 ++ leBytes 4 w2 ++ leBytes 4 w3

/-- Free bytes of the side ring. -/
def State.sideRoom (s : State) (c : Ch) : Nat :=
  let r := s.sring c
  if s.ringOk c r then r.2 - ((s.ch c).cap.swTot - (s.ch c).cap.sfTot) else 0

/-- Append bytes to the side ring. -/
def State.sideWrite (s : State) (c : Ch) (bs : List Byte) : State :=
  let r := s.sring c
  let k := (s.ch c).cap
  (s.acqPut c.1 r.1 r.2 k.swTot bs).modCap c fun k => { k with swTot := k.swTot + bs.length }

/-- A record with sequence number q takes side bytes into its count and hash, or marks their loss. -/
def Rec.takeSide (r : Rec) (q : Nat) (bs : List Byte) (lost : Bool) : Rec :=
  if r.seq ≠ q then r
  else if lost then { r with flags := r.flags ||| 8 }
  else { r with side := r.side ++ bs, sideN := r.sideN + bs.length / 16 }

/-- Apply to the open and the closing records. -/
def CapSt.mapRecs (k : CapSt) (f : Rec → Rec) : CapSt := { k with cur := k.cur.map f, closing := k.closing.map f }

/-- Write side items that belong together, for record `q` (0: none); a SIDE_LOST item goes first when items were lost
and there is room for both; without room they are lost (R232, R233). -/
def State.side (s : State) (c : Ch) (q : Nat) (bs : List Byte) : State :=
  let k := (s.ch c).cap
  let extra := if 0 < k.sideLost then 16 else 0
  if extra + bs.length ≤ s.sideRoom c then
    let s := if 0 < k.sideLost then
        let li := sideItem 0x0B q k.sideLost 0
        (s.sideWrite c li).modCap c fun k => { k.mapRecs (·.takeSide q li false) with sideLost := 0 }
      else s
    (s.sideWrite c bs).modCap c fun k => k.mapRecs (·.takeSide q bs false)
  else
    s.modCap c fun k =>
      ({ k with sideLost := k.sideLost + bs.length / 16 }.stick 19).mapRecs (·.takeSide q bs true)

/-- The five items of a measurement set of mark `no`: MEAS and four MEASD (Table 8-10). -/
def measItems (q no : Nat) (setB : Bool) (m : MeasSet) : List Byte :=
  sideItem (0x09 + at_ (b1 setB) 16) q no 0 ++ m.bytes

/-! ## Records -/

/-- The sum-free tag of a lane: slots so far, newest first. -/
def Rec.slots (r : Rec) (b : Bool) : List (BitVec 16) := if b then r.slotsB else r.slotsA

/-- Append slots to a lane. -/
def Rec.push (r : Rec) (b : Bool) (l : List (BitVec 16)) : Rec :=
  if b then { r with slotsB := l ++ r.slotsB } else { r with slotsA := l ++ r.slotsA }

/-- Entry of set A or B and its crossing level and hysteresis (MEASCFG, XLEVEL). -/
def State.measCfg (s : State) (c : Ch) (b : Bool) : Nat × Int × Nat :=
  let w := s.ctl c 0x460
  (if b then fld w 28 4 else fld w 24 4, sfld (s.ctl c (if b then 0x468 else 0x464)) 0 24, fld w 0 16)

/-- A sample enters the measurement sets of a span (R235, R236). Under ILV set A covers the pair's entry 0. -/
def State.measTake (s : State) (c : Ch) (p : Samp) (ab : MeasSet × MeasSet) : MeasSet × MeasSet :=
  let setB := p.conv == .b && !p.ilv
  let cfg := s.measCfg c setB
  let named := if p.ilv then true else p.ent == cfg.1
  let upd := fun (m : MeasSet) =>
    if !named && !p.inj then m
    else if p.inj || p.rng then m.skip
    else m.add cfg.2.1 cfg.2.2 p.y p.ts p.sat
  if setB then (ab.1, upd ab.2) else (upd ab.1, ab.2)

/-- Sample boundary index of a tick at or after which the record's slots count: its first boundary. -/
def State.recK0 (s : State) (c : Ch) (r : Rec) : Nat := s.idxAt c r.first

/-- The open or closing record with sequence number q. -/
def CapSt.rec? (k : CapSt) (q : Nat) : Option Rec := (k.cur.toList ++ k.closing).find? fun r => r.seq == q

/-- Change the record with sequence number q. -/
def State.modRec (s : State) (c : Ch) (q : Nat) (f : Rec → Rec) : State :=
  s.modCap c fun k => k.mapRecs fun r => if r.seq = q then f r else r

/-- The run of fill slots of a lane. -/
def Rec.gap (r : Rec) (b : Bool) : Option (Nat × Nat × Nat) := if b then r.gapB else r.gapA
/-- Set it. -/
def Rec.setGap (r : Rec) (b : Bool) (g : Option (Nat × Nat × Nat)) : Rec := if b then { r with gapB := g } else { r with gapA := g }
/-- The RANGING run of a lane. -/
def Rec.rng (r : Rec) (b : Bool) : Option (Nat × BitVec 3) := if b then r.rngB else r.rngA
/-- Set it. -/
def Rec.setRng (r : Rec) (b : Bool) (g : Option (Nat × BitVec 3)) : Rec := if b then { r with rngB := g } else { r with rngA := g }

/-- The GAP item of a lane's run of fill slots is written (Table 8-10). -/
def State.flushGap (s : State) (c : Ch) (q : Nat) (b : Bool) : State :=
  match ((s.ch c).cap.rec? q).bind (·.gap b) with
  | some g => (s.side c q (sideItem (0x01 + at_ (b1 b) 8 + at_ g.2.2 16) q g.1 g.2.1)).modRec c q (·.setGap b none)
  | none => s

/-- The RANGING item of a lane's run is written, the run ending before slot i (R232). -/
def State.flushRng (s : State) (c : Ch) (q : Nat) (b : Bool) (i : Nat) : State :=
  match ((s.ch c).cap.rec? q).bind (·.rng b) with
  | some x => (s.side c q (sideItem (0x02 + at_ (b1 b) 8 + at_ x.2.toNat 16) q x.1 (i - x.1))).modRec c q (·.setRng b none)
  | none => s

/-- Slots of a lane below index i without a sample hold the fill code; they join the lane's run of fill slots of the same
cause, or begin a new one (R229, R232). Under ILV the slots of B lie between those of A (R122). -/
def State.gapTo (s : State) (c : Ch) (q : Nat) (b : Bool) (i cause : Nat) : State :=
  match (s.ch c).cap.rec? q with
  | none => s
  | some r =>
    let n := (r.slots b).length
    if i ≤ n then s
    else
      let m := i - n
      let ext := match r.gap b with
        | some g => g.2.2 == cause && (g.1 + g.2.1 == n || (r.cfgA.ilv && m == 1 && g.1 + 2 * g.2.1 == n))
        | none => false
      let s := if ext then s else s.flushGap c q b
      s.modRec c q fun r =>
        let r := r.push b (List.replicate m 0x8000)
        let r := if b then { r with mB := r.mB.skip } else { r with mA := r.mA.skip }
        r.setGap b (match r.gap b with
          | some g => some (g.1, g.2.1 + m, cause)
          | none => some (n, m, cause))

/-- The cause of a missing slot of converter v (Table 8-10): 1 the split period before an injected sequence, 2 a lost sample
clock, 3 a quiet converter powered down, else 0 an injected sequence. -/
def State.gapCause (s : State) (c : Ch) (v : Conv) (ts : Nat) : Nat :=
  let x := (s.ch c).conv v
  if x.lossCause = 2 then 2
  else match x.winj with
    | some r => if r.taken = 0 ∧ r.idx = 0 ∧ (s.ch c).ilv ∧ ts ≤ r.from_ then 1 else 0
    | none => if (s.physPos c).1 = 7 ∧ x.wcfg.pdn then 3 else 0

/-- A regular sample inside a record: its lane's missing slots are filled, its code takes its slot, RANGING runs are
followed, and the measurement sets take it (R134, R229, R232, R235). -/
def State.recSample (s : State) (c : Ch) (q : Nat) (p : Samp) : State :=
  match (s.ch c).cap.rec? q with
  | none => s
  | some r =>
    let ls := r.slotOf p.conv (s.recK0 c r) (s.sIdx c p.ts)
    let b := ls.1
    let v := if r.cfgA.ilv then .a else p.conv
    let s := s.gapTo c q b ls.2 (s.gapCause c v p.ts)
    let s := if r.cfgA.ilv && p.conv == .b then s else s.flushGap c q b
    let s := s.modRec c q fun r =>
      let r := r.push b [p.code]
      let ms := s.measTake c p (r.mA, r.mB)
      { r with
        mA := ms.1, mB := ms.2, range0 := if p.ts = r.first then p.rc else r.range0
        back := (s.now c, p.ts, r.mA, r.mB) :: r.back.takeWhile fun x => decide (s.now c < x.1 + 500) }
    let other := match r.rng b with
      | some x => !p.rng || x.2 != p.rc
      | none => false
    let s := if other then s.flushRng c q b ls.2 else s
    if p.rng then s.modRec c q fun r => r.setRng b (some ((r.rng b).getD (ls.2, p.rc))) else s

/-- The sample boundary whose period a sample belongs to; under ILV that of B lies half a period after it (R122). -/
def State.spanTick (s : State) (c : Ch) (p : Samp) : Nat := s.sTick c (s.sIdx c p.ts)

/-- A delivered sample meets the capture unit: every record or chunk whose span holds it, open marks, and the history for
pre-triggers (R134, R225, R238). Nothing reaches the hub over a die link that is down (R31). -/
def State.capSample (s : State) (c : Ch) (p : Samp) : State :=
  let k := (s.ch c).cap
  let b := s.spanTick c p
  let rs := (k.cur.toList ++ k.closing).filter fun r => decide (r.first ≤ b) && decide (b ≤ r.last)
  let s := if p.inj || !(s.die.get (dieOfCh c)).linkUp then s else s.each (rs.map (·.seq)) fun q s => s.recSample c q p
  s.modCap c fun k =>
    { k with
      marks := k.marks.map fun m =>
        if decide (m.first ≤ b) && decide (b ≤ m.last) then
          let ms := s.measTake c p (m.mA, m.mB)
          { m with mA := ms.1, mB := ms.2 }
        else m
      hist := if k.armed then (p :: k.hist).take (2 * (k.pre + 64)) else [] }

/-- Clock word of a header: P in bits 15:0, Q in bits 31:16 (Table 8-8). -/
def State.clkWord (s : State) (c : Ch) : Word := wd ((s.rg (rgOf c)).p + at_ (s.rg (rgOf c)).q 16)

/-- FLAGS of a record as it opens (Table 8-9). -/
def State.openFlags (s : State) (c : Ch) (stream : Bool) (lost : Nat) : Word :=
  wd ((if s.pack.formed then 1024 else 0) + (if (s.ch c).ilv then 512 else 0) + (if stream then 128 else 0)
    + (if s.pack.lost then 32 else 0) + if 0 < lost then 4 else 0)

/-- The hub tick of a tick of a channel's die. -/
def State.hubTick (s : State) (c : Ch) (t : Nat) : Nat := s.tick + t - s.now c

/-- The calibration generation in force at a hub tick (R332). -/
def State.calGenAt (s : State) (t : Nat) : Nat := s.calGen - (s.genAt.takeWhile fun a => decide (t < a)).length

/-- A record from boundary k0 of n sample periods, placed at the next 64-byte-aligned free address (R229). -/
def State.newRec (s : State) (c : Ch) (k0 n trig pre : Nat) (stream : Bool) : Rec :=
  let h := s.ch c
  let k := h.cap
  let la := h.lanes k0 n
  let ofsB := if h.ilv then 0 else 512 + ceil64 (2 * la.1)
  let lost := k.lostNew
  { seq := k.recSeq + 1, addr := ceil64 k.openTot, area := 512 + ceil64 (2 * la.1) + ceil64 (2 * la.2),
    first := s.sTick c k0, trig := trig, last := s.sTick c (k0 + n - 1), pre := pre, planM1 := n - 1, len := n,
    slotsA := [], slotsB := [], ofsB := ofsB, lost := lost, side := [], sideN := 0, sideFrom := k.swTot, calGen := s.calGenAt (s.hubTick c (s.sTick c k0)),
    chunk := k.chunkNo, stream := stream,
    chanW := wd (c.1 + at_ (s.physOf c).1 8 + at_ (fld s.pack.cfg 0 5) 16 + at_ h.mode.toNat 24),
    flags := s.openFlags c stream lost, cfgA := h.convA.cfg, cfgB := h.convB.cfg, markA := h.convA.mark, markB := h.convB.mark, range0 := BitVec.ofNat 3 h.act.1,
    clk := s.clkWord c, mA := .empty, mB := .empty, rngA := none, rngB := none,
    gapA := none, gapB := none, back := [] }

/-- The data ring has room for a data area, and lies where R423 allows (R225). -/
def State.dataRoom (s : State) (c : Ch) (n : Nat) : Bool :=
  let r := s.dring c
  let k := (s.ch c).cap
  s.ringOk c r && decide (ceil64 k.openTot + n - k.fTot ≤ r.2)

/-- The 512 bytes of a header (Table 8-8); `closed` gives the final one, with its hashes. -/
def State.header (s : State) (r : Rec) (closed : Bool) : List Byte :=
  let slotB := fun (l : List (BitVec 16)) => l.reverse.flatMap fun x => leBytes 2 x.toNat
  let ents := fun (v : ConvCfg) => v.ents.toList.flatMap fun x => leBytes 4 x.toNat
  let injs := fun (v : ConvCfg) => v.inj.toList.flatMap fun x => leBytes 4 x.toNat
  let hash := fun (l : List Byte) => if closed then digBytes (sha256 l) else List.replicate 32 0
  leBytes 4 0x31525351 ++ leBytes 4 (r.flags.toNat + b1 closed) ++ leBytes 4 r.seq ++ leBytes 4 r.chanW.toNat
    ++ leBytes 8 r.first ++ leBytes 8 r.trig ++ leBytes 8 (if closed then r.last else 0) ++ leBytes 4 r.pre
    ++ leBytes 4 (if closed then r.len else 0) ++ leBytes 4 r.planM1 ++ leBytes 4 r.clk.toNat
    ++ leBytes 4 r.slotsA.length ++ leBytes 4 r.slotsB.length ++ leBytes 4 0x200 ++ leBytes 4 r.ofsB
    ++ leBytes 4 r.lost ++ leBytes 4 r.sideN ++ leBytes 4 r.calGen ++ leBytes 4 s.fw.gen ++ leBytes 4 r.chunk
    ++ leBytes 4 (fld s.pack.cfg 16 8) ++ leBytes 4 r.cfgA.mcfg.toNat ++ leBytes 4 r.cfgB.mcfg.toNat
    ++ ents r.cfgA ++ ents r.cfgB ++ injs r.cfgA ++ injs r.cfgB ++ leBytes 4 r.range0.toNat ++ leBytes 4 0
    ++ (if closed then r.mA.bytes ++ r.mB.bytes else List.replicate 128 0)
    ++ hash (slotB r.slotsA ++ slotB r.slotsB) ++ hash r.side ++ List.replicate 48 0

/-- Put a record in the ring: its space reserved, its header written with CLOSED = 0, the write point after that header
(R229, R231, R386). Blocks in error there are written anew as the record is. -/
def State.placeRec (s : State) (c : Ch) (r : Rec) : State :=
  let d := s.dring c
  let s := { s with mem := { s.mem with bad := s.mem.bad.filter fun b => !blockIn d.1 d.2 r.addr r.area b } }
  (s.acqPut c.1 d.1 d.2 r.addr (s.header r false)).modCap c fun k =>
    { k with
      cur := some r, recSeq := r.seq, openTot := r.addr + r.area, lostNew := 0
      wTot := if k.closing.isEmpty then r.addr + 512 else k.wTot }

/-- Samples of the history that lie in the open record enter it, oldest first (R225). -/
def State.takeHist (s : State) (c : Ch) : State :=
  match (s.ch c).cap.cur with
  | none => s
  | some r =>
    s.each ((s.ch c).cap.hist.reverse.filter fun p =>
        decide (r.first ≤ s.spanTick c p) && decide (s.spanTick c p ≤ r.last) && !p.inj)
      fun p s => s.recSample c r.seq p

/-- A record or chunk reaches its end: it waits for its last results and its final header (R231); the next fill starts
after its last boundary (R226). -/
def State.endRec (s : State) (c : Ch) : State :=
  s.modCap c fun k => match k.cur with
    | some r =>
      let k := { k with cur := none, closing := k.closing ++ [r] }
      if r.stream then k else { k with latest := some r.last, fill := s.nextB c r.last }
    | none => k

/-- Close the open record or chunk at closing boundary `b` (R513): its last boundary is the one before. Flags are set,
and the space after its last written lane is freed (R228). -/
def State.cutRec (s : State) (c : Ch) (b : Nat) (fl : Word) : State :=
  match (s.ch c).cap.cur with
  | none => s
  | some r =>
    let k0 := s.recK0 c r
    let kb := s.idxAt c b
    if k0 + r.planM1 + 1 ≤ kb then s.endRec c
    else
      let n := kb - k0
      let la := r.lanes k0 n
      let fin := if r.ofsB = 0 || la.2 = 0 then 512 + ceil64 (2 * la.1) else r.ofsB + ceil64 (2 * la.2)
      let s := s.modCap c fun k =>
        { k with
          openTot := r.addr + fin
          cur := some { r with
            last := if n = 0 then r.first else s.sTick c (kb - 1), len := n, area := fin, flags := r.flags ||| fl } }
      if r.stream then s.endRec c else (s.endRec c).modCap c fun k => { k with fill := b }

/-- A stream closes at boundary `b`: its chunk TRUNCATED, open marks closed, LOSS of skipped chunks and the FINAL item
(R237, R238). -/
def State.closeStream (s : State) (c : Ch) (b : Nat) : State :=
  let k := (s.ch c).cap
  if !k.streaming then s
  else
    let q := match k.cur with
      | some r => r.seq
      | none => 0
    let last := s.sTick c (s.idxAt c b - 1)
    let s := s.each k.marks fun m s =>
      s.side c q (sideItem (0x07 + at_ (m.no % 65536) 16) q (last % 2 ^ 32) (last / 2 ^ 32)
        ++ measItems q m.no false m.mA ++ measItems q m.no true m.mB)
    let s := if k.cur.isNone && 0 < k.skipped then s.side c 0 (sideItem 0x0A 0 k.skipped k.skipSlots) else s
    let s := s.side c q (sideItem 0x08 q (last % 2 ^ 32) (last / 2 ^ 32))
    (s.cutRec c b 2).modCap c fun k =>
      let k := if k.marks.isEmpty then k else { k with latest := some last, fill := b }
      { k with streaming := false, marks := [], skipped := 0, skipSlots := 0 }

/-- CAPT removed, stimulus freeze or a drain's end: an open record closes TRUNCATED at boundary `b` (R59, R61, R513). -/
def State.truncRec (s : State) (c : Ch) (b : Nat) : State :=
  if (s.ch c).cap.streaming then s else s.cutRec c b 2

/-- ARMED clears; pre-trigger history goes. -/
def State.disarm (s : State) (c : Ch) : State := s.modCap c fun k => { k with armed := false, hist := [] }

/-- Entry to Parked or Off at boundary b: ARMED clears, an open record closes TRUNCATED, a stream closes (R228, R237). -/
def State.capPark (s : State) (c : Ch) (b : Nat) : State :=
  ((s.closeStream c b).truncRec c b).disarm c

/-- Slots of a chunk that is skipped, by the measure configuration in force. -/
def State.chunkSlots (s : State) (c : Ch) (k0 n : Nat) : Nat := let la := (s.ch c).lanes k0 n; la.1 + la.2

/-- The next chunk of a stream from boundary index k0: opened, or skipped for want of room (R237). -/
def State.openChunk (s : State) (c : Ch) (k0 : Nat) : State :=
  let n := (s.ch c).cap.chunkm1 + 1
  let r := s.newRec c k0 n (s.sTick c k0) 0 true
  let s := s.modCap c fun k => { k with chunkLast := s.sTick c (k0 + n - 1) }
  if s.dataRoom c r.area then
    let k := (s.ch c).cap
    let r := { r with flags := if 0 < k.skipped then r.flags ||| 4 else r.flags }
    let s := (s.placeRec c r).modCap c fun k => { k with chunkNo := k.chunkNo + 1 }
    let s := if 0 < k.skipped then s.side c r.seq (sideItem 0x0A r.seq k.skipped k.skipSlots) else s
    s.modCap c fun k => { k with skipped := 0, skipSlots := 0 }
  else
    let z := s.chunkSlots c k0 n
    s.modCap c fun k =>
      { k with
        chunkNo := k.chunkNo + 1, skipped := k.skipped + 1, skipSlots := k.skipSlots + z
        lost := satAdd 0xFFFFFFFF k.lost z, lostNew := satAdd 0xFFFFFFFF k.lostNew z }

/-- Capture runs in these states (Table 2-5). -/
def ChSt.captures : ChSt → Bool
  | .heel | .run | .held | .tripped | .draining => true
  | _ => false

/-- A stream opens at a loop-period boundary where STRM is in effect and capture runs, unless frozen (R237). -/
def State.streamCheck (s : State) (c : Ch) : State :=
  let h := s.ch c
  if mSTRM h.mode && h.st.captures && !h.frozen && !h.cap.streaming then
    (s.modCap c fun k => { k with streaming := true, chunkNo := 0, skipped := 0, skipSlots := 0 }).openChunk c
      (s.idxAt c (s.now c))
  else s

/-- The final header of the oldest closing record: lanes and header written, header hash queued for the Pedigree, ring
write point moved (R231, R386). -/
def State.finalize (s : State) (c : Ch) : State :=
  match (s.ch c).cap.closing with
  | [] => s
  | r0 :: rest =>
    let q := r0.seq
    let la := if r0.len = 0 then (0, 0) else r0.lanes (s.recK0 c r0) r0.len
    let s := s.gapTo c q false la.1 (s.gapCause c .a r0.last)
    let s := if r0.ofsB = 0 then s else s.gapTo c q true la.2 (s.gapCause c .b r0.last)
    let s := ((s.flushGap c q false).flushGap c q true)
    let s := (s.flushRng c q false la.1).flushRng c q true la.2
    let r := ((s.ch c).cap.rec? q).getD r0
    let d := s.dring c
    let hd := s.header r true
    let lanes := fun (l : List (BitVec 16)) => l.reverse.flatMap fun x => leBytes 2 x.toNat
    let m := ringPut s.acq d.1 d.2 r.addr hd
    let m := ringPut m d.1 d.2 (r.addr + 512) (lanes r.slotsA)
    let m := if r.ofsB = 0 then m else ringPut m d.1 d.2 (r.addr + r.ofsB) (lanes r.slotsB)
    let s := { s with acq := m }.modCap c fun k =>
      { k with
        closing := rest
        wTot := match rest with
          | q :: _ => q.addr + 512
          | [] => match k.cur with
            | some q => q.addr + 512
            | none => r.addr + r.area }
    s.pedQueue 0x10 c.1 (digBytes (sha256 hd) ++ leBytes 4 r.seq ++ leBytes 4 r.chanW.toNat
      ++ leBytes 8 (r.flags.toNat + 1) ++ leBytes 8 r.first ++ leBytes 8 r.last) (.record c r.seq)

end Sys2Proof.Machine
end

