-- ==== Sys2Proof/Machine/CalOps.lean ====
section
/-! DEFINITION. The running step of a region's calibration engine and the events that abandon or pre-empt it (12.3,
12.4, R329). -/

namespace Sys2Proof.Machine

/-- Place of a channel in its region. -/
def slotOf16 (c : Ch) : Nat := c.1 % 16

/-- The channel that a slot number 0-15 of a region names. -/
def slotCh (r : Rg) (k : Nat) : Ch := ⟨16 * r.1 + k % 16, by omega⟩

/-- A step of the region engine runs on this channel. -/
def State.stepOn (s : State) (c : Ch) : Bool :=
  let g := s.rg (rgOf c)
  g.busy && g.stepSlot == slotOf16 c

/-- A running step ends or is discarded: its converter and output stage are free again, and a pair that it split rejoins
(R323, Table 12-6). -/
def State.stepOff (s : State) (r : Rg) : State :=
  let g := s.rg r
  let s := if g.stepSlot < 16 then
      let c := slotCh r g.stepSlot
      let t := s.now c
      let off := fun (v : ConvSt) => if v.inCal then { v with inCal := false, ops := v.ops ++ [.calOff t] } else v
      s.modCh c fun h => { h with calBus := false, convA := off h.convA, convB := off h.convB }
    else s
  s.modRg r fun g => { g with busy := false, kind := 0, stepConv := .a, stepSlot := 0 }

/-- A running step is discarded whole, PREEMPT counts it, and its request keeps its place (R329). -/
def State.stepDiscard (s : State) (r : Rg) : State :=
  if (s.rg r).busy then (s.stepOff r).modRg r fun g => { g with preempt := satAdd 0xFFFF g.preempt 1 } else s

/-- An urgent request reaches converter v: a step on it, or on either converter of an interleaved pair, is pre-empted
(Table 12-6). -/
def State.stepUrgent (s : State) (c : Ch) (v : Conv) : State :=
  let h := s.ch c
  let hit := match v with
    | .a => h.convA.inCal || (h.convA.cfg.mcfg.getLsbD 23 && h.convB.inCal)
    | .b => h.convB.inCal
  if s.stepOn c && hit then s.stepDiscard (rgOf c) else s

/-- A state transition, RANGE, CLR_N assertion, park-code change or trip latch of the channel abandons a DAC or SKEW step
on it (Table 12-6). -/
def State.stepDisturb (s : State) (c : Ch) : State :=
  if s.stepOn c && ((s.ch c).calBus || (s.rg (rgOf c)).kind == 4) then s.stepDiscard (rgOf c) else s

end Sys2Proof.Machine
end

