-- ==== Sys2Proof/Machine/Force.lean ====
section
/-! DEFINITION. Force path and Muzzle: the DAC and its sources (3.2-3.6, R101), gate levels (3.7), pulses (R90, R91),
blanking windows (6.3), thresholds (R168) and trip latches (6.2). -/

namespace Sys2Proof.Machine

/-! ## Gates -/

/-- The pulse configuration written in the force block (Table 3-7). -/
def State.pulseCfg (s : State) (c : Ch) : PulseCfg :=
  let w := s.ctl c 0xA0
  { gate := w.extractLsb' 0 3, pol := bit w 3, start := w.extractLsb' 4 2, trig := w.extractLsb' 8 5,
    width := (s.ctl c 0xA4).toNat, period := (s.ctl c 0xA8).toNat, count := (s.ctl c 0xAC).toNat }

/-- The level that the latched trips give a gate, from its GATE_CFG word (Table 3-6): two different levels give low
(R88). -/
def tripLevel (cfg : Word) (latch : BitVec 4) : Option Bool :=
  let l := (List.range 4).filter fun m => bit latch m && fld cfg (2 * m) 2 != 0
  if l.isEmpty then none else some (l.all fun m => fld cfg (2 * m) 2 == 2)

/-- A comparator has a trip level on some gate (R171). -/
def State.hasLevel (s : State) (c : Ch) (m : Cmp) : Bool :=
  (List.range 6).any fun n => fld (s.ctl c (0x80 + 4 * n)) (2 * m.1) 2 != 0

/-- GATE_PAT or SENSE_PAT of an entry. -/
def RangeEntry.pat (e : RangeEntry) (forced : Bool) : BitVec 6 := if forced then e.gatePat else e.sensePat

/-- Rows 5 and 6 of Table 3-5, through the make and break steps of a range change (R97, R99). -/
def Channel.pattern (h : Channel) : BitVec 6 :=
  match h.rchg with
  | some r =>
    if r.broken then r.entry.pat r.forced else if r.made then r.oldPat ||| r.entry.pat r.forced else r.oldPat
  | none => h.work.pat (mForce h.mode)

/-- A force flag counts for the gates: the flags in effect, or during a range change those at S0 (R99). -/
def Channel.gateForced (h : Channel) : Bool :=
  match h.rchg with
  | some r => r.forced
  | none => mForce h.mode

/-- The level of gate n: Table 3-5 (R88); low while a supply of the region is not valid (R84). -/
def State.gateLevel (s : State) (c : Ch) (n : Nat) : Bool :=
  let h := s.ch c
  if h.st == .off || !s.rgOn c || s.rgSupBad != 0 then false
  else match tripLevel (s.ctl c (0x80 + 4 * n)) h.trip.latch with
    | some l => l
    | none =>
      if h.st == .parked || h.safeStep then false
      else
        let p := h.pulseFrc.getD (s.pulseCfg c)
        if p.gate.toNat == n && h.gateForced && mPULSE h.mode then
          if h.pulseAct && h.st == .run then p.pol else !p.pol
        else bit h.pattern n

/-- Set the gate pins to their levels. -/
def State.refreshGates (s : State) (c : Ch) : State :=
  let v := (List.range 6).foldl (fun a n => a + at_ (b1 (s.gateLevel c n)) n) 0
  s.modCh c fun h => { h with gates := BitVec.ofNat 6 v }

/-! ## Comparators and windows -/

/-- Change the trip state of a channel. -/
def State.modTrip (s : State) (c : Ch) (f : TripSt → TripSt) : State := s.modCh c fun h => { h with trip := f h.trip }

/-- Comparator m is covered by an open window at tick t (R177, R178). -/
def TripSt.blanked (p : TripSt) (m : Nat) (t : Nat) : Bool :=
  p.win.toList.any fun w => decide (t < w.till) && bit w.mask m

/-- TSTAT (Table 6-8). -/
def TripSt.tstat (p : TripSt) : Word :=
  (wd (at_ p.first.toNat 20 + at_ p.unres.toNat 12 + at_ p.active.toNat 4 + p.latch.toNat)) ||| p.sticky

/-- A trip latch sets at tick t (R173-R175): gates take their trip levels, TRIP_COUNT rises, the first latch gives FIRST
and TRIP_TS, TRIP is raised, and the channel is to enter Tripped. -/
def State.latchTrip (s : State) (c : Ch) (m : Cmp) (t : Nat) : State :=
  let s := s.stepDisturb c
  let s := s.modTrip c fun p =>
    let fresh := p.latch == 0
    let p1 := if fresh then { p with tripTs := wd t, first := BitVec.ofNat 2 m.1 }
      else if p.pend && p.tripTs == wd t && decide (m.1 < p.first.toNat) then { p with first := BitVec.ofNat 2 m.1 }
      else p
    { p1 with latch := p.latch ||| BitVec.ofNat 4 (2 ^ m.1), count := satAdd 0xFFFF p.count 1
              pendAt := if p.pend then p.pendAt else t
              pend := p.pend || (s.ch c).st != .tripped }
  let s := s.refreshGates c
  s.chEvAt c .trip (s.ch c).trip.tstat t

/-- The trip logic of one comparator at tick t: blanked and active sets BLK_HIT (R180); active with a trip level latches
(R171); active with none enters watch (R172). -/
def State.evalCmp (s : State) (c : Ch) (m : Cmp) (t : Nat) : State :=
  let p := (s.ch c).trip
  let b := BitVec.ofNat 4 (2 ^ m.1)
  if !bit p.active m.1 || bit p.unres m.1 then s.modTrip c fun p => { p with watch := p.watch &&& ~~~b }
  else if p.blanked m.1 t then
    s.modTrip c fun p => { p with watch := p.watch &&& ~~~b, sticky := p.sticky ||| wd (2 ^ (16 + m.1)) }
  else if s.hasLevel c m then
    if bit p.latch m.1 then s else s.modTrip c (fun p => { p with watch := p.watch &&& ~~~b }) |>.latchTrip c m t
  else if bit p.watch m.1 then s
  else
    let s := s.modTrip c fun p => { p with watch := p.watch ||| b, sticky := p.sticky ||| wd (2 ^ (8 + m.1)) }
    s.chEvAt c .cmpWatch (s.ch c).trip.tstat t

/-- The trip logic of all four comparators, in the order VH, VL, IH, IL; an unpowered channel has none. -/
def State.evalTrip (s : State) (c : Ch) (t : Nat) : State :=
  if (s.ch c).st == .off then s else s.each (List.finRange 4) fun m s => s.evalCmp c m t

/-- Open a blanking window at tick t: it covers `len` ticks from t on, and an open window moves its end to the later of
the two (R178, R179); length 0 opens none. -/
def State.openWin (s : State) (c : Ch) (i : Fin 5) (t len : Nat) (mask : BitVec 4) : State :=
  if len = 0 then s
  else
    (s.modTrip c fun p => { p with
      win := p.win.set i.1 { till := max (p.win.get i).till (t + len), mask := mask } i.2 }).evalTrip c t

/-- The gate-change window of the active entry's BLANK_LEN (R95). -/
def State.gateWin (s : State) (c : Ch) (t : Nat) : State := s.openWin c 1 t (s.ch c).work.blankLen 0xF

/-- clamp12 of R168. -/
def clamp12 (x : Int) : Int := satS 12 x

/-- A compliance value in the active scale: scaled where SCALE_SEL names its quantity (R93). -/
def RangeEntry.scaleComp (e : RangeEntry) (voltage : Bool) (x : Int) : Int :=
  if e.scaleSel == voltage then satS 24 (asr (x * e.compScale + 2 ^ 29) 30) else x

/-- Threshold codes of R168 with the scales of entry e. -/
def State.recalcThr (s : State) (c : Ch) (e : RangeEntry) : State :=
  let w := s.ctl c 0x410
  let h := s.ch c
  let gV : Int := max (fld w 16 6) h.floorV
  let gI : Int := max (fld w 24 6) h.floorI
  let up := fun (x : Int) => -((-x).fdiv 4096)
  let dn := fun (x : Int) => x.fdiv 4096
  s.modTrip c fun p => { p with
    thr := #v[clamp12 (up (e.scaleComp true h.vlimH) + gV), clamp12 (dn (e.scaleComp true h.vlimL) - gV),
              clamp12 (up (e.scaleComp false h.ilimH) + gI), clamp12 (dn (e.scaleComp false h.ilimL) - gI)] }

/-- The entry whose scales are in force: the target's from S0 of a range change on (R170), else the working one. -/
def Channel.scaleEntry (h : Channel) : RangeEntry :=
  match h.rchg with
  | some r => r.entry
  | none => h.work

/-! ## DAC and FOUT -/

/-- Clear output of Table 3-4: none is high-impedance. -/
def State.clearOut (s : State) (c : Ch) : Option Code :=
  match s.aon.clrsel.toNat with
  | 0 => some 0
  | 1 => some 0x20000
  | 2 => some (s.ch c).clearCode
  | _ => none

/-- What Table 3-13 selects for FOUT. -/
inductive FoutSrc where
  | hiz
  | code (v : Code)
  | queue
deriving DecidableEq, Repr

/-- Table 3-13 (R101); high-impedance while a supply of the region is not valid (R84). -/
def State.foutSrc (s : State) (c : Ch) : FoutSrc :=
  let h := s.ch c
  let clr := match s.clearOut c with
    | some v => FoutSrc.code v
    | none => .hiz
  if h.st == .off || h.chgOver.isSome || s.rgSupBad != 0 then .hiz
  else if h.clrActive then clr
  else if h.calBus then .hiz
  else if h.powerupOut then clr
  else if (match h.rchg with | some r => !r.dead | none => false) || h.st == .held then .code h.held
  else if h.st == .parked || h.st == .tripped || !mForce h.mode then .code h.parkCode
  else .queue

/-- FOUT is high-impedance: OUT_HIZ (Table 3-12). -/
def State.outHiz (s : State) (c : Ch) : Bool := s.foutSrc c == .hiz

/-- The DAC takes a code at tick t (R71-R73): a change of bits 17:12 starts a hold of 6 ticks, unless one runs, and opens
the major-transition window; outside a hold FOUT follows at once. -/
def State.putDac (s : State) (c : Ch) (v : Code) (t : Nat) : State :=
  let h := s.ch c
  let major := h.dac.extractLsb' 12 6 != v.extractLsb' 12 6
  let holding := match h.hold with
    | some e => decide (t < e)
    | none => false
  if major then
    let s := s.modCh c fun h => { h with dac := v, hold := if holding then h.hold else some (t + 6) }
    s.openWin c 2 t (fld (s.ctl c 0x40C) 0 16) ((s.ctl c 0x410).extractLsb' 0 4)
  else s.modCh c fun h => { h with dac := v, fout := if holding then h.fout else v }

/-- FOUT goes to the code that Table 3-13 selects, where it is not the queue. -/
def State.showDac (s : State) (c : Ch) (t : Nat) : State :=
  match s.foutSrc c with
  | .code v => s.putDac c v t
  | _ => s

/-- The DAC sample queue is flushed (R69, R404). -/
def State.flushDac (s : State) (c : Ch) : State := s.modCh c fun h => { h with queue := [], fed := none }

/-- A code enters the DAC sample queue at tick t (R67), which has 16 places. -/
def Channel.enqueue (h : Channel) (t : Nat) (v : Code) : Channel :=
  { h with queue := (h.queue ++ [(t, v)]).take 16, fed := some (h.fed.getD t) }

/-- First write: POWERUP_OUT clears (R85). -/
def State.firstWrite (s : State) (c : Ch) : State := s.modCh c fun h => { h with powerupOut := false }

/-! ## Pulses -/

/-- The pulse gate changes: pins, the pulse-edge signal and its window (R91, Table 6-3). -/
def State.pulseEdgeFx (s : State) (c : Ch) (act : Bool) (t : Nat) : State :=
  let s := (s.modCh c fun h => { h with pulseAct := act }).refreshGates c
  s.openWin c 3 t (fld (s.ctl c 0x40C) 16 16) ((s.ctl c 0x410).extractLsb' 4 4)

/-- A start of the pulse sequence at tick t, with the fields as written (R90, R91). -/
def State.pulseStart (s : State) (c : Ch) (t : Nat) : State :=
  let p := s.pulseCfg c
  let run : PulseRun :=
    { cfg := p, t0 := t, left := if p.period = 0 then some 0 else if p.count = 0 then none else some (p.count - 1) }
  let was := (s.ch c).pulseAct
  let act := decide (0 < p.width)
  let s := s.modCh c fun h => { h with pulse := if act then some run else none, pulseFrc := some p }
  if was = act then s.refreshGates c else s.pulseEdgeFx c act t

/-- A running sequence stops with the gate inactive (R91). -/
def State.pulseStop (s : State) (c : Ch) (t : Nat) : State :=
  let was := (s.ch c).pulseAct
  let s := s.modCh c fun h => { h with pulse := none }
  if was then s.pulseEdgeFx c false t else s

/-- The pulse timer runs with PULSE in effect (R91). -/
def Channel.pulseTimer (h : Channel) : Bool := mPULSE h.mode && h.stimRuns

/-- Follow a change of what R91 makes the timer depend on: under START 0 or 3 a sequence starts when the timer first runs
with PULSE in effect, and a running sequence stops when it no longer does. -/
def State.pulseCheck (s : State) (c : Ch) (t : Nat) : State :=
  let h := s.ch c
  if h.pulseTimer && !h.pulseSeen then
    let s := s.modCh c fun h => { h with pulseSeen := true }
    if (s.pulseCfg c).start == 0 || (s.pulseCfg c).start == 3 then s.pulseStart c t else s
  else if !h.pulseTimer && h.pulseSeen then (s.modCh c fun h => { h with pulseSeen := false }).pulseStop c t
  else s

/-- A start of the given START kind arrives while the timer runs with PULSE in effect (R90, R91). -/
def State.pulseTrigger (s : State) (c : Ch) (kind : BitVec 2) (t : Nat) : State :=
  if (s.ch c).pulseTimer && (s.pulseCfg c).start == kind then s.pulseStart c t else s

end Sys2Proof.Machine
end

