-- ==== Sys2Proof/Machine/Gen.lean ====
section
/-! DEFINITION. The waveform generator (07): descriptors, slots and their place in table SRAM, entries, loops, commit
points, samples, starvation, markers, start and stop. -/

namespace Sys2Proof.Machine

/-- SEGD d of the generator block, as SEG takes it (Table 7-3). -/
def State.readSeg (s : State) (c : Ch) (d : Fin 16) : Seg :=
  let o := 0x540 + 16 * d.1
  let w0 := s.ctl c o
  let w1 := s.ctl c (o + 4)
  let w2 := s.ctl c (o + 8)
  let w3 := s.ctl c (o + 12)
  { d := d, base := fld w0 15 17 + 2 ^ 17 * fld w1 0 16, len := fld w1 16 16, ends := w0.extractLsb' 13 2,
    wline := w0.extractLsb' 8 5, l := #v[fld w2 0 16, fld w2 16 16, fld w3 0 16, fld w3 16 16] }

/-- SLOTSZ of GCFG as a number of entries (Table 7-7). -/
def slotSz (gcfg : Word) : Nat :=
  match fld gcfg 26 2 with
  | 1 => 1024
  | 2 => 2048
  | _ => 512

/-- The other channel of a pair window (R260). -/
def partner (c : Ch) : Ch := ⟨if c.1 % 2 = 0 then c.1 + 1 else c.1 - 1, by split <;> omega⟩

/-- Slot size in force from GCFG's SLOTSZ, with CUT when the partner holds 2,048 (R260). -/
def State.sizeFor (s : State) (c : Ch) : Nat × Bool :=
  let z := slotSz (s.ctl c 0x500)
  if z = 2048 && (s.ch (partner c)).gen.size == 2048 then (1024, true) else (z, false)

/-- Byte offset in table SRAM of physical slot p with S entries (R260). -/
def slotOff (c : Ch) (p S : Nat) : Nat :=
  let k := c.1 % 8
  let w := 0x10000 + k / 2 * 0x1C000
  if k % 2 = 0 then w + p * 16 * S else w + 0x1C000 - (p + 1) * 16 * S

/-- Physical slot of CUR: 0 or 1. -/
def GenSt.curP (g : GenSt) : Nat := b1 g.curSlot
/-- Physical slot of NEXT. -/
def GenSt.nextP (g : GenSt) : Nat := 1 - b1 g.curSlot

/-- Blocks of 256 entries in a segment. -/
def Seg.blocks (g : Seg) : Nat := (g.len + 256) / 256
/-- Blocks that make NEXT ready: the first min(LEN + 1, SLOTSZ) entries (R196). -/
def Seg.need (g : Seg) (S : Nat) : Nat := ceilDiv (min (g.len + 1) S) 256

/-- NEXT is ready (R196). -/
def GenSt.nextReady (g : GenSt) : Bool :=
  match g.next with
  | some n => decide (n.need g.nextSize ≤ g.nextLoaded)
  | none => false

/-- A generator entry from its four words, lowest first (Table 7-1). -/
def genEntry (w0 w1 w2 w3 : Word) : GenEntry :=
  { dur := max 1 w3.toNat, ftw := fld w1 16 16 + 2 ^ 16 * w2.toNat, phase := fld w1 0 16, amp := sfld w0 14 18,
    mark := w0.extractLsb' 12 2, flags := w0.extractLsb' 0 12 }

/-- The absolute block that holds entry e of the present pass. -/
def GenSt.blockOf (g : GenSt) (e : Nat) : Nat := g.passBase + e / 256
/-- Entry e of CUR counted over the passes of the segment's stream. -/
def GenSt.absEntry (g : GenSt) (e : Nat) : Nat := g.blockOf e * 256 + e % 256
/-- Entry e lies at or past one that Fetch could not read (R199). -/
def GenSt.eccHit (g : GenSt) (e : Nat) : Bool :=
  match g.eccAt with
  | some a => decide (a ≤ g.absEntry e)
  | none => false
/-- Entry e of CUR is in its slot. -/
def GenSt.resident (g : GenSt) (e : Nat) : Bool :=
  decide (g.curFrom ≤ g.blockOf e) && decide (g.blockOf e < g.curLoaded) && !g.eccHit e

/-- Entry e of CUR as its slot holds it. -/
def State.slotEntry (s : State) (c : Ch) (e : Nat) : GenEntry :=
  let g := (s.ch c).gen
  let a := slotOff c g.curP g.size + g.absEntry e % max 1 g.size * 16
  let m := (s.cl (clOf c)).tmem
  genEntry (memWord m a) (memWord m (a + 4)) (memWord m (a + 8)) (memWord m (a + 12))

/-- Entry e of a segment as acquisition memory holds it. -/
def State.memEntry (s : State) (g : Seg) (e : Nat) : GenEntry :=
  let a := 16 * g.base + 16 * e
  genEntry (memWord s.acq a) (memWord s.acq (a + 4)) (memWord s.acq (a + 8)) (memWord s.acq (a + 12))

/-- Entry e of CUR: from its slot when it is there, else from memory, where it is still to be read (R196). -/
def State.curEntry (s : State) (c : Ch) (e : Nat) : GenEntry :=
  let g := (s.ch c).gen
  match g.cur with
  | some q => if g.resident e then s.slotEntry c e else s.memEntry q e
  | none => .zero

/-- LB, LE, WAITT, EVT, LSEL, SHAPE of an entry (Table 7-2). -/
def GenEntry.lb (e : GenEntry) : Bool := bit e.flags 11
/-- LE. -/
def GenEntry.le (e : GenEntry) : Bool := bit e.flags 10
/-- LSEL. -/
def GenEntry.lsel (e : GenEntry) : Fin 4 := ⟨fld e.flags 8 2, by unfold fld; omega⟩
/-- WAITT. -/
def GenEntry.waitt (e : GenEntry) : Bool := bit e.flags 7
/-- SHAPE. -/
def GenEntry.shape (e : GenEntry) : Nat := fld e.flags 5 2
/-- EVT. -/
def GenEntry.evt (e : GenEntry) : Bool := bit e.flags 4

/-- Loop counters and begin indices of a pass (R194). -/
abbrev Loops := Vector Nat 4 × Vector (Option Nat) 4

/-- Entry e begins: LB loads its counter, unless the entry was reached by its own loop's jump back (R194; a counter that
the jump back reloaded would never run down, DEDUCED log 13). -/
def loopsBegin (x : GenEntry) (e : Nat) (l : Vector Nat 4) (back : Bool) (p : Loops) : Loops :=
  if x.lb && !back then (p.1.set x.lsel.1 (l.get x.lsel), p.2.set x.lsel.1 (some e)) else p

/-- After the last pass sample of entry e: the next index, whether it is a jump back, the loops, and LOOP_ERR (R194). -/
def loopsEnd (x : GenEntry) (e : Nat) (p : Loops) : Nat × Bool × Loops × Bool :=
  if x.le then
    match p.2.get x.lsel with
    | some b =>
      if 0 < p.1.get x.lsel then (b, true, (p.1.set x.lsel.1 (p.1.get x.lsel - 1), p.2), false)
      else (e + 1, false, (p.1, p.2.set x.lsel.1 none), false)
    | none => (e + 1, false, p, true)
  else (e + 1, false, p, false)

/-- Pass samples from entry e (about to begin) to the end of the pass, counted up to at least 33. -/
def State.passWalk (s : State) (c : Ch) (q : Seg) : Nat → Nat → Bool → Loops → Nat → Nat
  | 0, _, _, _, acc => acc
  | k + 1, e, back, p, acc =>
    if q.len < e || 32 < acc then acc
    else
      let x := s.curEntry c e
      let p := loopsBegin x e q.l back p
      let r := loopsEnd x e p
      s.passWalk c q k r.1 r.2.1 r.2.2.1 (acc + max 1 x.dur)

/-- Pass samples from the one just played (included) to the end of the pass, counted up to at least 33. -/
def State.passLeft (s : State) (c : Ch) : Nat :=
  let g := (s.ch c).gen
  match g.cur with
  | none => 0
  | some q =>
    let r := loopsEnd g.entry g.ent (g.ctr, g.beg)
    s.passWalk c q 34 r.1 r.2.1 r.2.2.1 (g.left + 1)

/-- Set a sticky bit of GSTAT (Table 7-8). -/
def GenSt.stick (g : GenSt) (b : Nat) (on : Bool) : GenSt := if on then { g with sticky := g.sticky ||| wd (2 ^ b) } else g

/-- Change the generator of a channel. -/
def State.modGen (s : State) (c : Ch) (f : GenSt → GenSt) : State := s.modCh c fun h => { h with gen := f h.gen }

/-- Tick of generator sample j: the first tick at or after t0 + j 4N/M (R190). -/
def GenSt.tickOf (g : GenSt) (j : Nat) : Nat := g.t0 + ceilDiv (j * 4 * g.n) g.m

/-- The sample value x of R192 with its clip. -/
def genShape (e : GenEntry) (theta : Nat) : Int × Bool :=
  if e.shape = 3 then (e.amp * 64, false)
  else
    let w : Int :=
      if e.shape = 0 then sineW (theta / 2 ^ 28)
      else if e.shape = 1 then (theta / 2 ^ 30 : Nat) - 131072
      else
        let t : Int := (theta / 2 ^ 29 : Nat)
        if t < 262144 then t - 131072 else 393215 - t
    let y := asr (e.amp * w + 2 ^ 10) 11
    (satS 24 y, satS 24 y != y)

/-- Marker levels that the generator asks for: the entry's bits, those of SMK forced to 1 while starved (R203, R208). -/
def GenSt.wantMk (g : GenSt) : BitVec 2 := if g.starving then g.entry.mark ||| g.smk else g.entry.mark

/-- Marker w's MSRC in MKCFG (Table 7-9). -/
def mkSrc (cfg : Word) (w : Nat) : Nat := fld cfg (2 + 16 * w) 2

/-- The level that marker w is to take with the generator asking for `b` (R208). -/
def mkLevel (cfg : Word) (w : Nat) (b : Bool) : Bool :=
  match mkSrc cfg w with
  | 1 => false
  | 2 => true
  | _ => b

/-- The last level asked of marker w, or its present level. -/
def GenSt.lastMk (g : GenSt) (w : Bool) : Bool :=
  match g.mkPend.findRev? fun p => p.2.1 == w with
  | some p => p.2.2
  | none => bit g.mkLvl (b1 w)

/-- Marker w takes a level. -/
def GenSt.setMk (g : GenSt) (w lvl : Bool) : GenSt :=
  let b : BitVec 2 := BitVec.ofNat 2 (2 ^ b1 w)
  { g with mkLvl := if lvl then g.mkLvl ||| b else g.mkLvl &&& ~~~b }

/-- Ask for a marker's level from tick `due` on. -/
def GenSt.askMk (g : GenSt) (w lvl : Bool) (due : Nat) : GenSt :=
  if g.lastMk w == lvl then g else { g with mkPend := g.mkPend ++ [(due, w, lvl)] }

/-- Ask for both markers' levels with the generator's bits `b`. -/
def GenSt.askBoth (g : GenSt) (b : BitVec 2) (due : Nat) : GenSt :=
  let g := { g with mkBits := b }
  (g.askMk false (mkLevel g.mkcfg 0 (bit b 0)) due).askMk true (mkLevel g.mkcfg 1 (bit b 1)) due

/-- Emit the sample of the present θ: value, history, GEN_SAT and marker levels (R192, R208). -/
def GenSt.emit (g : GenSt) (t : Nat) : GenSt :=
  let v := genShape g.entry g.theta
  let g := g.stick 3 v.2
  let g := { g with xs := (v.1 :: g.xs).take 48, x0 := if g.j = 0 then v.1 else g.x0, j := g.j + 1 }
  g.askBoth g.wantMk (t + g.mkDelay)

/-- θ advances by FTW (R191). -/
def GenSt.spin (g : GenSt) : GenSt := { g with theta := (g.theta + g.entry.ftw) % 2 ^ 48 }

/-- The start value: x of the first sample of the segment in NEXT, or 0 when NEXT is empty (R207). -/
def State.startValue (s : State) (c : Ch) : Int :=
  let g := (s.ch c).gen
  match g.next with
  | none => 0
  | some q =>
    let e :=
      if 0 < g.nextLoaded then
        let a := slotOff c g.nextP g.nextSize
        let m := (s.cl (clOf c)).tmem
        genEntry (memWord m a) (memWord m (a + 4)) (memWord m (a + 8)) (memWord m (a + 12))
      else s.memEntry q 0
    (genShape e (e.phase * 2 ^ 32)).1

/-- The conditions of R210 beside the start condition: DDS in effect, the stimulus runs, NEXT holds a segment. -/
def Channel.genReady (h : Channel) : Bool := mDDS h.mode && h.stimRuns && h.gen.next.isSome && !h.gen.running

/-- Keep the tick from which the other conditions of a start hold, at a change of them in tick t (R210). -/
def State.genArm (s : State) (c : Ch) (t : Nat) : State :=
  s.modCh c fun h =>
    if h.genReady then
      if h.gen.armedAt.isSome then h else { h with gen := { h.gen with armedAt := some t } }
    else { h with gen := { h.gen with armedAt := none, lineHit := none } }

/-- The size in force is none while the generator is stopped and NEXT is empty (R260). -/
def GenSt.normSize (g : GenSt) : GenSt := if !g.running && g.next.isNone then { g with size := 0, cut := false } else g

/-- The generator stops at tick t: CUR discarded, a pending jump cancelled, NEXT kept, markers to 0 after MK_DELAY
(R208, R210, Table 7-5). -/
def GenSt.halt (g : GenSt) (t : Nat) : GenSt :=
  let g := { g with
    running := false, cur := none, curLoaded := 0, curFrom := 0, passBase := 0, jumpPend := false,
    follower := .undecided, commitAt := none, starving := false, eccAt := none, waiting := none, waitHit := none,
    left := 0 }
  (g.askBoth 0 (t + g.mkDelay)).normSize

/-- Stop a running generator at tick t. -/
def State.genStop (s : State) (c : Ch) (t : Nat) : State :=
  if (s.ch c).gen.running then s.modGen c fun g => g.halt t else s

/-- Entry e of CUR is due at the sample of tick t: it begins when it is in its slot, else the generator starves
(R191, R194, R203, R204). `back` says that a loop's jump back brought it. -/
def State.genBegin (s : State) (c : Ch) (e : Nat) (back : Bool) (t : Nat) : State :=
  let g := (s.ch c).gen
  if g.resident e then
    let x := s.slotEntry c e
    let ending := g.starving
    let s := s.modGen c fun g =>
      let p := match g.cur with
        | some q => loopsBegin x e q.l back (g.ctr, g.beg)
        | none => (g.ctr, g.beg)
      let g := { g with
        ent := e, entry := x, left := max 1 x.dur - 1, theta := x.phase * 2 ^ 32, ctr := p.1, beg := p.2,
        starving := false, waiting := none, waitHit := none }
      let g := if ending then
          { g with starveT1 := wd t, starveCnt := satAdd 0xFFFFFFFF g.starveCnt g.starved, starved := 0 }
        else g
      g.emit t
    if x.evt then s.chEv c .genMark (wd e) else s
  else
    let first := !g.starving
    let s := s.modGen c fun g =>
      let need := g.blockOf e
      let g := if need < g.curFrom then { g with curFrom := need, curLoaded := need }.stick 7 true else g
      let g := { g with ent := e, starving := true, starved := g.starved + 1, mkBits := g.mkBits }.spin
      let g := if first then { g with starveT0 := wd t }.stick 2 true else g
      (g.stick 8 (g.eccHit e)).emit t
    if first then s.chEv c .starved (wd t) else s

/-- The commit point (R200): the follower of the pass is fixed, NEXT as it stands at this moment. A jump of the same tick is
late (R201). -/
def GenSt.commit (g : GenSt) (t : Nat) : GenSt :=
  if g.follower != .undecided then g
  else
    let ends := match g.cur with
      | some q => q.ends.toNat
      | none => 0
    let toNext := fun (g : GenSt) =>
      if g.next.isSome then { g with follower := .next } else { g with follower := .void }.stick 5 true
    let g := { g with commitAt := some t }
    let g := if g.jumpPend && decide (t ≤ g.jumpAt) then g.stick 1 true else g
    if g.jumpPend && decide (g.jumpAt < t) then toNext { g with jumpPend := false }
    else if ends = 1 then { g with follower := .repeat }
    else if ends = 2 then toNext g
    else { g with follower := .stop }

/-- A pass sample has been played: its commit point is reached when 32 or fewer pass samples remain, it included. -/
def State.genCommit (s : State) (c : Ch) (t : Nat) : State :=
  let g := (s.ch c).gen
  if g.follower == .undecided && !g.starving && decide (s.passLeft c ≤ 32) then s.modGen c fun g => g.commit t else s

/-- A pass begins anew: counters, begins and the follower are those of a fresh pass (R194, R200). -/
def GenSt.newPass (g : GenSt) : GenSt :=
  { g with ctr := Vector.replicate 4 0, beg := Vector.replicate 4 none, follower := .undecided, commitAt := none }

/-- NEXT moves to CUR and the slots swap roles (R196, R260). -/
def GenSt.takeNext (g : GenSt) : GenSt :=
  { g with
    cur := g.next, next := none, curLoaded := g.nextLoaded, curFrom := 0, passBase := 0, nextLoaded := 0,
    curSlot := !g.curSlot, size := g.nextSize, eccAt := g.eccNext, eccNext := none }.newPass

/-- The end of a pass at the sample of tick t (R200): the follower begins at this sample, or the generator stops. -/
def State.genPassEnd (s : State) (c : Ch) (t : Nat) : State :=
  let g := (s.ch c).gen
  match g.follower with
  | .repeat =>
    let s := s.modGen c fun g => match g.cur with
      | some q => if q.len + 1 ≤ g.size then g.newPass else { g with passBase := g.passBase + q.blocks }.newPass
      | none => g
    s.genBegin c 0 false t
  | .next =>
    if g.nextReady then (s.modGen c fun g => g.takeNext).genBegin c 0 false t
    else
      let first := !g.starving
      let s := s.modGen c fun g =>
        let g := { g with starving := true, starved := g.starved + 1 }.spin
        let g := if first then { g with starveT0 := wd t }.stick 2 true else g
        g.emit t
      if first then s.chEv c .starved (wd t) else s
  | _ =>
    let s := s.modGen c fun g => (g.halt t).stick 0 true
    s.chEv c .genDone 0

/-- Blocks whose entries lie before the present one are given up, but for those from the oldest set loop begin on while
two blocks remain for entries ahead (R197). -/
def GenSt.release (g : GenSt) : GenSt :=
  match g.cur with
  | none => g
  | some q =>
    if q.len + 1 ≤ g.size then g
    else
      let cb := g.blockOf g.ent
      let ob := g.beg.toList.foldl (fun m b => match b with | some e => min m (g.blockOf e) | none => m) cb
      let keep := if cb - ob + 2 ≤ g.size / 256 then ob else cb
      { g with curFrom := max g.curFrom keep }

/-- Play sample j, at its tick t (R190-R204). -/
def State.genSample (s : State) (c : Ch) (t : Nat) : State :=
  let g := (s.ch c).gen
  match g.cur with
  | none => s
  | some q =>
    if g.starving then
      if q.len < g.ent then s.genPassEnd c t else (s.genBegin c g.ent false t).genCommit c t
    else if 0 < g.left then
      (s.modGen c fun g => { g with left := g.left - 1 }.spin.emit t).genCommit c t
    else
      let waits := g.entry.waitt && !(match g.waitHit with | some a => decide (a < t) | none => false)
      if waits then s.modGen c fun g => g.spin.emit t
      else
        let r := loopsEnd g.entry g.ent (g.ctr, g.beg)
        let s := s.modGen c fun g =>
          ({ g with ctr := r.2.2.1.1, beg := r.2.2.1.2, waiting := none, waitHit := none }.stick 6 r.2.2.2)
        if q.len < r.1 then
          (s.modGen c fun g => { g with ent := r.1 }).genPassEnd c t |>.genCommit c t
        else (s.genBegin c r.1 r.2.1 t).genCommit c t

/-- After a sample: the last pass sample of an entry with WAITT begins a wait from its tick on (R194), and blocks left
behind are released. -/
def State.genAfter (s : State) (c : Ch) (t : Nat) : State :=
  s.modGen c fun g =>
    let g := if g.running && !g.starving && g.left == 0 && g.entry.waitt && g.waiting.isNone then
        { g with waiting := some t } else g
    g.release

/-- dds_value of a running generator at loop-period boundary b, with its clip (R205). -/
def GenSt.resample (g : GenSt) (b : Nat) : Int × Bool :=
  let den : Int := 4 * g.n
  let num : Int := ((b : Int) - g.t0) * g.m - 8 * den
  let i0 := num.fdiv den
  let p0 := (2 * 64 * (num - i0 * den) + den).fdiv (2 * den)
  let i := if p0 = 64 then i0 + 1 else i0
  let p := if p0 = 64 then 0 else p0.toNat
  let x := fun (k : Int) => if k < 0 then g.x0 else g.xs.getD (g.j - 1 - k.toNat) g.x0
  let acc := (resRow p).zipIdx.foldl (fun a v => a + v.1 * x (i - 7 + v.2)) 0
  let y := asr (acc + 2 ^ 16) 17
  (satS 24 y, satS 24 y != y)

/-- ALIAS: f_gen exceeds the loop rate (R206). -/
def State.genAlias (s : State) (c : Ch) : Bool :=
  let h := s.ch c
  let r := s.rg (rgOf c)
  decide (r.q * h.D * h.gen.m > 4 * h.gen.n * r.p)

end Sys2Proof.Machine
end

