-- ==== Sys2Proof/Machine/Chan.lean ====
section
/-! DEFINITION. Channel transitions of Table 2-6, the mode word taking effect (R41, R61), stimulus freeze (R13), the end
of a range change before its release (Table 3-10) and the per-channel reset (R63). Each takes the tick of the sample
boundary at which it takes effect. -/

namespace Sys2Proof.Machine

/-- Change the loop engine state of a channel. -/
def State.modLoop (s : State) (c : Ch) (f : LoopSt → LoopSt) : State := s.modCh c fun h => { h with loop := f h.loop }

/-- The loop opens: its states stay and no later code is applied (R146, R156). -/
def State.openEng (s : State) (c : Ch) : State :=
  s.modLoop c fun l =>
    { l with running := false, law := .none, entering := false, flight := l.flight.map fun p => { p with live := false } }

/-- The loop closes at boundary t: the first period computed is the first whose boundary lies at or after t (R146, R154);
during a range change it closes at the release (log 14). -/
def State.closeEng (s : State) (c : Ch) (t : Nat) : State :=
  match (s.ch c).rchg with
  | some r =>
    if r.dead then s.modLoop c fun l => { l with running := true, law := .none, entering := true, liveFrom := t }
    else s.modCh c fun h => { h with rchg := some { r with closes := true } }
  | none => s.modLoop c fun l => { l with running := true, law := .none, entering := true, liveFrom := t }

/-- Follow a change of state, mode or freeze: the pulse timer (R91), the start condition of the generator (R210), and a
list that no longer runs (R294). -/
def State.stimFollow (s : State) (c : Ch) (t : Nat) : State :=
  let s := s.modCh c fun h => if h.stimRuns || h.frozen then h else { h with listRun := false }
  ((s.pulseCheck c t).genArm c t).refreshGates c

/-- The stimulus stops: list, pulses and generator (Tables 2-5 and 7-5). -/
def State.stimStop (s : State) (c : Ch) (t : Nat) : State := (s.genStop c t).stimFollow c t

/-- Every deferred request is cancelled, each with DEFERRED_CANCELLED (R62). -/
def State.defCancel (s : State) (c : Ch) (t : Nat) : State :=
  let h := s.ch c
  let s := if h.defMode.isSome then s.chEvAt c .deferredCancelled 0 t else s
  let s := if h.defMove.isSome then s.chEvAt c .deferredCancelled 0 t else s
  s.modCh c fun h => { h with defMode := none, defMove := none }

/-- A range change ends without release at boundary t (Table 3-10): ACTIVE takes the target, BUSY clears, and make and
break complete if still due. -/
def State.rangeCut (s : State) (c : Ch) (t : Nat) : State :=
  match (s.ch c).rchg with
  | some r =>
    if r.dead then s
    else s.modCh c fun h =>
      { h with
        act := r.target, work := r.entry, rchg := if r.broken then none else some { r with dead := true, closes := false }
        rhist := match h.rhist with
          | x :: l => { x with rel := some t } :: l
          | [] => [] }
  | none => s

/-! ## Transitions -/

/-- Entry to Held (T5, T12). -/
def State.toHeld (s : State) (c : Ch) (t : Nat) : State :=
  let s := s.stepDisturb c
  let s := s.modCh c fun h =>
    { h with
      held := match h.rchg with
        | some r => if r.dead then h.dac else h.held
        | none => h.dac
      rchg := h.rchg.map fun r => { r with closes := false } }
  let s := ((s.setSt c .held t).openEng c).flushDac c
  s.stimFollow c t

/-- T1-T4 and T6 share the entry to Run: the stimulus runs, and with a force flag a loop that was open closes. -/
def State.toRun (s : State) (c : Ch) (t : Nat) : State :=
  let old := (s.ch c).st
  let s := s.stepDisturb c
  let s := if old == .parked then s.firstWrite c else s
  let s := (s.setSt c .run t).modCh c fun h => { h with stimAt := if old == .heel then some t else none }
  let s := if old == .held && mForce (s.ch c).mode then s.closeEng c t else s
  s.stimFollow c t

/-- Entry to Heel (T2, T7): from Held the generator stops (Table 7-5); the ramp starts at the measured value of its first
computed period (R163). -/
def State.toHeel (s : State) (c : Ch) (t : Nat) : State :=
  let old := (s.ch c).st
  let s := s.stepDisturb c
  let s := if old == .parked then s.firstWrite c else s
  let s := if old == .held then s.genStop c t else s
  let s := (s.setSt c .heel t).modLoop c fun l => { l with heelH := none }
  let s := if old == .run then s else s.closeEng c t
  s.stimFollow c t

/-- T8: entry to Draining. The ramp starts from the code that the DAC holds (R59, Table 3-10). -/
def State.toDraining (s : State) (c : Ch) (t : Nat) : State :=
  let s := (s.stepDisturb c).rangeCut c t
  let s := ((s.setSt c .draining t).openEng c).flushDac c
  let s := s.modCh c fun h =>
    { h with held := h.dac, safeStep := false, loop := { h.loop with liveFrom := t } }
  s.stimStop c t

/-- Entry to Parked (T1, T9, T11): records and streams close (R228, R237). -/
def State.toParked (s : State) (c : Ch) (t : Nat) : State :=
  let s := s.capPark c t
  let s := (((s.stepDisturb c).setSt c .parked t).openEng c).flushDac c
  let s := s.modCh c fun h => { h with safeStep := false, trip := { h.trip with latch := 0, pend := false } }
  s.stimStop c t

/-- T13, and the end of T14: the channel is Off; its latches clear and its pins fall (R40, R84, R176). -/
def State.toOff (s : State) (c : Ch) (t : Nat) : State :=
  let s := s.capPark c t
  let s := ((s.setSt c .off t).openEng c).flushDac c
  let s := s.modCh c fun h =>
    { h with
      safeStep := false, goOff := false, rchg := none, modePend := none, gates := 0,
      trip := { h.trip with latch := 0, pend := false, active := 0, watch := 0, unres := 0 } }
  s.stimStop c t

/-- T10: entry to Tripped (R57); a region power-down that waits for the drain goes on to Off (T13). -/
def State.toTripped (s : State) (c : Ch) (t : Nat) : State :=
  let off := (s.ch c).goOff
  let s := (s.stepDisturb c).rangeCut c t
  let s := ((s.setSt c .tripped t).openEng c).flushDac c
  let s := s.modCh c fun h => { h with safeStep := false, trip := { h.trip with pend := false } }
  let s := (s.stimStop c t).defCancel c t
  if off then s.toOff c t else s

/-- At boundary b a latch that set before it takes effect: T10 (R174). -/
def State.tripAt (s : State) (c : Ch) (b : Nat) : State :=
  if (s.ch c).trip.pend && decide ((s.ch c).trip.pendAt < b) then s.toTripped c b else s

/-- A park that the host, CLR_N or a reset asks for at boundary t (T8), in the states from which it drains. -/
def State.hostPark (s : State) (c : Ch) (t : Nat) : State :=
  match (s.ch c).st with
  | .heel | .run | .held => s.toDraining c t
  | _ => s

/-- T12: the sample clock is lost (R15, R58): deferred requests are cancelled. -/
def State.toHeldClock (s : State) (c : Ch) (t : Nat) : State :=
  match (s.ch c).st with
  | .parked | .heel | .run | .draining =>
    let s := (s.rangeCut c t).defCancel c t
    (s.modCh c fun h => { h with safeStep := false }).toHeld c t
  | .held => s.rangeCut c t
  | _ => s

/-! ## Mode word -/

/-- A mode word takes effect at boundary t (R41, R61). -/
def State.applyMode (s : State) (c : Ch) (w : BitVec 8) (t : Nat) : State :=
  let old := (s.ch c).mode
  let gates := (s.ch c).gates
  let s := s.modCh c fun h =>
    let h := { h with mode := w, modePend := none }
    let h := if mLIST old != mLIST w then
        { h with listRun := false, listSel := if h.listNext.isSome then h.listNext else h.listSel, listNext := none }
      else h
    if forceBits old != forceBits w then { h with loop := { h.loop with xoverI := false, xlimLo := false } } else h
  let s := if mDDS old && !mDDS w then s.genStop c t else s
  let s := if mPULSE old && !mPULSE w then (s.modCh c fun h => { h with pulseSeen := false }).pulseStop c t else s
  let s := if mCAPT old && !mCAPT w then s.truncRec c t else s
  let s := if mSTRM old && !mSTRM w then s.closeStream c t else s
  let s := if (mCAPT old || mSTRM old) && !mCAPT w && !mSTRM w then s.modCh c fun h => { h with rq := [] } else s
  let s := s.stimFollow c t
  if mForce old != mForce w && (s.ch c).rchg.isNone && (s.ch c).gates != gates then s.gateWin c t else s

/-! ## Stimulus freeze -/

/-- Stimulus freeze at tick t (R13, Table 1-2): generator and pulses stop, lists stand, ARMED clears under CAPT and an open record
closes at the next sample, a stream closes; Off channels have no stimulus to freeze. -/
def State.freezeAt (s : State) (c : Ch) (t : Nat) : State :=
  let h := s.ch c
  if h.frozen || h.st == .off then s
  else
    let b := s.nextB c t
    let s := (s.modCh c fun h => { h with frozen := true }).chEvAt c .stimFrozen 0 t
    let s := s.genStop c b
    let s := if h.st.captures then
        let s := if mCAPT h.mode then (s.truncRec c b).disarm c else s
        if mSTRM h.mode then s.closeStream c b else s
      else s
    s.stimFollow c b

/-- Stimulus freeze now. -/
def State.freeze (s : State) (c : Ch) : State := s.freezeAt c (s.now c)

/-- Stimulus freeze ends (R13); a list starts again at entry 0 (R294). -/
def State.unfreeze (s : State) (c : Ch) : State :=
  if (s.ch c).frozen then (s.modCh c fun h => { h with frozen := false, listRun := false }).stimFollow c (s.bnd c) else s

/-! ## Per-channel reset -/

/-- The loop parameters and the Heel slew return to their reset values (R63, R158, R163). -/
def Channel.resetLoop (h : Channel) : Channel :=
  { h with coef := Vector.ofFn fun i => coefReset i.val, loop := { h.loop with heelSlew := 16 } }

/-- Every W1C bit of the channel clears (R63 step 2). -/
def Channel.clearSticky (h : Channel) : Channel :=
  { h with
    loop := { h.loop with sticky := 0 }, rSticky := 0, convA := { h.convA with sticky := 0 },
    convB := { h.convB with sticky := 0 }, trip := { h.trip with sticky := 0 }, cap := { h.cap with sticky := 0 },
    gen := { h.gen with sticky := 0 } }

/-- A per-channel reset at boundary t (R63). DEC returns to 0, so the count of loop periods restarts there (R143). -/
def State.chanReset (s : State) (c : Ch) (t : Nat) : State :=
  if (s.ch c).st == .off then s.modCh c fun h => { h with modeStored := none }
  else
    let k := s.idxAt c t
    let s := s.applyMode c 0 t
    let s := s.modCh c fun h =>
      let h := if h.coef.get 64 = 0 then h else { h with loop := { h.loop with mark := k } }
      h.resetLoop.clearSticky
    (s.defCancel c t).hostPark c t

end Sys2Proof.Machine
end

