-- ==== Sys2Proof/Machine/Settle.lean ====
section
/-! DEFINITION. The power state between Ready and Run (R471, R472), and the two frames in which rows of the table act: an
event at its tick, and the moves of the power state that follow it. -/

namespace Sys2Proof.Machine

/-- PSTATE as a number (Table 19-11). -/
def PState.code : PState → Nat
  | .deepSleep => 0
  | .standby => 1
  | .ready => 2
  | .run => 3

/-- The power state changes and PSTATE_CHANGED is raised (Table 19-7). -/
def State.setPState (s : State) (p : PState) : State :=
  let old := s.aon.pstate
  if old = p then s
  else ({ s with aon := { s.aon with pstate := p } }).raiseHub 96 (wd (p.code + at_ old.code 2))

/-- A thread is Running or Waiting. -/
def Thread.busy (h : Thread) : Bool := h.st == .running || h.st == .waiting

/-- A thread of the cluster is Running or Waiting. -/
def Cluster.busy (n : Cluster) : Bool := n.thr.toList.any Thread.busy

/-- A channel that is not at rest: not Parked or Off, or with a record, a stream or its generator running (Table 19-2). -/
def Channel.busy (h : Channel) : Bool :=
  (h.st != .off && h.st != .parked) || h.cap.cur.isSome || h.cap.streaming || h.gen.running

/-- Some activity that Ready excludes (Table 19-2). -/
def State.active (s : State) : Bool := s.clus.toList.any Cluster.busy || s.chan.toList.any Channel.busy

/-- The package moves between Ready and Run by itself (R472). -/
def State.settle (s : State) : State :=
  match s.aon.pstate with
  | .ready => if s.active then s.setPState .run else s
  | .run => if s.active then s else s.setPState .ready
  | _ => s

/-- An event row: the hub count comes to its tick, the event acts, and the power state follows. -/
def State.eventAt (s : State) (tk : Nat) (f : State → State) : State := (f (s.advance tk)).settle

/-- An event row whose tick the state holds: due tick `t` of die `d`. -/
def State.dueAt (s : State) (d : Die) (t : Nat) (f : State → State) : State := (f (s.advanceDie d t)).settle

end Sys2Proof.Machine
end

