-- ==== Sys2Proof/Machine/Thread.lean ====
section
/-! DEFINITION. The Lathe thread: issue slots (R245-R247), general registers (R249), operands (R278), the status field
(R280), faults and halts (R272, R271), and waits (R264). -/

namespace Sys2Proof.Machine

/-- Halt causes (Table 9-12). -/
def causeBadOpcode : Byte := 0x01
/-- FETCH_RANGE. -/
def causeFetchRange : Byte := 0x02
/-- DATA_RANGE. -/
def causeDataRange : Byte := 0x03
/-- ALIGN. -/
def causeAlign : Byte := 0x04
/-- WRITE_DENIED. -/
def causeWriteDenied : Byte := 0x05
/-- NO_CHAN. -/
def causeNoChan : Byte := 0x06
/-- STACK_OVF. -/
def causeStackOvf : Byte := 0x07
/-- HOST_STOP. -/
def causeHostStop : Byte := 0x10
/-- CLUSTER_HALT. -/
def causeClusterHalt : Byte := 0x11
/-- DIE_HALT. -/
def causeDieHalt : Byte := 0x12

/-! ## Issue ticks -/

/-- The first issue tick of a thread at or after tick n (R245). -/
def State.issueTick (s : State) (t : Thr) (n : Nat) : Nat :=
  n + ((s.cl t.cl).phase.1 + t.k.1 + 9 - n % 9) % 9

/-- The die tick of a thread. -/
def State.thNow (s : State) (t : Thr) : Nat := s.dt (dieOfCl t.cl)

/-- The tick at which a Running thread issues its next instruction (R247, R264). -/
def State.nextIssue (s : State) (t : Thr) : Nat := s.issueTick t (max (s.thNow t) (s.th t).ready)

/-! ## Registers and operands -/

/-- g(r): g0 reads zero (R249). -/
def Thread.gr (h : Thread) (r : BitVec 4) : Word := if r = 0 then 0 else h.g.get r.toFin

/-- Write g(r): a write to g0 is discarded (R279). -/
def Thread.setG (h : Thread) (r : BitVec 4) (v : Word) : Thread :=
  if r = 0 then h else { h with g := h.g.set r.toNat v r.isLt }

/-- Write the pair g(r), g(r+1), low word first (R279). -/
def Thread.setPair (h : Thread) (r : BitVec 4) (lo hi : Word) : Thread := (h.setG r lo).setG (r + 1) hi

/-- A register of a thread. -/
def State.g (s : State) (t : Thr) (r : BitVec 4) : Word := (s.th t).gr r

/-- Write a register of a thread. -/
def State.setG (s : State) (t : Thr) (r : BitVec 4) (v : Word) : State := s.modTh t fun h => h.setG r v

/-- The value operand V (R278). -/
def State.opV (s : State) (t : Thr) (w : ZWord) : Word := if w.x then w.e else s.g t w.ra

/-- Operand B of the arithmetic instructions (R285). -/
def State.opB (s : State) (t : Thr) (w : ZWord) : Word := if w.x then w.e else s.g t w.rb

/-- LAST takes a status code (R252, R280). -/
def State.setLast (s : State) (t : Thr) (c : Nat) : State := s.modTh t fun h => { h with last := BitVec.ofNat 8 c }

/-! ## Faults and halts -/

/-- TSTATk (Table 9-13). -/
def ThSt.code : ThSt → Nat
  | .idle => 0
  | .running => 1
  | .waiting => 2
  | .ended => 3
  | .halted => 4

/-- The TSTAT word of a thread (Table 9-13). -/
def Thread.tstat (h : Thread) : Word :=
  wd (at_ h.st.code 29 + (if h.st = .halted then at_ h.cause.toNat 16 else 0) + h.pc % 2 ^ 14)

/-- Change a barrier. -/
def State.modBar (s : State) (b : BarRef) (f : Barrier → Barrier) : State :=
  match b with
  | .cluster n i => s.modCl n fun c => { c with bars := c.bars.set i.1 (f (c.bars.get i)) i.2 }
  | .package i => { s with bars := s.bars.set i.1 (f (s.bars.get i)) i.2 }

/-- A barrier. -/
def State.bar (s : State) : BarRef → Barrier
  | .cluster n i => (s.cl n).bars.get i
  | .package i => s.bars.get i

/-- A thread's bit in the mask of a barrier: its number, or its cluster's (R266). -/
def barBit (t : Thr) : BarRef → BitVec 12
  | .cluster _ _ => BitVec.ofNat 12 (2 ^ t.k.1)
  | .package _ => BitVec.ofNat 12 (2 ^ t.cl.1)

/-- A waiting member withdraws its arrival before the last arrival (R267). -/
def State.withdraw (s : State) (t : Thr) (b : BarRef) : State :=
  s.modBar b fun r =>
    if r.release.isSome then r
    else
      let a := r.arrived &&& ~~~barBit t b
      if a = 0 then Barrier.empty else { r with arrived := a }

/-- A thread gives up its wait. -/
def State.dropWait (s : State) (t : Thr) : State :=
  let s := match (s.th t).wait with
    | some w => match w.kind with
      | .sync b _ => s.withdraw t b
      | _ => s
    | none => s
  s.modTh t fun h => { h with wait := none }

/-- A thread halts at tick `tf` with a cause (R271, R272); the channel it serves enters stimulus freeze (R13). -/
def State.halt (s : State) (t : Thr) (cause : Byte) (tf : Nat) : State :=
  let s := (s.dropWait t).modTh t fun h => { h with st := .halted, cause := cause, tfTick := wd tf }
  match thCh t with
  | some c => s.freezeAt c tf
  | none => s

/-- A thread fault (R272): the thread halts, THREAD_FAULT is raised, and the cluster's other threads latch it. -/
def State.threadFault (s : State) (t : Thr) (cause : Byte) : State :=
  let s := s.halt t cause (s.thNow t)
  let s := s.each (thrsOf t.cl) fun u s => if u = t then s else s.latchEvt u 17
  match thCh t with
  | some c => s.chEv c .threadFault (s.th t).tstat
  | none => s.raise (clSrc t.cl 4) 0x120 (s.th t).tstat

/-! ## Issue -/

/-- One instruction of a Running thread at its issue tick (R245, R247): the fetch range (R254), the legality of its word
(R277), the rights of t8 (R281), then its operation. PC names the next sequential instruction while it acts; a fault
leaves no effect but the halt. A thread that is not Running issues nothing (log 3). -/
def State.issue (s : State) (t : Thr) (w : ZWord) (legal tk : Bool) (f : State → Except Byte State) : State :=
  if (s.th t).st != .running then s
  else
    let s := s.advanceDie (dieOfCl t.cl) (s.nextIssue t)
    let n := (s.th t).pc + 1 + b1 w.x
    let r :=
      if 16384 < n then .error causeFetchRange
      else if !legal then .error causeBadOpcode
      else if tk && t.k == 8 then .error causeNoChan
      else f (s.modTh t fun h => { h with pc := n, ready := s.thNow t + 1 })
    (match r with
      | .ok s' => s'
      | .error c => s.threadFault t c).settle

/-- An instruction that cannot fault once issued. -/
def State.issueOk (s : State) (t : Thr) (w : ZWord) (legal : Bool) (f : State → State) : State :=
  s.issue t w legal false fun s => .ok (f s)

/-- A channel instruction of tk that returns a status (R280, R287). -/
def State.issueCh (s : State) (t : Thr) (w : ZWord) (legal : Bool) (f : Ch → State → State × Nat) : State :=
  s.issue t w legal true fun s =>
    match thCh t with
    | some c => let r := f c s; .ok (r.1.setLast t r.2)
    | none => .error causeNoChan

/-! ## Waits -/

/-- Begin a wait at the issue tick (R264). -/
def State.beginWait (s : State) (t : Thr) (k : WaitKind) (timeout : Option Nat) (hit : Option Nat) : State :=
  s.modTh t fun h =>
    { h with st := .waiting, wait := some { kind := k, issued := s.thNow t, timeout := timeout, hit := hit } }

/-- A wait ends with completion tick `c` (R264): the thread runs on from its first issue tick at or after `c`, with
WAITED. -/
def State.endWait (s : State) (t : Thr) (w : Wait) (c : Nat) : State :=
  let n := s.issueTick t (max c (w.issued + 1))
  s.modTh t fun h =>
    { h with st := .running, wait := none, ready := max c (w.issued + 1), waited := min 255 ((n - w.issued) / 9 - 1) }

end Sys2Proof.Machine
end

