-- ==== Sys2Proof/Machine/Flags.lean ====
section
/-! DEFINITION. Flag computations: OVF of the arithmetic instructions (R249, Table 10-5) and the sticky bits of s.status
(Table 9-4). -/

namespace Sys2Proof.Machine

/-- An exact result lies outside the signed 32-bit range. -/
def ovf32 (x : Int) : Bool := decide (x < -2147483648) || decide (2147483647 < x)

/-- The exact signed result of SHL: g(RA) × 2^B. With B ≥ 32 the result 0 differs from it unless g(RA) is 0. -/
def shlOvf (a : Word) (b : Nat) : Bool :=
  if 32 ≤ b then a != 0 else ovf32 (a.toInt * (2 ^ b : Nat))

/-- Sticky bits of s.status: OVF bit 4, CREDIT_WAIT bit 3, PLAN_NEW bit 2, LATE_WAIT bit 0. -/
def stickOvf : Nat := 4
/-- CREDIT_WAIT. -/
def stickCredit : Nat := 3
/-- PLAN_NEW. -/
def stickPlan : Nat := 2
/-- LATE_WAIT. -/
def stickLate : Nat := 0

/-- Set a sticky bit of s.status where `on` holds. -/
def State.stickTh (s : State) (t : Thr) (b : Nat) (on : Bool) : State :=
  if on then s.modTh t fun h => { h with sticky := h.sticky ||| wd (2 ^ b) } else s

/-- Write an arithmetic result and its overflow (R285). -/
def State.putAlu (s : State) (t : Thr) (w : ZWord) (v : Word) (ovf : Bool) : State :=
  (s.setG t w.rd v).stickTh t stickOvf ovf

/-- COND of BR (Table 10-4) on g(RA) and LAST. -/
def condHolds (cond : Nat) (v : Word) (last : Byte) : Bool :=
  match cond with
  | 0 => v == 0
  | 1 => v != 0
  | 2 => v.toInt < 0
  | 3 => 0 ≤ v.toInt
  | 4 => 0 < v.toInt
  | 5 => v.toInt ≤ 0
  | 6 => last == 0
  | _ => last != 0

end Sys2Proof.Machine
end

