-- ==== Sys2Proof/Machine/Words.lean ====
section
/-! DEFINITION. The register words of a cluster: the special registers of a thread (Tables 2-4, 3-12, 4-7, 9-2 to 9-5), the
words of a channel control area and of the cluster block with their write masks (Tables 3-6 to 3-8, 4-2 to 4-10, 5-6,
6-4 to 6-8, 7-6 to 7-9, 8-1, 8-4 to 8-6, 9-9), and where a converter stands in its sequence. -/

namespace Sys2Proof.Machine

/-! ## Sequence position and power of a converter (R111, R116, R125, R139) -/

/-- A physical channel ch(8n + 7) has quiet converters (R124). -/
def State.quiet (s : State) (c : Ch) : Bool := (s.physPos c).1 == 7

/-- Samples of one run of the regular or Style B sequence (R111). -/
def ConvCfg.total (g : ConvCfg) : Nat :=
  (List.range (g.seqLen + 1)).foldl (fun a e => a + fld (g.ents.toList.getD e 0) 22 10 + 1) 0

/-- Samples of the injected sequence (R115). -/
def ConvCfg.injTotal (g : ConvCfg) : Nat :=
  (List.range (g.injLen + 1)).foldl (fun a e => a + fld (g.inj.toList.getD e 0) 22 10 + 1) 0

/-- Sample periods between two sampling instants (R123). -/
def ConvCfg.stride (g : ConvCfg) : Nat := if g.lp then 4 else 1

/-- Sampling instants in the boundary indices from `a` (excluded) to `b` (included), LP counting from `mark` (R123). -/
def ConvCfg.count (g : ConvCfg) (mark a b : Nat) : Nat :=
  if g.lp then (if mark ≤ b then (b - mark) / 4 else 0) - (if mark ≤ a then (a - mark) / 4 else 0) else b - a

/-- The entry that sample number `off` of the sequence belongs to. -/
def ConvCfg.entryAt (g : ConvCfg) (off : Nat) : Nat :=
  let r := (List.range (g.seqLen + 1)).foldl (fun (a : Nat × Option Nat) e =>
    let n := fld (g.ents.toList.getD e 0) 22 10 + 1
    match a.2 with
    | some _ => a
    | none => if a.1 < n then (a.1, some e) else (a.1 - n, none)) (off % max 1 g.total, none)
  r.2.getD 0

/-- A walk of a converter's position: configuration, LP mark, samples taken of the sequence, last boundary index counted,
and whether a calibration step holds the converter. -/
structure PosWalk where
  cfg  : ConvCfg
  mark : Nat
  off  : Nat
  k    : Nat
  hold : Bool
deriving DecidableEq, Repr

/-- The walk goes on to boundary index `k`. -/
def PosWalk.to (w : PosWalk) (k : Nat) : PosWalk :=
  if w.hold then { w with k := max w.k k } else { w with off := w.off + w.cfg.count w.mark w.k k, k := max w.k k }

/-- The sequence entry now converting, or to resume (MSTAT.POS, Table 4-10). Under ILV converter B follows entry 0 of A. -/
def State.convPos (s : State) (c : Ch) (v : Conv) : Nat :=
  let h := s.ch c
  let x := h.conv v
  let kOf := fun t => s.sIdx c t
  let now := kOf (s.now c)
  if h.ilv && v == .b then 0
  else
    let pre := (List.range x.wpos).foldl (fun a e => a + fld (x.wcfg.ents.toList.getD e 0) 22 10 + 1) 0
    let injEnd := fun (g : ConvCfg) (f : Nat) => kOf f + g.injTotal * g.stride
    let w0 : PosWalk :=
      { cfg := x.wcfg, mark := x.wmark, off := pre + x.wtaken, k := match x.winj with
          | some r => max (kOf x.wts) (injEnd x.wcfg r.from_)
          | none => kOf x.wts
        hold := x.wcal }
    let w := x.ops.foldl (fun w o => match o with
      | .inj b f => let w := w.to (kOf b); { w with k := max w.k (injEnd w.cfg f) }
      | .seq b g => let w := w.to (kOf b); { w with cfg := g, mark := kOf b, off := 0, k := kOf b }
      | .calOn b => { w.to (kOf b) with hold := true }
      | .calOff b => { w.to (kOf b) with hold := false }) w0
    let w := if s.quiet c && w.cfg.pdn then
        let e := kOf x.passTill
        { w with k := max w.k (e - w.cfg.total * w.cfg.stride) }.to (min now e)
      else w.to now
    w.cfg.entryAt w.off

/-- The injected sequence is busy: pending or running (R117). -/
def ConvSt.busyAt (x : ConvSt) (t : Nat) : Bool := x.injPend || decide (t < x.injEnd)

/-- POWERED: 0 only for a quiet converter with PDN between passes (R125). -/
def State.convPowered (s : State) (c : Ch) (v : Conv) : Bool :=
  let x := (s.ch c).conv v
  let t := s.now c
  !(s.quiet c && x.cfg.pdn) || x.starting.isSome || decide (t < x.passTill) || x.busyAt t

/-- SPLIT: the interleaved pair is split (R122, R323). -/
def State.convSplit (s : State) (c : Ch) : Bool :=
  let h := s.ch c
  h.ilv && (h.convA.inCal || h.convB.inCal || decide (s.now c < h.convA.splitTill))

/-- MSTAT_A or MSTAT_B (Table 4-10). -/
def State.mstat (s : State) (c : Ch) (v : Conv) : Word :=
  let h := s.ch c
  let x := h.conv v
  x.sticky ||| wd (at_ (min x.rdrop 255) 16 + at_ (b1 (v == .a && s.convSplit c)) 10 + at_ (b1 (x.busyAt (s.now c))) 9
    + at_ (b1 (s.convPowered c v)) 8 + at_ (s.convPos c v) 4 + at_ (b1 h.ilv) 3 + at_ (b1 x.cfg.lp) 2
    + b1 x.cfg.styleB)

/-! ## Special registers -/

/-- s.chan (Table 9-3). -/
def State.sChan (s : State) (t : Thr) : Word :=
  let lp := match thCh t with
    | some c => (c.1, (s.physOf c).1)
    | none => (127, 127)
  wd (at_ (((s.cl t.cl).phase.1 + t.k.1) % 9) 28 + at_ (dieOfCl t.cl).1 26 + at_ (rgOfCl t.cl).1 23 + at_ t.cl.1 19
    + at_ t.k.1 15 + at_ lp.2 8 + lp.1)

/-- Bits 15:5 of s.status (Table 2-4). -/
def State.chStatus (s : State) (c : Ch) : Nat :=
  let h := s.ch c
  at_ h.st.code 13 + at_ (b1 h.frozen) 12 + at_ (b1 (mDry h.mode)) 11 + at_ (b1 (!mForce h.mode)) 10
    + at_ (b1 (mHYST h.mode && !mForce h.mode)) 9 + at_ (b1 h.loop.xoverI) 8 + at_ (b1 (h.loop.law == .hyst)) 7
    + at_ (b1 (h.defMode.isSome || h.defMove.isSome)) 6 + at_ (b1 h.modePend.isSome) 5

/-- s.status (Tables 2-4 and 9-4). -/
def State.sStatus (s : State) (t : Thr) : Word :=
  let h := s.th t
  let ch := match thCh t with
    | some c => s.chStatus c + at_ (b1 (s.physOf c != c)) 1
    | none => 0
  h.sticky ||| wd (at_ h.last.toNat 24 + at_ h.waited 16 + ch)

/-- s.range (Table 3-12). -/
def State.sRange (s : State) (c : Ch) : Word :=
  let h := s.ch c
  let busy := match h.rchg with
    | some r => !r.dead
    | none => false
  h.rSticky ||| wd (at_ (b1 h.foutLimit) 13 + at_ (b1 h.powerupOut) 12 + at_ (b1 h.clrActive) 11 + at_ (b1 (s.outHiz c)) 10
    + at_ (b1 h.outType) 9 + at_ (b1 busy) 8 + at_ h.tgt.1 4 + h.act.1)

/-- s.drop (Table 4-7). -/
def Channel.sDrop (h : Channel) : Word := wd (at_ (min h.convB.drop 0xFFFF) 16 + min h.convA.drop 0xFFFF)

/-- MOVS: the words of special register SEL, low word first (Tables 9-2 and 10-7); t8 reads 0 in s.mode's, s.range's and
s.drop's channel fields (R281). -/
def State.readSpec (s : State) (t : Thr) (sel : Nat) : Word × Word :=
  match sel with
  | 0 => (wd (s.thNow t), wd (s.thNow t / 2 ^ 32))
  | 1 => (s.sChan t, 0)
  | 3 => (s.sStatus t, 0)
  | 6 => ((s.th t).evt, 0)
  | n => match thCh t with
    | some c => (if n = 2 then (s.ch c).mode.setWidth 32 else if n = 4 then s.sRange c else (s.ch c).sDrop, 0)
    | none => (0, 0)

/-- W1C bits of s.status (Table 9-4). -/
def statusW1C : Word := 0x1D

/-- MOVD: special register SEL written with v (Table 9-2, R100, R119, R252, R253). -/
def State.writeSpec (s : State) (t : Thr) (sel : Nat) (v : Word) : State :=
  match sel with
  | 3 => s.modTh t fun h => { h with sticky := h.sticky &&& ~~~(v &&& statusW1C) }
  | 6 => s.modTh t fun h => { h with evt := h.evt &&& ~~~v }
  | 4 => match thCh t with
    | some c => s.modCh c fun h => { h with rSticky := h.rSticky &&& ~~~(v &&& 0xC000) }
    | none => s
  | 5 => match thCh t with
    | some c => s.modCh c fun h =>
      { h with convA := { h.convA with drop := fld v 0 16 }, convB := { h.convB with drop := fld v 16 16 } }
    | none => s
  | _ => s

/-! ## Words of a channel control area -/

/-- The regulated quantity (R153): crossover's own, else the one the force flags name. -/
def Channel.qtyNow (h : Channel) : Qty := if mXover h.mode then h.loop.qty else if mFI h.mode then .i else .v

/-- LSTAT (Table 5-6). -/
def Channel.lstat (h : Channel) : Word :=
  h.loop.sticky ||| wd (at_ h.loop.rejCount 16 + at_ (b1 h.loop.xlimLo) 3 + at_ (b1 (h.qtyNow == .i)) 2
    + at_ (b1 (h.loop.law == .hyst)) 1 + b1 h.loop.running)

/-- Boundaries b with fill ≤ b ≤ t. -/
def State.filled (s : State) (c : Ch) (fill t : Nat) : Nat := if fill ≤ t then s.sIdx c t + 1 - s.idxAt c fill else 0

/-- CAPSTAT (Table 8-6, R226). -/
def State.capstat (s : State) (c : Ch) : Word :=
  let k := (s.ch c).cap
  let v := fld k.stayRun 0 31
  let staying := k.accSince && (if bit k.stayRun 31 then decide (k.nEv < v) else decide (s.now c < k.tAcc + v))
  let filling := k.armed && decide (s.filled c k.fill (s.now c) < k.pre)
  k.sticky ||| wd (at_ k.line.toNat 27 + at_ (b1 k.streaming) 16
    + at_ (b1 ((k.cur.isSome && !k.streaming) || !k.marks.isEmpty)) 12 + at_ (b1 staying) 11 + at_ (b1 filling) 10
    + at_ (b1 k.armed) 9)

/-- ALIAS: f_gen exceeds the loop rate (R206), with the rate of the run, or of the next start while stopped. -/
def State.aliasNow (s : State) (c : Ch) : Bool :=
  let h := s.ch c
  let r := s.rg (rgOf c)
  let mn := if h.gen.running then (h.gen.m, h.gen.n) else (h.gen.rateM, h.gen.rateN)
  decide (r.q * h.D * mn.1 > 4 * mn.2 * r.p)

/-- GSTAT (Table 7-8). -/
def State.gstat (s : State) (c : Ch) : Word :=
  let g := (s.ch c).gen
  let d := fun (o : Option Seg) => match o with
    | some q => q.d.1
    | none => 0
  g.sticky ||| wd (at_ (b1 g.curSlot) 24 + at_ (d g.cur) 20 + at_ (d g.next) 16 + at_ (b1 g.nextReady) 15
    + at_ (b1 g.next.isSome) 14 + at_ (b1 (g.follower == .next)) 13 + at_ (b1 g.jumpPend) 12 + at_ (b1 g.running) 11
    + at_ (b1 g.starving) 10 + at_ (b1 (s.aliasNow c)) 9)

/-- A word of the control area of channel c at offset o (Table 9-8): status and copies from the units, the others as
stored. -/
def State.readCtl (s : State) (c : Ch) (o : Nat) : Word :=
  let h := s.ch c
  match o with
  | 0x108 => s.mstat c .a
  | 0x10C => s.mstat c .b
  | 0x200 => h.lstat
  | 0x400 => h.trip.tstat
  | 0x404 => h.trip.tripTs
  | 0x414 => wd (at_ (ifld 12 (h.trip.thr.get 1)) 16 + ifld 12 (h.trip.thr.get 0))
  | 0x418 => wd (at_ (ifld 12 (h.trip.thr.get 3)) 16 + ifld 12 (h.trip.thr.get 2))
  | 0x41C => wd h.trip.count
  | 0x440 => s.capstat c
  | 0x444 => wd h.cap.pre
  | 0x448 => wd h.cap.lenm1
  | 0x44C => wd h.cap.count
  | 0x450 => h.cap.stay
  | 0x454 => wd h.cap.chunkm1
  | 0x47C => wd h.cap.recSeq
  | 0x480 => wd h.cap.trigIgn
  | 0x484 => wd h.cap.lost
  | 0x504 => s.gstat c
  | 0x508 => wd (at_ (h.gen.rateM - 1) 16 + (h.gen.rateN - 1))
  | 0x50C => wd h.gen.skew
  | 0x518 => wd h.gen.starveCnt
  | 0x51C => h.gen.starveT0
  | 0x520 => h.gen.starveT1
  | 0x524 => h.gen.mkcfg
  | _ => if 0x210 ≤ o ∧ o < 0x210 + 4 * 67 then wi (h.coef.toList.getD ((o - 0x210) / 4) 0) else s.ctl c o

/-- Write mask of a stored word of a control area: bits an ST or a load writes; 0 for read-only and reserved words, and
for reserved bits, which read 0 (R9, R263). -/
def ctlMask (o : Nat) : Word :=
  if o < 0x80 then (if o % 16 = 12 then 0xFFFF003F else 0xFFFFFFFF)
  else if o < 0x98 then 0xFF
  else if o < 0xA0 then 0
  else if o < 0xB0 then (if o = 0xA0 then 0x1F3F else 0xFFFFFFFF)
  else if o < 0x100 then 0
  else if o = 0x100 then 0xFF9F8CF1
  else if o = 0x104 then 0xFF1F8CF1
  else if o < 0x110 then 0
  else if o < 0x1B0 then 0xFFFF0707
  else if o = 0x408 ∨ o = 0x40C then 0xFFFFFFFF
  else if o = 0x410 then 0x3F3F00FF
  else if o = 0x458 then 0xFC00FFFF
  else if o = 0x45C ∨ o = 0x464 ∨ o = 0x468 then 0x00FFFFFF
  else if o = 0x460 then 0xFF00FFFF
  else if 0x46C ≤ o ∧ o < 0x47C then 0x01FFFFFF
  else if o = 0x500 then 0x0FFE03FF
  else if o = 0x510 ∨ o = 0x514 then 0xFFFFFFFF
  else if 0x540 ≤ o ∧ o < 0x640 then (if o % 16 = 0 then 0xFFFFFF00 else 0xFFFFFFFF)
  else 0

/-- MEM_WINDOW after a write that leaves a ring of the channel outside its owner's window (R423). -/
def State.checkRing (s : State) (c : Ch) (side : Bool) : State :=
  if s.ringOk c (if side then s.sring c else s.dring c) then s
  else s.raiseHub 36 (wd (c.1 + at_ (b1 side) 8))

/-- What follows a write to a stored word of a control area at tick t, the sample boundary where it takes effect. -/
def State.ctlEffect (s : State) (c : Ch) (o t : Nat) (changed : Bool) : State :=
  if 0x80 ≤ o ∧ o < 0x98 then (s.refreshGates c).evalTrip c t
  else if 0xA0 ≤ o ∧ o < 0xB0 then s.refreshGates c
  else if o = 0x410 then s.recalcThr c (s.ch c).scaleEntry
  else if o = 0x458 then s.modCh c fun h => if bit (s.ctl c 0x458) 31 then h else { h with strgHigh := false }
  else if 0x46C ≤ o ∧ o < 0x47C then (if changed then s.checkRing c (decide (0x474 ≤ o)) else s)
  else if o = 0x500 then s.modGen c fun g => { g with lineHit := none }
  else s

/-- A write of v to the word at offset o of the control area of channel c (R89, R139, R161, R186, R213, R222, R223, R263).
A word that takes effect at the next sample boundary acts there. -/
def State.writeCtl (s : State) (c : Ch) (o : Nat) (v : Word) : State :=
  let clr := fun (w m : Word) => w &&& ~~~(v &&& m)
  match o with
  | 0x108 => s.modCh c fun h => { h with convA := { h.convA with sticky := clr h.convA.sticky 0x1800 } }
  | 0x10C => s.modCh c fun h => { h with convB := { h.convB with sticky := clr h.convB.sticky 0x1800 } }
  | 0x200 => s.modCh c fun h => { h with loop := { h.loop with sticky := clr h.loop.sticky 0x7F0, rejCount := fld v 16 16 } }
  | 0x400 =>
    (s.modTrip c fun p =>
      { p with sticky := (clr p.sticky 0xF0F00) ||| wd (at_ p.watch.toNat 8) }).evalTrip c (s.now c)
  | 0x41C => s.modTrip c fun p => { p with count := fld v 0 16 }
  | 0x440 => s.modCap c fun k => { k with sticky := clr k.sticky 0xFE0000 }
  | 0x480 => s.modCap c fun k => { k with trigIgn := v.toNat }
  | 0x484 => s.modCap c fun k => { k with lost := v.toNat }
  | 0x504 => s.modGen c fun g => { g with sticky := clr g.sticky 0x1FF }
  | 0x518 => s.modGen c fun g => { g with starveCnt := v.toNat }
  | _ =>
    let m := ctlMask o
    if m = 0 then s
    else
      let old := s.ctl c o
      (s.setCtl c o (v &&& m)).ctlEffect c o (s.bnd c) (old != (v &&& m))

/-! ## Trigger matrix lines (R214, R215) -/

/-- The level of a TLINE source (Table 8-1). -/
def State.srcLevel (s : State) (cfg : Word) : Bool :=
  let i := fld cfg 0 7
  let ch? : Option Ch := if h : i < 96 then some ⟨i, h⟩ else none
  match fld cfg 8 4, ch? with
  | 1, _ => decide (i < 16) && bit s.trgLvl i
  | 2, _ => decide (i < 8) && bit s.pack.driven i
  | 3, some c => (s.ch c).strgHigh
  | 4, some c => bit (s.ch c).gen.mkLvl 0
  | 5, some c => bit (s.ch c).gen.mkLvl 1
  | 6, some c => (s.ch c).pulseAct
  | _, _ => false

/-- A channel marker of the cluster drives line i through MKCFG (R209). -/
def State.markOnLine (s : State) (n : Cl) (i : Nat) : Bool :=
  (chsOfCl n).any fun c =>
    let g := (s.ch c).gen
    (bit g.mkcfg 9 && fld g.mkcfg 4 5 == i && bit g.mkLvl 0) || (bit g.mkcfg 25 && fld g.mkcfg 20 5 == i && bit g.mkLvl 1)

/-- The TLINE word of line i. -/
def State.tline (s : State) (n : Cl) (i : Nat) : Word := memWord (s.cl n).tmem (0x4000 + 4 * i)

/-- The combined level of line i (R215). -/
def State.lineLevel (s : State) (n : Cl) (i : Nat) : Bool := s.srcLevel (s.tline n i) || s.markOnLine n i

/-- Line i takes the level of its sources without an edge (R214). -/
def State.syncLine (s : State) (n : Cl) (i : Nat) : State :=
  let l := s.lineLevel n i
  let m : BitVec 32 := wd (2 ^ i)
  s.modCl n fun k => { k with lines := if l then k.lines ||| m else k.lines &&& ~~~m }

/-! ## The cluster block and the table SRAM -/

/-- SLOTMAP (Table 9-9, R260). -/
def State.slotmap (s : State) (n : Cl) : Word :=
  wd ((chsOfCl n).foldl (fun a c =>
    let g := (s.ch c).gen
    let z := if g.size = 512 then 1 else if g.size = 1024 then 2 else if g.size = 2048 then 3 else 0
    a + at_ z (2 * (c.1 % 8)) + at_ (b1 g.cut) (16 + c.1 % 8)) 0)

/-- A word of the cluster block (Table 9-9). -/
def State.readBlk (s : State) (n : Cl) (o : Nat) : Word :=
  if o = 0xC0 then s.slotmap n
  else if o = 0xC4 then wd (s.cl n).sramCorr
  else if h : 0xE0 ≤ o ∧ o < 0x104 then ((s.cl n).thr.get ⟨(o - 0xE0) / 4, by omega⟩).tstat
  else if h : 0x104 ≤ o ∧ o < 0x128 then ((s.cl n).thr.get ⟨(o - 0x104) / 4, by omega⟩).tfTick
  else memWord (s.cl n).tmem (0x4000 + o)

/-- Write mask of a cluster block word (Tables 8-1, 9-9). -/
def blkMask (o : Nat) : Word :=
  if o < 0x80 then 0xCF7F
  else if o < 0xC0 then (if o % 8 = 0 then 0xC0000000 else 0xFFFFFFFF)
  else 0

/-- The period of timer i: 0 acts as 1 (Table 9-9). -/
def State.tmrPer (s : State) (n : Cl) (i : Nat) : Nat := max 1 (memWord (s.cl n).tmem (0x4084 + 8 * i)).toNat

/-- EN of timer i changes to `en` in a write of tick t (R259). -/
def State.tmrEn (s : State) (n : Cl) (i : Fin 8) (en : Bool) (t : Nat) : State :=
  s.modCl n fun k =>
    let e := if en then (match k.tmr.get i with
        | some x => some x
        | none => some (t + 1 + s.tmrPer n i))
      else none
    { k with tmr := k.tmr.set i.1 e i.2 }

/-- A write to a word of the cluster block (R214, R258, R259). -/
def State.writeBlk (s : State) (n : Cl) (o : Nat) (v : Word) (t : Nat) : State :=
  let m := blkMask o
  if m = 0 then s
  else
    let s := s.modCl n fun k => { k with tmem := memSetWord k.tmem (0x4000 + o) (v &&& m) }
    if o < 0x80 then s.syncLine n (o / 4)
    else if h : o < 0xC0 ∧ o % 8 = 0 ∧ 0x80 ≤ o then s.tmrEn n ⟨(o - 0x80) / 8, by omega⟩ (bit v 31) t
    else s

/-- A word of a cluster's table SRAM (Table 9-7). -/
def State.readTable (s : State) (n : Cl) (o : Nat) : Word :=
  if h : o < 0x4000 then s.readCtl (chOf n ⟨o / 0x800, by omega⟩) (o % 0x800)
  else if o < 0x4400 then s.readBlk n (o - 0x4000)
  else memWord (s.cl n).tmem o

/-- A write of tick t to a word of a cluster's table SRAM below the slot area. -/
def State.writeTable (s : State) (n : Cl) (o : Nat) (v : Word) (t : Nat) : State :=
  if h : o < 0x4000 then s.writeCtl (chOf n ⟨o / 0x800, by omega⟩) (o % 0x800) v
  else if o < 0x4400 then s.writeBlk n (o - 0x4000) v t
  else s.modCl n fun k => { k with tmem := memSetWord k.tmem o v }

end Sys2Proof.Machine
end

