-- ==== Sys2Proof/Machine/ChanCmd.lean ====
section
/-! DEFINITION. The channel and trip instructions (10.6, 10.12), each as one operation that a thread and a CHCMD of the
host share (R56): it judges the channel at the first sample boundary after the present tick, after a trip that takes
effect there (R58), and answers the new state with a status code of Table 10-2. -/

namespace Sys2Proof.Machine

/-- The trip that is under way takes effect first (R58, T10). -/
def State.tripFirst (s : State) (c : Ch) : State := s.tripAt c (s.bnd c)

/-- MODE with word v (R60, R62, R290, Table 2-7). -/
def cmdMode (v : Word) (c : Ch) (s : State) : State × Nat :=
  let s := s.tripFirst c
  let h := s.ch c
  let w := v.extractLsb' 0 8
  match h.st with
  | .off => (s.modCh c fun h => { h with modeStored := some w }, 0)
  | .draining =>
    let s := if h.defMode.isSome then s.chEvAt c .deferredCancelled 0 (s.bnd c) else s
    (s.modCh c fun h => { h with defMode := some w }, 6)
  | _ =>
    if w = h.mode ∧ h.modePend = none then (s, 0)
    else if (h.st = .heel ∨ h.st = .run) ∧ forceBits w ≠ forceBits h.mode then (s.modCh c Channel.reject, 2)
    else (s.modCh c fun h => { h with modePend := some w }, 0)

/-- FORCE SETPOINT (Table 10-9). -/
def cmdSetpoint (v : Word) (c : Ch) (s : State) : State × Nat :=
  let s := s.tripFirst c
  if (s.ch c).st = .off then (s, 1) else (s.modCh c fun h => { h with setpoint := sfld v 0 24 }, 0)

/-- FORCE BASE (Table 10-9). -/
def cmdBase (v : Word) (c : Ch) (s : State) : State × Nat :=
  let s := s.tripFirst c
  if (s.ch c).st = .off then (s, 1) else (s.modCh c fun h => { h with base := sfld v 0 24 }, 0)

/-- FORCE PARKCODE (R77, R78): a first write (R85); the DAC takes it at the next update boundary. -/
def cmdParkcode (v : Word) (c : Ch) (s : State) : State × Nat :=
  let s := s.tripFirst c
  if (s.ch c).st = .off then (s, 1)
  else (((s.stepDisturb c).firstWrite c).modCh c fun h => { h with parkCode := v.extractLsb' 0 18 }, 0)

/-- FORCE CLEARCODE (Table 10-9). -/
def cmdClearcode (v : Word) (c : Ch) (s : State) : State × Nat :=
  let s := s.tripFirst c
  if (s.ch c).st = .off then (s, 1) else (s.modCh c fun h => { h with clearCode := v.extractLsb' 0 18 }, 0)

/-- A list descriptor at table offset o lies where R293 allows. -/
def State.listOk (s : State) (c : Ch) (o : Nat) : Bool :=
  decide (o % 8 = 0) && decide (0x4400 ≤ o) && decide (o + 8 ≤ 0x10000) &&
    decide (o + 8 + 8 * (fld (memWord (s.cl (clOf c)).tmem o) 0 16 + 1) ≤ 0x10000)

/-- FORCE LIST (R293, R295). -/
def cmdList (v : Word) (c : Ch) (s : State) : State × Nat :=
  let s := s.tripFirst c
  let h := s.ch c
  if h.st = .off then (s, 1)
  else if !s.listOk c v.toNat then (s, 0x0E)
  else if mLIST h.mode && h.listRun then (s.modCh c fun h => { h with listNext := some v.toNat }, 0)
  else (s.modCh c fun h => { h with listSel := some v.toNat, listNext := none }, 0)

/-- LIMIT (R288, R168). -/
def cmdLimit (which : Nat) (v : Word) (c : Ch) (s : State) : State × Nat :=
  let s := s.tripFirst c
  let h := s.ch c
  let x := sfld v 0 24
  if h.st = .off then (s, 1)
  else
    let bad := match which with
      | 0 => decide (x < h.vlimL)
      | 1 => decide (h.vlimH < x)
      | 2 => decide (x < h.ilimL)
      | _ => decide (h.ilimH < x)
    if bad then (s, 0x0D)
    else
      let s := s.modCh c fun h => match which with
        | 0 => { h with vlimH := x }
        | 1 => { h with vlimL := x }
        | 2 => { h with ilimH := x }
        | _ => { h with ilimL := x }
      (s.recalcThr c (s.ch c).scaleEntry, 0)

/-- The range entry e of the force block as it stands (Table 3-8). -/
def State.readRange (s : State) (c : Ch) (e : Nat) : RangeEntry :=
  let w := fun i => s.ctl c (16 * e + 4 * i)
  { settle := fld (w 3) 16 16, sensePat := (w 3).extractLsb' 0 6, compScale := (w 2).toNat, senseScale := (w 1).toNat,
    blankLen := fld (w 0) 16 16, mbbDelay := fld (w 0) 8 8, outType := bit (w 0) 7, scaleSel := bit (w 0) 6,
    gatePat := (w 0).extractLsb' 0 6 }

/-- The steps of R97 from S0 = b with the copy `e` of the target entry. -/
def State.rangeStart (s : State) (c : Ch) (n : Fin 8) (e : RangeEntry) (b : Nat) : State :=
  let h := s.ch c
  let change := e.outType != h.outType
  let make := s.nextB c b
  let brk := make + e.mbbDelay
  let rel0 := s.sTick c (s.sIdx c brk + 1 + e.settle)
  let rel := if change && decide (rel0 < b + 1000) then s.sTick c (s.idxAt c (b + 1000)) else rel0
  let ext := decide (b + e.blankLen ≤ brk)
  let closes := h.closed
  let forced := mForce h.mode
  let s := (s.stepDisturb c).firstWrite c
  let s := if closes then s.openEng c else s
  let s := (s.flushDac c).modCh c fun h =>
    { h with
      held := if h.st = .held then h.held else h.dac
      tgt := n, rSticky := if ext then h.rSticky ||| 0x8000 else h.rSticky
      chgOver := if change then some (b + 1000) else h.chgOver
      rhist := ({ s0 := b, rel := none, code := BitVec.ofNat 3 n.1, entry := e } :: h.rhist).take 24
      rchg := some { target := n, entry := e, s0 := b, makeAt := make, breakAt := brk, relAt := rel, made := false,
                     broken := false, closes := closes, forced := forced, oldPat := h.pattern, dead := false } }
  (s.recalcThr c e).openWin c 0 b (if ext then brk + 1 - b else e.blankLen) 0xF

/-- The entry e meets an uncorrectable table SRAM error. -/
def State.rangeBad (s : State) (c : Ch) (e : Nat) : Bool :=
  (s.cl (clOf c)).tblBad.any fun a => decide (ctlOff c (16 * e) ≤ a) && decide (a < ctlOff c (16 * e) + 16)

/-- RANGE e (R96, Table 3-9). -/
def cmdRange (e : Fin 8) (c : Ch) (s : State) : State × Nat :=
  let n := s.readRange c e.1
  let s := s.tripFirst c
  let h := s.ch c
  let busy := match h.rchg with
    | some r => !r.dead
    | none => false
  match h.st with
  | .off => (s, 1)
  | .tripped => (s, 5)
  | .draining => (s, 7)
  | _ =>
    if busy then (s, 0x0B)
    else if n.outType != h.outType && h.closed then (s.modCh c Channel.reject, 2)
    else if s.rangeBad c e.1 then (s, 0x0C)
    else (s.rangeStart c e n (s.bnd c), 0)

/-- The format of parameter offset o of a set admits x (Table 5-3). -/
def setFormat (o : Nat) (x : Int) : Bool :=
  let q15 := decide (-32768 ≤ x) && decide (x ≤ 32767)
  let u4 := decide (0 ≤ x) && decide (x ≤ 15)
  if o ≤ 0x06 then q15
  else if o = 0x07 then u4
  else if o ≤ 0x0C then q15
  else if o = 0x0D then u4
  else if o = 0x0E then decide (0 ≤ x) && decide (x ≤ 1)
  else if o = 0x0F then u4
  else if o ≤ 0x11 then decide (-131072 ≤ x) && decide (x ≤ 131071)
  else if o ≤ 0x13 then decide (0 ≤ x) && decide (x ≤ 32767)
  else false

/-- COEF (band = false) or LAW (band = true) accepts value x at an index (R291, Tables 5-3 and 5-4). -/
def coefOk (band : Bool) (i : Nat) (x : Int) : Bool :=
  let o := if i < 0x20 then i else i - 0x20
  if i < 0x40 then (decide (0x10 ≤ o) == band) && setFormat o x
  else if band then false
  else if i = 0x40 then decide (0 ≤ x) && decide (x ≤ 255)
  else if i = 0x41 ∨ i = 0x42 then decide (-131072 ≤ x) && decide (x ≤ 131071)
  else false

/-- COEF and LAW (R159, R160, Table 5-5): a write of DEC restarts the count of loop periods at the boundary (R143). -/
def State.param (s : State) (band : Bool) (i : Nat) (v : Word) (c : Ch) : State × Nat :=
  let s := s.tripFirst c
  let h := s.ch c
  let willClose := match h.rchg with
    | some r => r.closes
    | none => false
  if h.st = .off then (s, 1)
  else if h.closed || willClose then (s.modCh c Channel.reject, 2)
  else if !coefOk band i v.toInt then (s, 0x13)
  else
    let k := s.idxAt c (s.bnd c)
    (s.modCh c fun h =>
      { h with
        coef := if p : i < 67 then h.coef.set i v.toInt p else h.coef
        loop := if i = 0x40 then { h.loop with mark := k } else h.loop }, 0)

/-- LAW. -/
def cmdLaw (i : Nat) (v : Word) (c : Ch) (s : State) : State × Nat := s.param true i v c
/-- COEF. -/
def cmdCoef (i : Nat) (v : Word) (c : Ch) (s : State) : State × Nat := s.param false i v c

/-- OPEN (Table 2-7). -/
def cmdOpen (c : Ch) (s : State) : State × Nat :=
  let s := s.tripFirst c
  match (s.ch c).st with
  | .off => (s, 1)
  | .heel => (s.toHeld c (s.bnd c), 0)
  | .run => if mForce (s.ch c).mode then (s.toHeld c (s.bnd c), 0) else (s, 3)
  | .held => (s, 0)
  | .draining => (s, 7)
  | _ => (s, 3)

/-- A HEEL or CLOSE is deferred in Draining; the request that it replaces is cancelled with an event (R62). -/
def State.defer (s : State) (c : Ch) (d : DefMove) : State :=
  let s := if (s.ch c).defMove.isSome then s.chEvAt c .deferredCancelled 0 (s.bnd c) else s
  s.modCh c fun h => { h with defMove := some d }

/-- CLOSE judged in Parked at boundary t (T2, T3). -/
def State.closeParked (s : State) (c : Ch) (t : Nat) : State × Nat :=
  if !s.clrHigh then (s, 0x0A)
  else if mForce (s.ch c).mode then (s.toHeel c t, 0)
  else (s.toRun c t, 0)

/-- CLOSE (Table 2-7, R82). -/
def cmdClose (c : Ch) (s : State) : State × Nat :=
  let s := s.tripFirst c
  match (s.ch c).st with
  | .off => (s, 1)
  | .parked => s.closeParked c (s.bnd c)
  | .held => (s.toRun c (s.bnd c), 0)
  | .tripped => (s, 5)
  | .draining => (s.defer c .close, 6)
  | _ => (s, 0)

/-- HEEL writes its value to the static setpoint and its slew (R163, R289). -/
def State.heelWrite (s : State) (c : Ch) (x : Int) (slew : Nat) : State :=
  s.modCh c fun h => { h with setpoint := x, loop := { h.loop with heelSlew := slew } }

/-- HEEL judged in Parked at boundary t (T2). -/
def State.heelParked (s : State) (c : Ch) (x : Int) (slew t : Nat) : State × Nat :=
  if !s.clrHigh then (s, 0x0A)
  else if !mForce (s.ch c).mode then (s, 4)
  else ((s.heelWrite c x slew).toHeel c t, 0)

/-- HEEL with value v and slew u (Table 2-7, R163, R289). -/
def cmdHeel (v u : Word) (c : Ch) (s : State) : State × Nat :=
  let s := s.tripFirst c
  let x := sfld v 0 24
  let slew := fld u 0 24
  match (s.ch c).st with
  | .off => (s, 1)
  | .parked => s.heelParked c x slew (s.bnd c)
  | .heel => (s.heelWrite c x slew, 0)
  | .run | .held => if mForce (s.ch c).mode then ((s.heelWrite c x slew).toHeel c (s.bnd c), 0) else (s, 4)
  | .tripped => (s, 5)
  | .draining => (s.defer c (.heel x slew), 6)

/-- PARK, with a drain slew unless KEEP (Table 2-7, R289). -/
def cmdPark (slew : Option Nat) (c : Ch) (s : State) : State × Nat :=
  let s := s.tripFirst c
  if (s.ch c).st = .off then (s, 1)
  else
    let s := s.modCh c fun h => { h with drainSlew := slew.getD h.drainSlew }
    match (s.ch c).st with
    | .heel | .run | .held => (s.toDraining c (s.bnd c), 0)
    | .tripped => (s, 5)
    | .draining => (s.defCancel c (s.bnd c), 0)
    | _ => (s, 0)

/-- TRIPCLR (R182, Table 2-7). -/
def cmdTripclr (c : Ch) (s : State) : State × Nat :=
  let s := s.tripFirst c
  let h := s.ch c
  match h.st with
  | .off => (s, 1)
  | .tripped => if (h.trip.active &&& ~~~h.trip.unres) = 0 then (s.toParked c (s.bnd c), 0) else (s, 9)
  | _ => (s, 8)

/-- BLANK (R179): the program window is replaced from the next tick; a comparator that is no longer covered is judged
there. -/
def cmdBlank (mask : BitVec 4) (v : Word) (c : Ch) (s : State) : State × Nat :=
  if (s.ch c).st = .off then (s, 1)
  else
    let t := s.now c + 1
    let len := min 65535 v.toNat
    ((s.modTrip c fun p =>
      { p with win := p.win.set 4 { till := t + len, mask := if len = 0 then 0 else mask } }).evalTrip c t, 0)

/-! ## The rows of the threads -/

/-- MODE (R60). -/
def execMode (t : Thr) (w : ZWord) (s : State) : Host.Outcome State Fault Refusal :=
  .next (s.issueCh t w (legalV w 0) fun c s => cmdMode (s.opV t w) c s)
/-- FORCE SETPOINT (R292). -/
def execForceSetpoint (t : Thr) (w : ZWord) (s : State) : Host.Outcome State Fault Refusal :=
  .next (s.issueCh t w (legalV w 0x7) fun c s => cmdSetpoint (s.opV t w) c s)
/-- FORCE BASE (R292). -/
def execForceBase (t : Thr) (w : ZWord) (s : State) : Host.Outcome State Fault Refusal :=
  .next (s.issueCh t w (legalV w 0x7) fun c s => cmdBase (s.opV t w) c s)
/-- FORCE PARKCODE (R78). -/
def execForceParkcode (t : Thr) (w : ZWord) (s : State) : Host.Outcome State Fault Refusal :=
  .next (s.issueCh t w (legalV w 0x7) fun c s => cmdParkcode (s.opV t w) c s)
/-- FORCE CLEARCODE (R292). -/
def execForceClearcode (t : Thr) (w : ZWord) (s : State) : Host.Outcome State Fault Refusal :=
  .next (s.issueCh t w (legalV w 0x7) fun c s => cmdClearcode (s.opV t w) c s)
/-- FORCE LIST (R293). -/
def execForceList (t : Thr) (w : ZWord) (s : State) : Host.Outcome State Fault Refusal :=
  .next (s.issueCh t w (legalV w 0x7) fun c s => cmdList (s.opV t w) c s)
/-- LIMIT (R288). -/
def execLimit (t : Thr) (w : ZWord) (s : State) : Host.Outcome State Fault Refusal :=
  .next (s.issueCh t w (legalV w 0x3) fun c s => cmdLimit (ff w 0 2) (s.opV t w) c s)

/-- The ENTRY field of RANGE. -/
def fEntry (w : ZWord) : Fin 8 := ⟨ff w 0 3, by unfold ff fld; omega⟩

/-- RANGE (R96). -/
def execRange (t : Thr) (w : ZWord) (s : State) : Host.Outcome State Fault Refusal :=
  .next (s.issueCh t w (legalF w false false false 0x7) fun c s => cmdRange (fEntry w) c s)
/-- LAW (R159, R291). -/
def execLaw (t : Thr) (w : ZWord) (s : State) : Host.Outcome State Fault Refusal :=
  .next (s.issueCh t w (legalCoef w) fun c s => cmdLaw (ff w 0 7) (s.opV t w) c s)
/-- COEF (R159, R291). -/
def execCoef (t : Thr) (w : ZWord) (s : State) : Host.Outcome State Fault Refusal :=
  .next (s.issueCh t w (legalCoef w) fun c s => cmdCoef (ff w 0 7) (s.opV t w) c s)
/-- OPEN (Table 2-7). -/
def execOpenLoop (t : Thr) (w : ZWord) (s : State) : Host.Outcome State Fault Refusal :=
  .next (s.issueCh t w (legalF w false false false 0) fun c s => cmdOpen c s)
/-- CLOSE (Table 2-7). -/
def execCloseLoop (t : Thr) (w : ZWord) (s : State) : Host.Outcome State Fault Refusal :=
  .next (s.issueCh t w (legalF w false false false 0) fun c s => cmdClose c s)
/-- HEEL (R163): value E or g(RA), slew g(RB). -/
def execHeel (t : Thr) (w : ZWord) (s : State) : Host.Outcome State Fault Refusal :=
  .next (s.issueCh t w (legalHeel w) fun c s => cmdHeel (s.opV t w) (s.g t w.rb) c s)
/-- PARK (Table 2-7, R289). -/
def execPark (t : Thr) (w : ZWord) (s : State) : Host.Outcome State Fault Refusal :=
  .next (s.issueCh t w (legalPark w) fun c s =>
    cmdPark (if ff w 0 1 = 1 then none else some (fld (s.opV t w) 0 18)) c s)
/-- TRIPCLR (R182). -/
def execTripclr (t : Thr) (w : ZWord) (s : State) : Host.Outcome State Fault Refusal :=
  .next (s.issueCh t w (legalF w false false false 0) fun c s => cmdTripclr c s)
/-- BLANK (R179). -/
def execBlank (t : Thr) (w : ZWord) (s : State) : Host.Outcome State Fault Refusal :=
  .next (s.issueCh t w (legalV w 0xF) fun c s => cmdBlank (BitVec.ofNat 4 (ff w 0 4)) (s.opV t w) c s)

end Sys2Proof.Machine
end

