-- ==== Sys2Proof/Machine/AcqCmd.lean ====
section
/-! DEFINITION. Acquisition instructions (10.9, Table 8-7). -/

namespace Sys2Proof.Machine

/-- ARM on a line (R224-R226): the record count restarts, Stay holds no earlier edge, and the fill starts at the boundary
unless a record is open. -/
def cmdArm (line : BitVec 5) (c : Ch) (s : State) : State × Nat :=
  let s := s.tripFirst c
  let h := s.ch c
  let b := s.bnd c
  if h.st = .off then (s, 1)
  else if h.st = .parked then (s, 0x20)
  else if !mCAPT h.mode then (s, 0x21)
  else (s.modCap c fun k =>
    let last := if k.streaming then (k.marks.map (·.last)).foldl max 0 else (k.cur.map (·.last)).getD 0
    { k with
      armed := true, line := line, opened := 0, markNo := 0, accSince := false, nEv := 0
      fill := if (k.cur.isSome && !k.streaming) || !k.marks.isEmpty then s.nextB c last else b }, 0)

/-- ARM off (R224): an open record completes. -/
def cmdArmOff (c : Ch) (s : State) : State × Nat :=
  let s := s.tripFirst c
  if (s.ch c).st = .off then (s, 1) else (s.disarm c, 0)

/-- STAY (R224). -/
def cmdStay (edges : Bool) (v : Word) (c : Ch) (s : State) : State × Nat :=
  let s := s.tripFirst c
  if (s.ch c).st = .off then (s, 1)
  else (s.modCap c fun k => { k with stay := wd (at_ (b1 edges) 31 + fld v 0 31) }, 0)

/-- A length of 0 stands for 2^32 (R303). -/
def len32 (v : Word) : Nat := if v = 0 then 2 ^ 32 else v.toNat

/-- REC P, L, N (R224, R303). -/
def cmdRec (p l n : Word) (c : Ch) (s : State) : State × Nat :=
  let s := s.tripFirst c
  let L := len32 l
  if (s.ch c).st = .off then (s, 1)
  else if L - 1 < p.toNat ∨ (s.dring c).2 < maxArea L then (s, 0x22)
  else if (s.ch c).cap.armed then (s, 0x23)
  else (s.modCap c fun k => { k with pre := p.toNat, lenm1 := L - 1, count := n.toNat }, 0)

/-- STRM c (R224, R303). -/
def cmdStrm (v : Word) (c : Ch) (s : State) : State × Nat :=
  let s := s.tripFirst c
  if (s.ch c).st = .off then (s, 1)
  else if (s.ch c).cap.streaming then (s, 0x23)
  else if (s.dring c).2 < maxArea (len32 v) then (s, 0x22)
  else (s.modCap c fun k => { k with chunkm1 := len32 v - 1 }, 0)

/-- ARM (R224). -/
def execArm (t : Thr) (w : ZWord) (s : State) : Host.Outcome State Fault Refusal :=
  .next (s.issueCh t w (legalArm false w) fun c s => cmdArm ((f17 w).extractLsb' 0 5) c s)
/-- ARM off (R224). -/
def execArmOff (t : Thr) (w : ZWord) (s : State) : Host.Outcome State Fault Refusal :=
  .next (s.issueCh t w (legalArm true w) fun c s => cmdArmOff c s)
/-- STAY (R224). -/
def execStay (t : Thr) (w : ZWord) (s : State) : Host.Outcome State Fault Refusal :=
  .next (s.issueCh t w (legalV w 0x10000) fun c s => cmdStay (bit (f17 w) 16) (s.opV t w) c s)
/-- REC (R224): P, L, N in g(RA), g(RA+1), g(RA+2). -/
def execRecSet (t : Thr) (w : ZWord) (s : State) : Host.Outcome State Fault Refusal :=
  .next (s.issueCh t w (legalRec w) fun c s => cmdRec (s.g t w.ra) (s.g t (w.ra + 1)) (s.g t (w.ra + 2)) c s)
/-- STRM (R303). -/
def execStrm (t : Thr) (w : ZWord) (s : State) : Host.Outcome State Fault Refusal :=
  .next (s.issueCh t w (legalV w 0) fun c s => cmdStrm (s.opV t w) c s)

end Sys2Proof.Machine
end

