-- ==== Sys2Proof/Machine/Arith.lean ====
section
/-! DEFINITION. Arithmetic and logic (10.4) and the register moves MOV and LDI (10.5). -/

namespace Sys2Proof.Machine

/-- An instruction RD := f(g(RA), B) with its overflow (R285). -/
def State.alu (s : State) (t : Thr) (w : ZWord) (mask : BitVec 13) (f : Word → Word → Word × Bool) : State :=
  s.issueOk t w (legalAlu w mask) fun s =>
    let r := f (s.g t w.ra) (s.opB t w)
    s.putAlu t w r.1 r.2

/-- ADD (Table 10-5). -/
def execAdd (t : Thr) (w : ZWord) (s : State) : Host.Outcome State Fault Refusal :=
  .next (s.alu t w 0 fun a b => (a + b, ovf32 (a.toInt + b.toInt)))

/-- SUB. -/
def execSub (t : Thr) (w : ZWord) (s : State) : Host.Outcome State Fault Refusal :=
  .next (s.alu t w 0 fun a b => (a - b, ovf32 (a.toInt - b.toInt)))

/-- MUL. -/
def execMul (t : Thr) (w : ZWord) (s : State) : Host.Outcome State Fault Refusal :=
  .next (s.alu t w 0 fun a b => (a * b, ovf32 (a.toInt * b.toInt)))

/-- SHL. -/
def execShl (t : Thr) (w : ZWord) (s : State) : Host.Outcome State Fault Refusal :=
  .next (s.alu t w 0 fun a b => (if 32 ≤ b.toNat then 0 else a <<< b.toNat, shlOvf a b.toNat))

/-- SHR: L in F13 bit 0. -/
def execShr (t : Thr) (w : ZWord) (s : State) : Host.Outcome State Fault Refusal :=
  .next (s.alu t w 1 fun a b =>
    (if bit w.f13 0 then (if 32 ≤ b.toNat then 0 else a >>> b.toNat)
     else if 32 ≤ b.toNat then (if bit a 31 then 0xFFFFFFFF else 0) else a.sshiftRight b.toNat, false))

/-- AND. -/
def execAnd (t : Thr) (w : ZWord) (s : State) : Host.Outcome State Fault Refusal :=
  .next (s.alu t w 0 fun a b => (a &&& b, false))

/-- OR. -/
def execOr (t : Thr) (w : ZWord) (s : State) : Host.Outcome State Fault Refusal :=
  .next (s.alu t w 0 fun a b => (a ||| b, false))

/-- XOR. -/
def execXor (t : Thr) (w : ZWord) (s : State) : Host.Outcome State Fault Refusal :=
  .next (s.alu t w 0 fun a b => (a ^^^ b, false))

/-- a ≤ b, signed or with U = 1 unsigned. -/
def leU (u : Bool) (a b : Word) : Bool := if u then decide (a.toNat ≤ b.toNat) else decide (a.toInt ≤ b.toInt)

/-- MIN. -/
def execMin (t : Thr) (w : ZWord) (s : State) : Host.Outcome State Fault Refusal :=
  .next (s.alu t w 1 fun a b => (if leU (bit w.f13 0) a b then a else b, false))

/-- MAX. -/
def execMax (t : Thr) (w : ZWord) (s : State) : Host.Outcome State Fault Refusal :=
  .next (s.alu t w 1 fun a b => (if leU (bit w.f13 0) a b then b else a, false))

/-- SAT: NM1 in F13 bits 4:0, U in bit 5. -/
def execSat (t : Thr) (w : ZWord) (s : State) : Host.Outcome State Fault Refusal :=
  .next (s.issueOk t w (legalSat w) fun s =>
    let n := fld w.f13 0 5 + 1
    let a := (s.g t w.ra).toInt
    s.putAlu t w (wi (if bit w.f13 5 then satU n a else satS n a)) false)

/-- MOV (Table 10-6). -/
def execMov (t : Thr) (w : ZWord) (s : State) : Host.Outcome State Fault Refusal :=
  .next (s.issueOk t w (legalR w false true true false 0) fun s => s.setG t w.rd (s.g t w.ra))

/-- LDI (Table 10-6). -/
def execLdi (t : Thr) (w : ZWord) (s : State) : Host.Outcome State Fault Refusal :=
  .next (s.issueOk t w (legalLdi w) fun s => s.setG t w.rd (if w.x then w.e else f17s w))

end Sys2Proof.Machine
end

