-- ==== Sys2Proof/Machine/CalCmd.lean ====
section
/-! DEFINITION. Calibration instructions (10.11, 12.7): CAL, CALGAP and the SYSCAL measurements of a channel. -/

namespace Sys2Proof.Machine

/-- Change the calibration state of a channel. -/
def State.modCal (s : State) (c : Ch) (f : CalSt → CalSt) : State := s.modCh c fun h => { h with cal := f h.cal }

/-- A request of the channel is queued or running (R307). -/
def CalSt.busy (k : CalSt) : Bool := k.req || k.meas.isSome

/-- The outcome word as CAL with RES = 1 reads it (Table 10-17). -/
def CalSt.word (k : CalSt) : Word := k.outcome ||| wd (at_ (b1 k.busy) 19)

/-- A request finishes: the outcome word and CAL_DONE (R307). -/
def State.calDone (s : State) (c : Ch) (code target : Nat) (skewRange : Bool) (resid : Nat) : State :=
  let s := s.modCal c fun k =>
    { k with
      req := if target < 8 then false else k.req
      meas := if target < 8 then k.meas else none
      outcome := wd (at_ code 24 + at_ target 20 + at_ (b1 skewRange) 16 + min resid 0xFFFF) }
  s.chEv c .calDone (s.ch c).cal.word

/-- Trim codes of a target's paths, by place in the order of CFLAGS (Table 12-5). -/
def targetPaths (target : Nat) : List (Fin 8) :=
  match target with
  | 0 => List.finRange 8
  | 1 => [0, 1]
  | 2 => [2, 3]
  | 3 => [4, 5, 6, 7]
  | _ => []

/-- The acknowledged request of the channel in its region's queue (R330). -/
def State.ackedReq (s : State) (c : Ch) : Option EngReq :=
  (s.rg (rgOf c)).queue.find? fun q => q.slot == slotOf16 c && !q.szn && q.acked

/-- A trim moves one LSB toward its new code (R331). -/
def trimStep (v to_ : Int) : Int := if v < to_ then v + 1 else if to_ < v then v - 1 else v

/-- The trim ramp of a channel at a loop-period boundary of tick t (R331): one LSB per trim; when nothing is left to move
the request finishes, with its residuals and, for target 4, SKEW written. -/
def State.trimRamp (s : State) (c : Ch) (t : Nat) : State :=
  match s.ackedReq c with
  | none => s
  | some q =>
    let p := s.ph c
    let dist := (List.finRange 8).foldl (fun m i => max m (p.target.get i - p.trims.get i).natAbs) 0
    let s := if dist = 0 then s else s.modPh c fun p =>
      { p with
        rampLen := if p.ramping then p.rampLen else dist
        trims := Vector.ofFn fun i => trimStep (p.trims.get i) (p.target.get i), ramping := true, rampEnd := wd t }
    let s := s.modPh c fun p => { p with aonTrims := p.trims }
    if dist ≤ 1 then
      let s := s.modPh c fun p => { p with ramping := false }
      let s := s.modRg (rgOf c) fun g => { g with
        queue := g.queue.filter fun r => !(r.slot == slotOf16 c && !r.szn) }
      let worst := match q.result with
        | some r => (targetPaths q.target).foldl (fun m i => max m (r.2.1.getD i.1 0)) 0
        | none => 0
      let s := match q.result with
        | some r =>
          if q.target = 4 then s.modGen c fun g => { g with skew := (r.1.getD 0 0).toNat }
          else s.modPh c fun p => { p with resid := Vector.ofFn fun i =>
            if (targetPaths q.target).contains i then r.2.1.getD i.1 0 else p.resid.get i }
        | none => s
      let skewClip := match q.result with
        | some r => q.target == 4 && bit r.2.2.1 0
        | none => false
      s.calDone c 0 q.target skewClip (if q.target = 4 then 0 else worst)
    else s

/-- CAL of a target (R306, R307): the request joins its region's queue (R325). -/
def cmdCal (target : Nat) (c : Ch) (s : State) : State × Nat :=
  let s := s.tripFirst c
  let h := s.ch c
  if h.st = .off then (s, 1)
  else if h.cal.busy then (s, 0x30)
  else if target = 4 ∧ h.st ≠ .parked then (s, 0x31)
  else
    let s := s.modCal c fun k => { k with req := true, reqTgt := target }
    (s.modRg (rgOf c) fun g => { g with
      queue := g.queue ++ [{ slot := slotOf16 c, szn := false, target := target, run := 0, idx := 0, meas := [],
                             t0 := s.now c, result := none, acked := false, refs := [] }] }, 0)

/-- CALGAP (R308): the window of the channel is replaced; MASK 0 or length 0 closes it. -/
def cmdCalgap (mask : Nat) (v : Word) (c : Ch) (s : State) : State × Nat :=
  let s := s.tripFirst c
  if (s.ch c).st = .off then (s, 1)
  else
    let len := min 65535 v.toNat
    let b := s.bnd c
    let e := s.sTick c (s.idxAt c b + len)
    let set := fun (on : Bool) (x : ConvSt) =>
      { x with gapFrom := if on then b else 0, gapTill := if on then e else 0 }
    (s.modCh c fun h => { h with
      convA := set (mask % 2 = 1 && 0 < len) h.convA, convB := set (mask / 2 % 2 = 1 && 0 < len) h.convB }, 0)

/-- SYSCAL.ZERO and SYSCAL.FULL (R309): CONV, INPUT, K and the applied value F. -/
def State.sysMeas (s : State) (full b isI : Bool) (k : Nat) (f : Int) (c : Ch) : State × Nat :=
  let s := s.tripFirst c
  let h := s.ch c
  if h.st = .off then (s, 1)
  else if h.cal.busy then (s, 0x30)
  else
    let t := s.now c
    (s.modCal c fun q => { q with
      meas := some { full := full, conv := if b then .b else .a, isI := isI, rc := BitVec.ofNat 3 h.act.1, k := k, acc := 0,
                     n := 0, f := f, from_ := t, until_ := s.sTick c (s.sIdx c t + 2 ^ (k + 6)) } }, 0)

/-- SYSCAL.ZERO. -/
def cmdSysZero (b isI : Bool) (k : Nat) (c : Ch) (s : State) : State × Nat := s.sysMeas false b isI k 0 c
/-- SYSCAL.FULL. -/
def cmdSysFull (b isI : Bool) (k : Nat) (v : Word) (c : Ch) (s : State) : State × Nat :=
  s.sysMeas true b isI k (sfld v 0 24) c

/-- A value in a list of pairs by key. -/
def lookupNat {α : Type} (l : List (Nat × α)) (k : Nat) : Option α := (l.find? fun p => p.1 == k).map (·.2)

/-- SYSCAL.APPLY (R310, R335): the pair is installed at the boundary under the next calibration generation, the hub keeps
a copy, and it enters the Pedigree. -/
def cmdSysApply (b isI : Bool) (c : Ch) (s : State) : State × Nat :=
  let s := s.tripFirst c
  let h := s.ch c
  let i := tripleIdx b isI (BitVec.ofNat 3 h.act.1)
  if h.st = .off then (s, 1)
  else match lookupNat h.cal.zero i.1, lookupNat h.cal.full i.1 with
    | some z, some f =>
      let den := f.1 - z.1
      let num := f.2 * 2 ^ 30
      let gain := if den = 0 then -1 else if 0 < den then (2 * num + den).fdiv (2 * den) else (-(2 * num) - den).fdiv (-(2 * den))
      if gain < 0 ∨ 4294967295 < gain then (s, 0x34)
      else
        let g := gain.toNat
        let tick := s.tick + (s.bnd c - s.now c)
        let s := { s with calGen := s.calGen + 1, genAt := tick :: s.genAt }
        let s := s.modPh c fun p =>
          { p with pairs := p.pairs.set i.1 (z.1, g), copies := p.copies.set i.1 (some (z.1, g, s.calGen)) }
        let s := s.modCal c fun q =>
          { q with zero := q.zero.filter fun p => p.1 != i.1, full := q.full.filter fun p => p.1 != i.1 }
        let body := pairItem (s.physOf c).1 i z.1 g s.calGen ++ leBytes 1 c.1 ++ leBytes 3 z.2 ++ leBytes 4 (ifld 32 z.1)
          ++ leBytes 4 (ifld 32 f.1) ++ leBytes 4 (ifld 32 f.2)
        (s.pedQueueAt 0x08 c.1 body .none tick, 0)
    | _, _ => (s, 0x33)

/-- CAL (R307). -/
def execCal (t : Thr) (w : ZWord) (s : State) : Host.Outcome State Fault Refusal :=
  .next (s.issueCh t w (legalCal w) fun c s => cmdCal (ff w 0 4) c s)
/-- CAL with RES = 1 (R306): RD takes the outcome word, with no status. -/
def execCalRes (t : Thr) (w : ZWord) (s : State) : Host.Outcome State Fault Refusal :=
  .next (s.issue t w (legalCalRes w) true fun s =>
    match thCh t with
    | some c => .ok (s.setG t w.rd (s.ch c).cal.word)
    | none => .error causeNoChan)
/-- CALGAP (R308). -/
def execCalgap (t : Thr) (w : ZWord) (s : State) : Host.Outcome State Fault Refusal :=
  .next (s.issueCh t w (legalV w 0x3) fun c s => cmdCalgap (ff w 0 2) (s.opV t w) c s)
/-- SYSCAL.ZERO (R309). -/
def execSyscalZero (t : Thr) (w : ZWord) (s : State) : Host.Outcome State Fault Refusal :=
  .next (s.issueCh t w (legalSysZero w) fun c s => cmdSysZero (bit (f17 w) 2) (bit (f17 w) 3) (ff w 4 5) c s)
/-- SYSCAL.FULL (R309). -/
def execSyscalFull (t : Thr) (w : ZWord) (s : State) : Host.Outcome State Fault Refusal :=
  .next (s.issueCh t w (legalSysFull w) fun c s => cmdSysFull (bit (f17 w) 2) (bit (f17 w) 3) (ff w 4 5) (s.opV t w) c s)
/-- SYSCAL.APPLY (R310). -/
def execSyscalApply (t : Thr) (w : ZWord) (s : State) : Host.Outcome State Fault Refusal :=
  .next (s.issueCh t w (legalSysApply w) fun c s => cmdSysApply (bit (f17 w) 2) (bit (f17 w) 3) c s)

/-- SYSCAL_TIMEOUT (R309): the measurement finishes with TIMEOUT and stores nothing. -/
def execSyscalTimeout (tk : Nat) (c : Ch) (s : State) : Host.Outcome State Fault Refusal :=
  .next (s.eventAt tk fun s =>
    match (s.ch c).cal.meas with
    | some m => if m.until_ ≤ s.now c then s.calDone c 0x28 (if m.full then 9 else 8) false 0 else s
    | none => s)

end Sys2Proof.Machine
end

