-- ==== Sys2Proof/Machine/MeasCmd.lean ====
section
/-! DEFINITION. Measure instructions (10.7): SEQ with its checks (R113, R114), urgent requests (R115-R120), AVG and READ. -/

namespace Sys2Proof.Machine

/-- Change a converter of a channel. -/
def State.modConv (s : State) (c : Ch) (v : Conv) (f : ConvSt → ConvSt) : State :=
  s.modCh c fun h => match v with
    | .a => { h with convA := f h.convA }
    | .b => { h with convB := f h.convB }

/-- The configuration of a converter as its words stand in the measure block (Table 4-2). -/
def State.readCfg (s : State) (c : Ch) (v : Conv) : ConvCfg :=
  let b := match v with
    | .a => (0x100, 0x110, 0x150)
    | .b => (0x104, 0x160, 0x1A0)
  { mcfg := s.ctl c b.1, ents := Vector.ofFn fun i => s.ctl c (b.2.1 + 4 * i.val),
    inj := Vector.ofFn fun i => s.ctl c (b.2.2 + 4 * i.val) }

/-- An entry holds no reserved value: AVG, GAIN and DWELL, `k` 0 Style A regular, 1 Style B, 2 injected (R113). -/
def entryOk (k : Nat) (e : Word) : Bool :=
  let d := fld e 22 10
  decide (fld e 17 5 ≤ 16) && decide (fld e 8 3 ≤ 4) &&
    (if k = 0 then decide (d ≤ 15) else if k = 1 then true else [0, 1, 3, 7, 15].contains d)

/-- Every entry in use is valid (R113). -/
def ConvCfg.entsOk (g : ConvCfg) : Bool :=
  ((g.ents.toList.take (g.seqLen + 1)).all fun e => entryOk (if g.styleB then 1 else 0) e) &&
    (g.styleB || (g.inj.toList.take (g.injLen + 1)).all fun e => entryOk 2 e)

/-- The interleave row of Table 4-5: A's configuration after the SEQ and LP of MCFG_B at the issue tick. -/
def ilvOk (a : ConvCfg) (mcfgB : Word) : Bool := !a.ilv || (!a.styleB && !a.lp && !bit mcfgB 24 && a.seqLen == 0)

/-- CFG_INERT: PDN on a converter that cannot power down, or UTRIG_EN under Style B (Table 4-5). -/
def ConvCfg.inert (g : ConvCfg) (quiet : Bool) : Bool := (g.pdn && !quiet) || (g.styleB && bit g.mcfg 15)

/-- An accepted configuration waits for its boundary (R114); RDROP clears for a converter that the SEQ names. -/
def State.seqSchedule (s : State) (c : Ch) (v : Conv) (g : ConvCfg) (named joint : Bool) (b : Nat) : State :=
  let q := s.quiet c
  s.modConv c v fun x =>
    { x with
      seqPend := some g, seqDue := b, seqJoint := joint, rdrop := if named then 0 else x.rdrop
      sticky := if g.inert q && named then x.sticky ||| 0x800 else x.sticky }

/-- SEQ with CONV bits a, b (R113, R114). -/
def cmdSeq (na nb : Bool) (c : Ch) (s : State) : State × Nat :=
  let ga := s.readCfg c .a
  let gb := s.readCfg c .b
  let s := s.tripFirst c
  let h := s.ch c
  let t := s.bnd c
  let ilvNow := match h.convA.seqPend with
    | some g => g.ilv
    | none => h.ilv
  let ilvAft := if na then ga.ilv else ilvNow
  let aAft := if na then ga else h.convA.seqPend.getD h.convA.cfg
  let endIlv := na && ilvNow && !ga.ilv
  let follow := na && ga.ilv
  let takeB := (nb || endIlv) && !follow
  if h.st = .off then (s, 1)
  else if (na && !ga.entsOk) || (takeB && !gb.entsOk) || (ilvAft && !ilvOk aAft gb.mcfg) then (s, 0x10)
  else if !na && ilvAft then (s, 0)
  else
    let joint := follow || endIlv
    let s := if na then s.seqSchedule c .a ga true joint t else s
    let s := if takeB then s.seqSchedule c .b gb nb joint t
      else if follow then s.seqSchedule c .b h.convB.cfg nb joint t else s
    (s, 0)

/-- An urgent request is dropped (R117). -/
def State.dropUrgent (s : State) (c : Ch) (v : Conv) : State :=
  let s := s.modConv c v fun x => { x with drop := satAdd 0xFFFF x.drop 1 }
  s.chEv c .injDrop (s.ch c).sDrop

/-- An urgent request reaches an idle converter, with `t` the tick from which a boundary counts (R115): a running
calibration step is pre-empted (Table 4-6), and a quiet converter that is powered down starts up for 400 ns (R125). -/
def State.acceptUrgent (s : State) (c : Ch) (v : Conv) (t : Nat) : State :=
  let up := s.convPowered c v
  let b := s.sTick c (s.idxAt c t)
  let d := if up then b else s.sTick c (s.idxAt c (t + 200))
  (s.stepUrgent c v).modConv c v fun x => { x with injPend := true, injFrom := d }

/-- The converter whose injected sequence a request to v uses: the pair's is that of A (R120). -/
def State.injConv (s : State) (c : Ch) (v : Conv) : Conv := if (s.ch c).ilv then .a else v

/-- INJ (R112, R117, R120, Table 10-11). -/
def cmdInj (v : Conv) (c : Ch) (s : State) : State × Nat :=
  let s := s.tripFirst c
  let u := s.injConv c v
  let x := (s.ch c).conv u
  if (s.ch c).st = .off then (s, 1)
  else if x.cfg.styleB then (s, 0x11)
  else if x.busyAt (s.now c) then (s.dropUrgent c u, 0x12)
  else (s.acceptUrgent c u (s.now c + 1), 0)

/-- AVG (R131, R298): the entry's AVG field in the measure block, and k from its next interval. -/
def cmdAvg (v : Conv) (e : Fin 16) (k : Nat) (c : Ch) (s : State) : State × Nat :=
  let s := s.tripFirst c
  let o := (match v with | .a => 0x110 | .b => 0x160) + 4 * e.1
  if (s.ch c).st = .off then (s, 1)
  else if 16 < k then (s, 0x10)
  else
    let w := s.ctl c o
    let s := s.setCtl c o ((w &&& ~~~((0x1F : Word) <<< 17)) ||| (wd k <<< 17))
    (s.modConv c v fun x => { x with knext := x.knext.set e.1 k }, 0)

/-- Conversion of a CONV bit. -/
def convOf (b : Bool) : Conv := if b then .b else .a

/-- The ENTRY field of AVG. -/
def fAvgEntry (w : ZWord) : Fin 16 := ⟨ff w 1 4, by unfold ff fld; omega⟩

/-- SEQ (R113). -/
def execSeq (t : Thr) (w : ZWord) (s : State) : Host.Outcome State Fault Refusal :=
  .next (s.issueCh t w (legalSeq w) fun c s => cmdSeq (bit (f17 w) 0) (bit (f17 w) 1) c s)
/-- INJ (R120). -/
def execInj (t : Thr) (w : ZWord) (s : State) : Host.Outcome State Fault Refusal :=
  .next (s.issueCh t w (legalF w false false false 0x1) fun c s => cmdInj (convOf (bit (f17 w) 0)) c s)
/-- AVG (R131). -/
def execAvg (t : Thr) (w : ZWord) (s : State) : Host.Outcome State Fault Refusal :=
  .next (s.issueCh t w (legalF w false false false 0x3FF) fun c s =>
    cmdAvg (convOf (bit (f17 w) 0)) (fAvgEntry w) (ff w 5 5) c s)

/-- A result register by the number of R135. -/
def Channel.resReg (h : Channel) (r : Nat) : ResReg := h.res.toList.getD r .reset

/-- READ (R137, R298): both halves, with no status and no effect on the snapshot. -/
def execRead (t : Thr) (w : ZWord) (s : State) : Host.Outcome State Fault Refusal :=
  .next (s.issue t w (legalRead w) true fun s =>
    match thCh t with
    | some c =>
      let r := (s.ch c).resReg (ff w 0 6)
      .ok (s.modTh t fun h => h.setPair w.rd r.res r.tstamp)
    | none => .error causeNoChan)

end Sys2Proof.Machine
end

