-- ==== Sys2Proof/Machine/LoopEv.lean ====
section
/-! DEFINITION. The loop engine's rows (05): the loop-period boundary with the stimulus combiner (R46, R294), the drain
ramp (R59) and the pending mode word (R60), and the computation of one loop period (R147-R157, R163, R164). -/

namespace Sys2Proof.Machine

/-! ## Setpoint lists (R293-R296) -/

/-- An uncorrectable error stands in the eight bytes at table offset o. -/
def State.tblBad8 (s : State) (c : Ch) (o : Nat) : Bool :=
  (s.cl (clOf c)).tblBad.any fun a => decide (o ≤ a) && decide (a < o + 8)

/-- Entry `i` of the list whose descriptor is at offset `o`: VALUE and DUR. -/
def State.listEntry (s : State) (c : Ch) (o i : Nat) : Int × Nat :=
  let m := (s.cl (clOf c)).tmem
  (sfld (memWord m (o + 8 + 8 * i)) 0 24, max 1 (memWord m (o + 12 + 8 * i)).toNat)

/-- Entry `i` of the list at `o` begins: its value, or after a bad read the last one, the static setpoint at entry 0
(R296). -/
def State.listBegin (s : State) (c : Ch) (o i : Nat) : State :=
  let e := s.listEntry c o i
  let bad := s.tblBad8 c (o + 8 + 8 * i)
  s.modCh c fun h =>
    { h with
      listSel := some o, listIdx := i, listLeft := e.2 - 1, listRun := true
      listVal := if bad then (if i = 0 then h.setpoint else h.listVal) else e.1 }

/-- One loop period of the selected list at boundary t (R294, R295); an entry boundary is a pulse start of kind 2. -/
def State.listStep (s : State) (c : Ch) (t : Nat) : State :=
  let h := s.ch c
  let go := fun (o i : Nat) => (s.listBegin c o i).pulseTrigger c 2 t
  if !h.listRun then
    match h.listSel with
    | some o => go o 0
    | none => s
  else if 0 < h.listLeft then s.modCh c fun h => { h with listLeft := h.listLeft - 1 }
  else match h.listNext with
    | some o => (s.modCh c fun h => { h with listNext := none }).listBegin c o 0 |>.pulseTrigger c 2 t
    | none => match h.listSel with
      | some o =>
        let d := memWord (s.cl (clOf c)).tmem o
        if h.listIdx < fld d 0 16 then go o (h.listIdx + 1) else if bit d 16 then go o 0 else s
      | none => s

/-- list_value of R46: without a list, the static setpoint (R294). -/
def Channel.listValue (h : Channel) : Int := if h.listRun then h.listVal else h.setpoint

/-! ## The combiner -/

/-- dds_value at boundary t (R205, R207): it is kept as the last value, with GEN_SAT. -/
def State.ddsStep (s : State) (c : Ch) (t : Nat) : State × Int :=
  let g := (s.ch c).gen
  if g.running then
    let r := g.resample t
    (s.modGen c fun g => { g.stick 3 r.2 with dds := r.1 }, r.1)
  else (s, if g.xs.isEmpty then s.startValue c else g.dds)

/-- The target of a Heel ramp (R164 step 1). -/
def State.heelTarget (s : State) (c : Ch) : Int :=
  let h := s.ch c
  if mPULSE h.mode then h.base
  else
    let l := match h.listNext, h.listSel with
      | some o, _ => (s.listEntry c o 0).1
      | none, some o => (s.listEntry c o 0).1
      | none, none => h.setpoint
    satS 24 ((if mLIST h.mode then l else h.setpoint) + if mDDS h.mode then s.startValue c else 0)

/-- The stimulus combiner at boundary t (R46): setpoint24 in a channel whose stimulus runs; in Heel the ramp's target;
elsewhere the last setpoint, and the base level under PULSE in stimulus freeze (Table 1-2). -/
def State.combine (s : State) (c : Ch) (t : Nat) : State × Int :=
  let h := s.ch c
  if h.stimRuns then
    let s := if mLIST h.mode then s.listStep c t else s
    let d := if mDDS h.mode then s.ddsStep c t else (s, 0)
    let s := d.1
    let h := s.ch c
    let term := (if mLIST h.mode then h.listValue else h.setpoint) + d.2
    let stim := satS 24 term
    let s := s.modLoop c fun l => l.stick 9 (stim != term)
    (s, if mPULSE h.mode && !h.pulseAct then h.base else stim)
  else if h.st == .heel || h.stimAt.isSome then (s, s.heelTarget c)
  else if h.frozen && mPULSE h.mode then (s, h.base)
  else (s, h.loop.sp)

/-! ## The loop-period boundary -/

/-- The mode word's boundary (R41, R60): the pending word takes effect, or is discarded and counted. -/
def State.modeBoundary (s : State) (c : Ch) (t : Nat) : State :=
  let h := s.ch c
  match h.modePend with
  | none => s
  | some w =>
    if (h.st == .heel || h.st == .run) && forceBits w != forceBits h.mode then
      s.modCh c fun h => { h with modePend := none }.reject
    else s.applyMode c w t

/-- A deferred HEEL or CLOSE performed at boundary b as in Parked (R62 step 2). -/
def State.deferredMove (s : State) (c : Ch) (d : DefMove) (b : Nat) : State :=
  match d with
  | .heel v u => (s.heelParked c v u b).1
  | .close => (s.closeParked c b).1

/-- The end of a drain at boundary b (R59 steps 4 and 5): T9, then the deferred requests and RESTARTED (R62), or Off
(T14). -/
def State.drainEnd (s : State) (c : Ch) (b : Nat) : State :=
  let h := s.ch c
  let s := s.toParked c b
  if h.goOff then (s.defCancel c b).toOff c b
  else if h.defMode.isNone && h.defMove.isNone then s
  else
    let s := s.modCh c fun h => { h with defMode := none, defMove := none }
    let s := match h.defMode with
      | some w => s.applyMode c w b
      | none => s
    let b2 := s.nextB c b
    let s := match h.defMove with
      | some d => s.deferredMove c d b2
      | none => s
    s.chEvAt c .restarted 0 b2

/-- `v` moved toward `park` by the drain slew; 0 moves at once (R59 step 2). -/
def drainTo (v park : Code) (slew : Nat) : Code :=
  let a : Int := v.toNat
  let p : Int := park.toNat
  if slew = 0 then park
  else BitVec.ofInt 18 (if a < p then min (a + slew) p else max (a - slew) p)

/-- The drain at loop-period boundary t (R59 steps 2 and 3): a ramp step into the queue, or the safe pattern once the ramp
has reached the park code. -/
def State.drainStep (s : State) (c : Ch) (t : Nat) : State :=
  let h := s.ch c
  if h.st != .draining || h.safeStep || t ≤ h.loop.liveFrom then s
  else if h.held = h.parkCode then
    let s := ((s.modCh c fun h => { h with safeStep := true }).refreshGates c).gateWin c t
    if h.work.blankLen = 0 then s.drainEnd c t else s
  else
    let v := drainTo h.held h.parkCode h.drainSlew
    s.modCh c fun h => { h with held := v }.enqueue (s.now c) v

/-- A loop period ends at boundary t: a running loop engine keeps it for its computation (R144, R146). -/
def State.pushPeriod (s : State) (c : Ch) (t : Nat) (sp : Int) : State :=
  s.modCh c fun h =>
    let l := { h.loop with sp := sp }
    if l.running && decide (l.liveFrom ≤ t) then
      let e := h.scaleEntry
      { h with loop := { l with flight := l.flight ++
          [{ tick := t, sp := sp, heel := h.st == .heel, mode := h.mode, iH := e.scaleComp false h.ilimH,
             iL := e.scaleComp false h.ilimL, live := true }] } }
    else { h with loop := l }

/-- The actions of one loop-period boundary of tick t, in the order: trip, mode word, drain, stimulus, period, stream,
generator start, trim ramp (R41, R46, R57-R60, R143, R237, R331). -/
def State.loopBoundary (s : State) (c : Ch) (t : Nat) : State :=
  let s := s.tripAt c t
  let s := s.modLoop c fun l => { l with lastB := t }
  let s := match (s.ch c).stimAt with
    | some x => if x < t then (s.modCh c fun h => { h with stimAt := none }).stimFollow c t else s
    | none => s
  let s := (s.modeBoundary c t).drainStep c t
  let r := s.combine c t
  (((r.1.pushPeriod c t r.2).streamCheck c).genArm c t).trimRamp c t

/-- A channel's sample clock runs: its region is powered and its PLL locked (R39, R15). -/
def State.clocked (s : State) (c : Ch) : Bool := s.rgOn c && (s.rg (rgOf c)).clkOk && (s.ch c).st != .off

/-- LOOP_PERIOD_BOUNDARY (R143): the first loop-period boundary that has not come yet. Without a clock none comes
(log 3). -/
def execLoopPeriodBoundary (c : Ch) (s : State) : Host.Outcome State Fault Refusal :=
  .next (if s.clocked c then
      let t := s.loopFrom c (max ((s.ch c).loop.lastB + 1) (s.now c))
      s.dueAt (dieOfCh c) t fun s => s.loopBoundary c t
    else s)

/-! ## Computation of a loop period -/

/-- Parameter o of the set of quantity q (Table 5-3). -/
def Channel.par (h : Channel) (q : Qty) (o : Nat) : Int := h.coef.toList.getD ((if q = .i then 0x20 else 0) + o) 0

/-- Shift left by a parameter. -/
def shl (x n : Int) : Int := x * (2 ^ n.toNat : Nat)

/-- satN with the flag of its clip kept as bit b of a sticky word. -/
def clipS (n b : Nat) (x : Int) (f : Word) : Int × Word :=
  let y := satS n x
  (y, if y = x then f else f ||| wd (2 ^ b))

/-- The linear law (R150): w, the new states, and the sticky flags (5 SAT_ACC, 6 SAT_NOTCH). -/
def linLaw (p : Nat → Int) (z : LawSt) (e : Int) (f : Word) : Int × LawSt × Word :=
  let cs := p 0x07
  let y := clipS 40 5 (shl (p 0 * e) cs + z.z1) f
  let u := clipS 18 5 (asr (y.1 + 2 ^ 14) 15) y.2
  let z1 := clipS 40 5 (shl (p 1 * e + p 4 * u.1) cs + z.z2) u.2
  let z2 := clipS 40 5 (shl (p 2 * e + p 5 * u.1) cs + z.z3) z1.2
  let z3 := clipS 40 5 (shl (p 3 * e + p 6 * u.1) cs) z2.2
  let z' := { z with z1 := z1.1, z2 := z2.1, z3 := z3.1 }
  if p 0x0E = 1 then
    let ns := p 0x0D
    let wa := clipS 40 6 (shl (p 8 * u.1) ns + z.y1) z3.2
    let w := clipS 18 6 (asr (wa.1 + 2 ^ 14) 15) wa.2
    let y1 := clipS 40 6 (shl (p 9 * u.1 + p 0x0B * w.1) ns + z.y2) w.2
    let y2 := clipS 40 6 (shl (p 0x0A * u.1 + p 0x0C * w.1) ns) y1.2
    (w.1, { z' with y1 := y1.1, y2 := y2.1 }, y2.2)
  else (u.1, z', z3.2)

/-- The preload of R154 with its flags (R155: 8 HANDOVER_CLIP for z1 and y1). -/
def preload (p : Nat → Int) (z : LawSt) (H e : Int) (f : Word) : LawSt × Word :=
  let cs := p 0x07
  let z1 := clipS 40 8 (shl H 15 - shl (p 0 * e) cs) f
  let z2 := clipS 40 5 (shl ((p 5 + p 6) * H) cs) z1.2
  let z3 := clipS 40 5 (shl (p 6 * H) cs) z2.2
  let z' := { z with z1 := z1.1, z2 := z2.1, z3 := z3.1 }
  if p 0x0E = 1 then
    let ns := p 0x0D
    let y1 := clipS 40 8 (shl H 15 - shl (p 8 * H) ns) z3.2
    let y2 := clipS 40 6 (shl ((p 0x0A + p 0x0C) * H) ns) y1.2
    ({ z' with y1 := y1.1, y2 := y2.1 }, y2.2)
  else (z', z3.2)

/-- The hysteretic output (R151). -/
def hystOut (p : Nat → Int) (prev e : Int) : Int :=
  if p 0x13 < e then p 0x10 else if e < -(p 0x13) then p 0x11 else prev

/-- The law of this period (Table 5-2); without HYST it is linear. -/
def lawOf (dual : Bool) (old : Law) (wIn wOut e : Int) : Law :=
  let wIn := min wIn wOut
  let a : Int := e.natAbs
  if !dual then .linear
  else match old with
    | .linear => if wOut < a then .hyst else .linear
    | _ => if a < wIn then .linear else .hyst

/-- measured_v and measured_i of the period that ends at tick per (R147); none without a counted sample. -/
def LoopSt.measured (l : LoopSt) (per : Nat) : Option Int × Option Int :=
  match l.acc.find? fun a => a.per == per with
  | some a => (if a.nV = 0 then none else some (rnd a.accV a.nV), if a.nI = 0 then none else some (rnd a.accI a.nI))
  | none => (none, none)

/-- H of R154: the code last applied, as a signed output. -/
def Channel.lastOut (h : Channel) : Int := (h.dac.toNat : Int) - 131072

/-- A regulated quantity of mode m has no counted sample (R148). -/
def isGap (m : BitVec 8) (v : Option Int × Option Int) : Bool := (mFV m && v.1.isNone) || (mFI m && v.2.isNone)

/-- The regulated quantity a loop starts with: voltage under FV and crossover, else current (R148, R153). -/
def firstQty (m : BitVec 8) : Qty := if mFV m then .v else .i

/-- The crossover decision of R153: quantity, current limit low, and whether a hand-over occurs. -/
def xoverStep (q : Qty) (lo : Bool) (spv mv mi iH iL : Int) : Qty × Bool × Bool :=
  match q, lo with
  | .v, _ => if iH ≤ mi then (.i, false, true) else if mi ≤ iL then (.i, true, true) else (.v, lo, false)
  | .i, false => if spv - mv ≤ 0 then (.v, false, true) else (.i, false, false)
  | .i, true => if 0 ≤ spv - mv then (.v, false, true) else (.i, true, false)

/-- One step of a Heel ramp (R164 step 2); slew 0 reaches the target at once (R163). -/
def heelStep (x tgt : Int) (slew : Nat) : Int :=
  if slew = 0 then tgt else if x < tgt then min (x + slew) tgt else max (x - slew) tgt

/-- The first computed period after a change of the law's circumstances: entering starts from voltage law with XOVER_I and
XLIM_LO clear (R153); other force flags than before start from their own quantity; a HYST that was set, or cleared while
the hysteretic law governs, leaves no law (R154). -/
def LoopSt.prepare (l : LoopSt) (m : BitVec 8) : LoopSt :=
  let l := if l.entering then
      { l with law := .none, qty := firstQty m, xoverI := false, xlimLo := false, entering := false }
    else if forceBits l.cmode != forceBits m then { l with law := .none, qty := firstQty m }
    else if mHYST m && !mHYST l.cmode then { l with law := .none }
    else if !mHYST m && l.law == .hyst then { l with law := .none }
    else l
  { l with cmode := m }

/-- The law of quantity q at error e: states, law, output w and sticky flags (R150-R152, R154). -/
def LoopSt.runLaw (l : LoopSt) (p : Nat → Int) (dual : Bool) (q : Qty) (e H : Int) : LoopSt × Int :=
  let z := if q = .v then l.lawV else l.lawI
  let put := fun (l : LoopSt) (z : LawSt) => if q = .v then { l with lawV := z } else { l with lawI := z }
  match lawOf dual l.law (p 0x12) (p 0x13) e with
  | .hyst =>
    let w := hystOut p (if l.law = .hyst then l.hysPrev else H) e
    ({ l with law := .hyst, hysPrev := w }, w)
  | _ =>
    let pre := if l.law = .linear then (z, l.sticky) else preload p z H e l.sticky
    let r := linLaw p pre.1 e pre.2
    ({ put l r.2.1 with law := .linear, sticky := r.2.2 }, r.1)

/-- A period with its measured values: the setpoint of the ramp or the combiner, crossover, law and clamp (R157). It
answers the new loop state, the hand-over if one occurred, the output, and whether a ramp has reached its target. -/
def Channel.runPeriod (h : Channel) (p : Period) (mv mi : Int) : LoopSt × Bool × Int × Bool :=
  let l := h.loop.prepare p.mode
  let H := h.lastOut
  let mq0 := if mFV p.mode then mv else mi
  let hh := heelStep (l.heelH.getD mq0) p.sp l.heelSlew
  let l := if p.heel then { l with heelH := some hh } else l
  let sp := if p.heel then hh else p.sp
  let x := if mXover p.mode then xoverStep l.qty l.xlimLo sp mv mi p.iH p.iL else (firstQty p.mode, l.xlimLo, false)
  let l := if x.2.2 then { l with qty := x.1, xlimLo := x.2.1, xoverI := x.1 == .i, law := .none } else { l with qty := x.1 }
  let q := x.1
  let spq := if mXover p.mode && q == .i then (if l.xlimLo then p.iL else p.iH) else sp
  let par := h.par q
  let e := clipS 16 4 (asr (shl (spq - (if q = .v then mv else mi)) (par 0x0F)) 8) l.sticky
  let r := { l with sticky := e.2 }.runLaw par (mHYST p.mode) q e.1 H
  let out := max (h.coef.get 66) (min r.2 (h.coef.get 65))
  ({ r.1.stick 7 (out != r.2) with last := out }, x.2.2, out, p.heel && decide (hh = p.sp))

/-- DAC code of a signed output (R65). -/
def outCode (x : Int) : Code := BitVec.ofInt 18 (x + 131072)

/-- The computation of period p, ending now (R144, R148, R157): one code into the queue; a finished ramp takes T4 at the
next sample boundary (R164 step 3). -/
def State.computePeriod (s : State) (c : Ch) (p : Period) : State :=
  let h := s.ch c
  let v := h.loop.measured p.tick
  let s := s.modLoop c fun l => { l with acc := l.acc.filter fun a => decide (p.tick < a.per) }
  if !(p.live && h.loop.running) then s
  else if isGap p.mode v then
    let out := if h.loop.entering then h.lastOut else h.loop.last
    (s.modLoop c fun l => l.stick 10 true).modCh c fun h => h.enqueue (s.now c) (outCode out)
  else
    let r := (s.ch c).runPeriod p (v.1.getD 0) (v.2.getD 0)
    let s := (s.modLoop c fun _ => r.1).modCh c fun h => h.enqueue (s.now c) (outCode r.2.2.1)
    let s := if r.2.1 then s.chEv c .xover (wd (b1 r.1.xoverI)) else s
    if r.2.2.2 && h.st == .heel then (let s := s.tripFirst c; if (s.ch c).st == .heel then s.toRun c (s.bnd c) else s)
    else s

/-- LOOP_COMPUTE (R144): the oldest period under way is computed 12 ns after its last sample is delivered, 18 sample
periods after its boundary; without one nothing is computed (log 3). -/
def execLoopCompute (c : Ch) (s : State) : Host.Outcome State Fault Refusal :=
  .next (match (s.ch c).loop.flight with
    | [] => s
    | p :: rest =>
      s.dueAt (dieOfCh c) (s.sTick c (s.sIdx c p.tick + 18) + 6) fun s =>
        (s.modLoop c fun l => { l with flight := rest }).computePeriod c p)

end Sys2Proof.Machine
end

