-- ==== Sys2Proof/Machine/RangeEv.lean ====
section
/-! DEFINITION. Rows of the force path and of Muzzle: DAC updates, holds and change-overs (03), the steps of a range change
(R97), pulses (R91), comparators and windows (06), the end of a drain (R59), and CLR_N (R80-R83). -/

namespace Sys2Proof.Machine

/-- The first sample boundary at or after tick t. -/
def State.bndAt (s : State) (c : Ch) (t : Nat) : Nat := s.sTick c (s.idxAt c t)

/-! ## DAC and output stage -/

/-- Tick t is an update boundary of the channel: 20.5 sample periods after a loop-period boundary, on the first tick at or
after that moment (R66). Before the first boundary of a restarted count every 20.5-period point counts (DEDUCED, log 15). -/
def State.isUpdate (s : State) (c : Ch) (t : Nat) : Bool :=
  let r := s.rg (rgOf c)
  let m := 2 * t * r.p / r.q
  decide (ceilDiv (m * r.q) (2 * r.p) = t) && m % 2 == 1 && decide (41 ≤ m) &&
    (decide ((m - 41) / 2 < (s.ch c).loop.mark) || (s.ch c).isLoopIdx ((m - 41) / 2))

/-- A source of R67 has written the queue before tick t and writes it still: the loop engine, or a drain ramp under way. -/
def Channel.queueFed (h : Channel) (t : Nat) : Bool :=
  h.fed.any (fun f => decide (f < t)) && (h.loop.running || (h.st == .draining && h.held != h.parkCode))

/-- One update of the DAC at boundary t (R66, R68, R78, R101): it takes the code that Table 3-13 selects; from the queue
the next item, or its last code again, which is an underrun while a writer is active. Items that another source hides are
passed over. An item cannot be read in the tick of its write (R401). -/
def State.dacStep (s : State) (c : Ch) (t : Nat) : State :=
  let h := s.ch c
  let item := h.queue.head?.filter fun x => decide (x.1 < t)
  let pop := fun (s : State) => s.modCh c fun h => { h with queue := if item.isSome then h.queue.tail else h.queue }
  match s.foutSrc c with
  | .queue => match item with
    | some x => (pop s).putDac c x.2 t
    | none => if h.queueFed t then s.modCh c fun h => { h with rSticky := h.rSticky ||| 0x4000 } else s
  | .code v => (pop s).putDac c v t
  | .hiz => pop s

/-- DAC_UPDATE (R66). A tick that is no update boundary changes nothing (log 3). -/
def execDacUpdate (tk : Nat) (c : Ch) (s : State) : Host.Outcome State Fault Refusal :=
  .next (s.eventAt tk fun s => if s.clocked c && s.isUpdate c (s.now c) then s.dacStep c (s.now c) else s)

/-- DEGLITCH_HOLD_END (R72): FOUT goes to the code in the DAC. -/
def execDeglitchHoldEnd (c : Ch) (s : State) : Host.Outcome State Fault Refusal :=
  .next (match (s.ch c).hold with
    | some e => s.dueAt (dieOfCh c) e fun s => s.modCh c fun h => { h with fout := h.dac, hold := none }
    | none => s)

/-- The change-over ends (R75): the output is enabled in the new type at the park code, which becomes the frozen code. -/
def State.changeOverEnd (s : State) (c : Ch) (t : Nat) : State :=
  let s := s.modCh c fun h => { h with chgOver := none, outType := h.scaleEntry.outType, held := h.parkCode }
  if s.foutSrc c == .queue then s.putDac c (s.ch c).parkCode t else s.showDac c t

/-- OUT_TYPE_CHANGEOVER_END (R75). -/
def execOutTypeChangeoverEnd (c : Ch) (s : State) : Host.Outcome State Fault Refusal :=
  .next (match (s.ch c).chgOver with
    | some e => s.dueAt (dieOfCh c) e fun s => s.changeOverEnd c e
    | none => s)

/-! ## Range changes (R97, R99) -/

/-- The make step. -/
def State.rangeMake (s : State) (c : Ch) : State :=
  (s.modCh c fun h => { h with rchg := h.rchg.map fun r => { r with made := true } }).refreshGates c

/-- The break step; it ends a change that has no release. -/
def State.rangeBreak (s : State) (c : Ch) : State :=
  (s.modCh c fun h =>
    { h with rchg := match h.rchg with
        | some r => if r.dead then none else some { r with made := true, broken := true }
        | none => none }).refreshGates c

/-- The release at boundary t (R97 step 5): steps still due are done; ACTIVE takes the entry, an opened loop closes, and
force flags that changed since S0 reach the gates (R99). -/
def State.rangeEnd (s : State) (c : Ch) (t : Nat) : State :=
  let s := s.tripAt c t
  match (s.ch c).rchg with
  | none => s
  | some r =>
    if r.dead then s
    else
      let s := if (s.ch c).chgOver.isSome then s.changeOverEnd c t else s
      let s := s.modCh c fun h =>
        { h with
          act := r.target, work := r.entry, rchg := none
          rhist := match h.rhist with
            | x :: l => { x with rel := some t } :: l
            | [] => [] }
      let s := if r.closes then s.closeEng c t else s
      let s := s.refreshGates c
      if mForce (s.ch c).mode != r.forced then s.gateWin c t else s

/-- RANGE_MAKE (R97). -/
def execRangeMake (c : Ch) (s : State) : Host.Outcome State Fault Refusal :=
  .next (match (s.ch c).rchg with
    | some r => if r.made then s else s.dueAt (dieOfCh c) r.makeAt fun s => s.rangeMake c
    | none => s)

/-- RANGE_BREAK (R97). -/
def execRangeBreak (c : Ch) (s : State) : Host.Outcome State Fault Refusal :=
  .next (match (s.ch c).rchg with
    | some r => if r.broken then s else s.dueAt (dieOfCh c) r.breakAt fun s => s.rangeBreak c
    | none => s)

/-- RANGE_RELEASE (R97): a change that was cut short has none (R99). -/
def execRangeRelease (c : Ch) (s : State) : Host.Outcome State Fault Refusal :=
  .next (match (s.ch c).rchg with
    | some r => if r.dead then s else s.dueAt (dieOfCh c) r.relAt fun s => s.rangeEnd c r.relAt
    | none => s)

/-! ## Drain (R59) -/

/-- DRAIN_COMPLETE (R59 steps 4 and 5): the first sample boundary at or after the tick that follows the last one the
gate-change window covers; before the safe pattern nothing ends (log 3). -/
def execDrainComplete (c : Ch) (s : State) : Host.Outcome State Fault Refusal :=
  .next (if (s.ch c).st == .draining && (s.ch c).safeStep then
      let t := s.bndAt c ((s.ch c).trip.win.get 1).till
      s.dueAt (dieOfCh c) t fun s =>
        let s := s.tripAt c t
        if (s.ch c).st == .draining then s.drainEnd c t else s
    else s)

/-! ## Pulses (R91) -/

/-- The tick of the next edge of a running sequence; none when no edge is to come. A period that equals the width keeps
the gate active without a break (R91). -/
def PulseRun.edge (p : PulseRun) (act : Bool) : Option Nat :=
  let per := max p.cfg.period p.cfg.width
  if act then
    if p.cfg.period = 0 || p.cfg.width < per then some (p.t0 + p.cfg.width)
    else match p.left with
      | some n => some (p.t0 + p.cfg.width * (n + 1))
      | none => none
  else if p.left = some 0 then none else some (p.t0 + per)

/-- The edge at its tick t: the gate goes inactive, or the next pulse starts. -/
def State.pulseStep (s : State) (c : Ch) (p : PulseRun) (t : Nat) : State :=
  if (s.ch c).pulseAct then
    let s := s.pulseEdgeFx c false t
    if p.left = some 0 || (decide (p.cfg.period ≤ p.cfg.width) && p.left.isSome) then
      s.modCh c fun h => { h with pulse := none }
    else s
  else
    (s.modCh c fun h => { h with pulse := some { p with t0 := t, left := p.left.map (· - 1) } }).pulseEdgeFx c true t

/-- PULSE_EDGE (R91): the edge that has fallen due by the tick; before it nothing changes (log 3). -/
def execPulseEdge (tk : Nat) (c : Ch) (s : State) : Host.Outcome State Fault Refusal :=
  .next (s.eventAt tk fun s =>
    match (s.ch c).pulse with
    | some p => match p.edge (s.ch c).pulseAct with
      | some e => if e ≤ s.now c then s.pulseStep c p e else s
      | none => s
    | none => s)

/-! ## Comparators and windows (06) -/

/-- COMPARATOR_ACTIVE (R166, R171, R184): ACTIVE sets, UNRESOLVED ends, and the trip logic judges. An unpowered channel
has no comparators. -/
def execComparatorActive (tk : Nat) (c : Ch) (m : Cmp) (s : State) : Host.Outcome State Fault Refusal :=
  .next (s.eventAt tk fun s =>
    if (s.ch c).st == .off then s
    else
      let b := BitVec.ofNat 4 (2 ^ m.1)
      (s.modTrip c fun p => { p with active := p.active ||| b, unres := p.unres &&& ~~~b }).evalCmp c m (s.now c))

/-- COMPARATOR_INACTIVE (R166, R184): ACTIVE and UNRES clear. -/
def execComparatorInactive (tk : Nat) (c : Ch) (m : Cmp) (s : State) : Host.Outcome State Fault Refusal :=
  .next (s.eventAt tk fun s =>
    if (s.ch c).st == .off then s
    else
      let b := BitVec.ofNat 4 (2 ^ m.1)
      (s.modTrip c fun p => { p with active := p.active &&& ~~~b, unres := p.unres &&& ~~~b }).evalCmp c m (s.now c))

/-- BLANKING_WINDOW_END (R180): a comparator that is still active and no longer covered latches, or enters watch. -/
def execBlankingWindowEnd (c : Ch) (win : Fin 5) (s : State) : Host.Outcome State Fault Refusal :=
  .next (let e := ((s.ch c).trip.win.get win).till
    if e = 0 then s else s.dueAt (dieOfCh c) e fun s => s.evalTrip c e)

/-- ENTER_TRIPPED (R174, R57): a latch under way takes T10 at the first sample boundary after it, at or after the tick; without
a sample clock no boundary comes. -/
def execEnterTripped (tk : Nat) (c : Ch) (s : State) : Host.Outcome State Fault Refusal :=
  .next (s.eventAt tk fun s =>
    if (s.ch c).trip.pend && s.clocked c then
      let b := s.bndAt c (max (s.now c) ((s.ch c).trip.pendAt + 1))
      (s.advanceDie (dieOfCh c) b).tripAt c b
    else s)

/-! ## CLR_N (R80-R83) -/

/-- CLR_N acts on a powered channel: the override, and at the first sample boundary the host park and the end of deferred
requests (R69, R81). -/
def State.clrChannel (s : State) (c : Ch) : State :=
  if (s.ch c).st == .off || !s.rgOn c then s
  else
    let b := s.bnd c
    let s := ((s.stepDisturb c).defCancel c b).hostPark c b
    ((s.flushDac c).modCh c fun h => { h with clrActive := true }).showDac c (s.now c)

/-- Hub tick of the first sample boundary of a powered region, the present tick without one (R81). -/
def State.clrTick (s : State) : Nat :=
  (((allChs.filter fun c => (s.ch c).st != .off && s.clocked c).map fun c => s.hubTick c (s.bnd c)).min?).getD s.tick

/-- CLR_N_FALL (R80, R81): a low time below 5 ns is ignored, from 20 ns on it acts; between the two the manual does not say,
and a free value decides (log 6). -/
def execClrNFall (tk : Nat) (ns : Nat) (s : State) : Host.Outcome State Fault Refusal :=
  .next (s.eventAt tk fun s =>
    let acts := decide (20 ≤ ns) || (decide (5 ≤ ns) && bit s.free 0)
    let s := if 5 ≤ ns ∧ ns < 20 then s.used else s
    if acts then
      let s := { s with clrTill := max s.clrTill (s.tick + ceilDiv ns 2) }
      let t := s.clrTick
      ((s.each allChs fun c s => s.clrChannel c).latchAll 25).raiseAt (hubSrc 5) 0x305 0 t
    else s)

/-- CLR_OVERRIDE_END (R83): the first sample boundary at which CLR_N is high and the channel is not Draining. One that a deferred
request has restarted there begins at the park code that its drain reached (R59, R146). -/
def execClrOverrideEnd (tk : Nat) (c : Ch) (s : State) : Host.Outcome State Fault Refusal :=
  .next (s.eventAt tk fun s =>
    if (s.ch c).clrActive && s.clrHigh && (s.ch c).st != .draining && s.clocked c then
      let b := s.bndAt c (s.now c)
      let s := s.advanceDie (dieOfCh c) b
      let s := s.modCh c fun h => { h with clrActive := false }
      if s.foutSrc c == .queue then s.putDac c (s.ch c).parkCode b else s.showDac c b
    else s)

end Sys2Proof.Machine
end

