-- ==== Sys2Proof/Machine/SampleEv.lean ====
section
/-! DEFINITION. The measure path's rows (04): a delivered sample with its correction, intervals, injected results, result
registers and queue, the loop feed, the sample trigger and system calibration; injected sequences that begin; SEQ taking
effect; and the start-up of a quiet converter. -/

namespace Sys2Proof.Machine

/-! ## Result registers and the result queue (R132-R138, R234) -/

/-- A result word (Table 4-8). -/
def resWord (value : Int) (rc : BitVec 3) (rng sat inj part : Bool) : Word :=
  wd (at_ (ifld 24 value) 8 + at_ rc.toNat 5 + at_ (b1 rng) 4 + at_ (b1 sat) 3 + at_ (b1 inj) 2 + at_ (b1 part) 1 + 1)

/-- LANE of a result register in a RES item (R232). -/
def resLane (r : Nat) : Nat := if r < 16 then 0 else if r < 32 then 1 else 2

/-- The sequence number for a side item of an instant: the open or closing record that holds it, 0 in an open stream
between chunks; none when nothing is open there (R134, R234). -/
def State.sideOwner (s : State) (c : Ch) (ts : Nat) : Option Nat :=
  let k := (s.ch c).cap
  match (k.cur.toList ++ k.closing).find? fun r => decide (r.first ≤ ts) && decide (ts ≤ r.last) with
  | some r => some r.seq
  | none => if k.streaming then some 0 else none

/-- The cluster result path takes the result queue's items: RES items of open records and streams (R138, R234). The full
tick of an item is that of the last 2^32 ticks. -/
def State.forwardRes (s : State) (c : Ch) : State :=
  let now := s.now c
  let s1 := s.modCh c fun h => { h with rq := [] }
  s1.each (s.ch c).rq fun x s =>
    let ts := now - (now + 2 ^ 32 - x.tstamp.toNat) % 2 ^ 32
    match s.sideOwner c ts with
    | some q => s.side c q (sideItem (0x05 + at_ (resLane x.tag.toNat) 8 + at_ x.tag.toNat 16) q x.res.toNat x.tstamp.toNat)
    | none => s

/-- A result is written to its register (R135, R136), offered to the result queue (R138), and an injected one raises
INJ_RES. -/
def State.commitRes (s : State) (c : Ch) (r : Fin 40) (w : Word) (ts : Nat) : State :=
  let h := s.ch c
  let g := h.res.get r
  let s := s.modCh c fun h =>
    let g := { g with res := w, tstamp := wd ts, ovr := if g.flag then satAdd 0xFFFF g.ovr 1 else g.ovr }
    { h with res := h.res.set r.1 g r.2 }
  let s := if mCAPT h.mode || mSTRM h.mode then
      if h.rq.length < 32 then
        s.modCh c fun h => { h with rq := h.rq ++ [{ res := w, tstamp := wd ts, tag := BitVec.ofNat 6 r.1 }] }
      else s.modConv c (if r.1 < 16 ∨ (32 ≤ r.1 ∧ r.1 < 36) then .a else .b) fun x => { x with rdrop := satAdd 0xFF x.rdrop 1 }
    else s
  if bit w 2 then s.chEv c .injRes (wd r.1) else s

/-- Register of a regular entry (R135). -/
def regOf (v : Conv) (e : Nat) : Fin 40 := ⟨(if v = .a then 0 else 16) + e % 16, by split <;> omega⟩
/-- Register of an injected entry. -/
def injRegOf (v : Conv) (e : Nat) : Fin 40 := ⟨(if v = .a then 32 else 36) + e % 4, by split <;> omega⟩

/-! ## Intervals (R128, R129, R131) -/

/-- Change an interval of a converter. -/
def State.modIv (s : State) (c : Ch) (v : Conv) (e : Fin 16) (f : Interval → Interval) : State :=
  s.modConv c v fun x => { x with iv := x.iv.set e.1 (f (x.iv.get e)) e.2 }

/-- An open interval with samples closes with a PARTIAL result (R129). -/
def State.closeIv (s : State) (c : Ch) (v : Conv) (e : Fin 16) (ranging : Bool) : State :=
  let i := ((s.ch c).conv v).iv.get e
  if i.n = 0 then s
  else
    let s := s.modIv c v e fun _ => .reset
    s.commitRes c (regOf v e.1) (resWord (rnd i.acc i.n) i.rc ranging i.satf false true) i.ts

/-- Every open interval of a converter closes (R129). -/
def State.closeIvs (s : State) (c : Ch) (v : Conv) (ranging : Bool) : State :=
  s.each (List.finRange 16) fun e s => s.closeIv c v e ranging

/-- Intervals that were open at S0 of a range change close with RANGING once samples from S0 on arrive (R129). -/
def State.closeRanged (s : State) (c : Ch) (v : Conv) (ts : Nat) : State :=
  s.each (List.finRange 16) fun e s =>
    let i := ((s.ch c).conv v).iv.get e
    if i.n ≠ 0 ∧ ((s.ch c).rhist.any fun r => decide (i.ts < r.s0) && decide (r.s0 ≤ ts)) then s.closeIv c v e true else s

/-- A sample enters its entry's interval, which commits at 2^k samples (R128). -/
def State.addIv (s : State) (c : Ch) (v : Conv) (e : Fin 16) (y : Int) (sat : Bool) (rc : BitVec 3) (ts : Nat) : State :=
  let x := (s.ch c).conv v
  let i := x.iv.get e
  let k := if i.n = 0 then x.knext.get e else i.k
  let i' : Interval := { k := k, acc := i.acc + y, n := i.n + 1, satf := i.satf || sat, ts := ts, rc := rc }
  if i'.n = 2 ^ k then
    (s.modIv c v e fun _ => .reset).commitRes c (regOf v e.1) (resWord (rnd i'.acc i'.n) rc false i'.satf false false) ts
  else s.modIv c v e fun _ => i'

/-! ## A sample -/

/-- RANGING, range code and entry of a sample at tick ts (R98). -/
def Channel.rangeAt (h : Channel) (ts : Nat) : Bool × BitVec 3 × RangeEntry :=
  match h.rhist.find? fun r => decide (r.s0 ≤ ts) with
  | some r => (match r.rel with | some x => decide (ts < x) | none => true, r.code, r.entry)
  | none => if h.rhist.isEmpty then (false, BitVec.ofNat 3 h.act.1, h.work) else (false, 0, .reset)

/-- Corrected value of a code (R127): x in 24-bit units, y, and sat. -/
def State.correct (s : State) (c : Ch) (v : Conv) (code : BitVec 16) (entry : Word) (re : RangeEntry) (rc : BitVec 3) :
    Int × Int × Bool :=
  let x : Int := code.toInt * (2 ^ (8 - fld entry 8 3) : Nat)
  let inp := fld entry 0 3
  let p := (s.ph c).pairs.get (tripleIdx (v == .b) (inp == 1) rc)
  let a := asr ((x - p.1) * p.2 + 2 ^ 29) 30
  let y1 := if inp < 2 then satS 24 a else x
  let c1 := decide (inp < 2) && satS 24 a != a
  let b := asr (y1 * re.senseScale + 2 ^ 29) 30
  let named := inp == (if re.scaleSel then 0 else 1)
  (x, if named then satS 24 b else y1,
    code == 0x8000 || code == 0x7FFF || c1 || (named && satS 24 b != b))

/-- LOOP samples of a loop period are summed (R133, R147). -/
def LoopSt.feed (l : LoopSt) (per : Nat) (isI : Bool) (y : Int) : LoopSt :=
  let old := (l.acc.find? fun a => a.per == per).getD { per := per, accV := 0, nV := 0, accI := 0, nI := 0 }
  let a := if isI then { old with accI := old.accI + y, nI := old.nI + 1 } else { old with accV := old.accV + y, nV := old.nV + 1 }
  { l with acc := (a :: l.acc.filter fun b => b.per != per).take 8 }

/-- The sample trigger of the channel follows a sample of its entry (R221). -/
def State.sampleTrig (s : State) (c : Ch) (p : Samp) : State :=
  let w := s.ctl c 0x458
  let named := p.ilv || (bit w 30 == (p.conv == .b) && fld w 26 4 == p.ent)
  if !bit w 31 || p.rng || p.inj || !named then s
  else
    let l := sfld (s.ctl c 0x45C) 0 24
    s.modCh c fun h =>
      { h with strgHigh := if l < p.y then true else if p.y < l - 16 * (fld w 0 16 : Nat) then false else h.strgHigh }

/-- A system measurement counts a sample (R309); with 2^K of them it finishes OK and its value is stored. -/
def State.sysSample (s : State) (c : Ch) (p : Samp) (x : Int) (inp : Nat) : State :=
  match (s.ch c).cal.meas with
  | none => s
  | some m =>
    if m.conv = p.conv ∧ inp = b1 m.isI ∧ m.rc = p.rc ∧ !p.rng ∧ !p.inj ∧ m.from_ < p.ts ∧ p.ts ≤ m.until_ ∧ !(s.ph c).ramping then
      let m := { m with acc := m.acc + x, n := m.n + 1 }
      if m.n < 2 ^ m.k then s.modCal c fun q => { q with meas := some m }
      else
        let i := (tripleIdx (m.conv == .b) m.isI m.rc).1
        let z := rnd m.acc m.n
        let s := s.modCal c fun q =>
          if m.full then { q with full := (i, (z, m.f)) :: q.full.filter fun p => p.1 != i }
          else { q with zero := (i, (z, m.k)) :: q.zero.filter fun p => p.1 != i }
        s.calDone c 0 (if m.full then 9 else 8) false 0
    else s

/-- A regular or Style B sample of entry e of the converter `own` whose sequence it follows (R127, R128, R133-R135). -/
def State.regularSample (s : State) (c : Ch) (own v : Conv) (e : Fin 16) (code : BitVec 16) (ts : Nat) : State :=
  let h := s.ch c
  let w := (h.conv own).wcfg.ents.get e
  let r := h.rangeAt ts
  let k := s.correct c v code w r.2.2 r.2.1
  let inp := fld w 0 3
  let cfg := (h.conv own).wcfg
  let p : Samp := { conv := v, ts := ts, code := code, y := k.2.1, sat := k.2.2, rng := r.1, rc := r.2.1, ent := e.1, inj := false,
                    ilv := cfg.ilv && own == .a }
  let fed := bit w 16 && decide (inp < 2) && !r.1 && !cfg.lp && !(s.quiet c && cfg.pdn)
  let per := s.loopFrom c ts
  let s := if fed then s.modLoop c fun l => l.feed per (inp == 1) k.2.1 else s
  let s := s.sampleTrig c p
  let s := if r.1 then s else s.addIv c own e k.2.1 k.2.2 r.2.1 ts
  (s.capSample c p).sysSample c p k.1 inp

/-- INJ and INJD items of an injected entry (Table 8-10). -/
def injItems (q : Nat) (v : Conv) (j : Nat) (w : Word) (rc : BitVec 3) (first : Nat) (codes : List (BitVec 16)) : List Byte :=
  let n := codes.length
  let pad := codes ++ List.replicate ((8 - n % 8) % 8) 0x8000
  sideItem (0x03 + at_ 2 8 + at_ (b1 (v == .b)) 16 + at_ j 17 + at_ (fld w 0 3) 19 + at_ (fld w 8 3) 22 + at_ rc.toNat 25) q
    (first % 2 ^ 32) n ++ pad.flatMap fun x => leBytes 2 x.toNat

/-- An injected sample of the running sequence (R116, R130): its entry commits after its last sample, and the sequence ends
after its last entry. -/
def State.injSample (s : State) (c : Ch) (v : Conv) (j : InjRun) (code : BitVec 16) (ts : Nat) : State :=
  let h := s.ch c
  let x := h.conv v
  let w := x.wcfg.inj.toList.getD j.idx 0
  let r := h.rangeAt ts
  let k := s.correct c v code w r.2.2 r.2.1
  let p : Samp := { conv := v, ts := ts, code := code, y := k.2.1, sat := k.2.2, rng := r.1, rc := r.2.1, ent := j.idx, inj := true,
                    ilv := x.wcfg.ilv }
  let s := s.capSample c p
  let j := { j with
    taken := j.taken + 1, acc := j.acc + k.2.1, sat := j.sat || k.2.2, rng := j.rng || r.1
    first := if j.taken = 0 then ts else j.first, codes := code :: j.codes }
  if j.taken ≤ fld w 22 10 then s.modConv c v fun x => { x with winj := some j }
  else
    let s := match s.sideOwner c j.first with
      | some q => s.side c q (injItems q v j.idx w r.2.1 j.first j.codes.reverse)
      | none => s
    let next : Option InjRun := if j.idx < x.wcfg.injLen then
        some { j with idx := j.idx + 1, taken := 0, acc := 0, sat := false, rng := false, first := 0, codes := [] } else none
    let s := s.modConv c v fun x => { x with winj := next }
    s.commitRes c (injRegOf v j.idx) (resWord (rnd j.acc j.taken) r.2.1 j.rng j.sat true false) ts

/-! ## Changes that the samples under way meet -/

/-- One change of a converter's sampling reaches the delivered samples (R114, R116, R323). -/
def State.convOp (s : State) (c : Ch) (v : Conv) (o : ConvOp) : State :=
  match o with
  | .inj _ f => s.modConv c v fun x =>
    { x with winj := some { from_ := f, idx := 0, taken := 0, acc := 0, sat := false, rng := false, first := 0, codes := [] } }
  | .seq b g => (s.closeIvs c v false).modConv c v fun x => { x with wcfg := g, wmark := s.idxAt c b, wpos := 0, wtaken := 0, winj := none }
  | .calOn _ => s.modConv c v fun x => { x with wcal := true }
  | .calOff _ => s.modConv c v fun x => { x with wcal := false }

/-- The boundary of a change. -/
def ConvOp.bound : ConvOp → Nat
  | .inj b _ | .seq b _ | .calOn b | .calOff b => b

/-- The changes of a converter whose boundaries lie before tick ts act, in order. -/
def State.convOps (s : State) (c : Ch) (v : Conv) (ts : Nat) : State :=
  let l := ((s.ch c).conv v).ops
  let s := s.each (l.filter fun o => decide (o.bound < ts)) fun o s => s.convOp c v o
  s.modConv c v fun x => { x with ops := x.ops.filter fun o => !decide (o.bound < ts) }

/-- The position of a converter's sequence after one regular sample (R111). -/
def ConvSt.advancePos (x : ConvSt) : ConvSt :=
  if x.wtaken < fld (x.wcfg.ents.toList.getD x.wpos 0) 22 10 then { x with wtaken := x.wtaken + 1 }
  else { x with wtaken := 0, wpos := if x.wpos < x.wcfg.seqLen then x.wpos + 1 else 0 }

/-- Entry now converting. -/
def ConvSt.entry (x : ConvSt) : Fin 16 := ⟨x.wpos % 16, by omega⟩

/-- The configuration of a converter that its sample of instant ts was taken with, and its mark (R114). -/
def State.convAt (s : State) (c : Ch) (v : Conv) (ts : Nat) : ConvCfg × Nat :=
  let x := (s.ch c).conv v
  x.ops.foldl (fun p o => match o with
    | .seq b g => if b < ts then (g, s.idxAt c b) else p
    | _ => p) (x.wcfg, x.wmark)

/-- A code of sampling instant ts is delivered (R102, R127): the changes before it, intervals that a range change closed,
and the sample as injected, regular, or of no regular use (the split period of R122, a calibration step). -/
def State.sampleIn (s : State) (c : Ch) (v : Conv) (code : BitVec 16) (ts : Nat) : State :=
  let s := s.forwardRes c
  let s := if v == .b && (s.convAt c .a ts).1.ilv then s.convOps c .a ts else s
  let s := (s.convOps c v ts).modConv c v fun x => { x with wts := ts }
  let x := (s.ch c).conv v
  let follows := v == .b && (s.ch c).convA.wcfg.ilv
  let own := if follows then .a else v
  let s := s.closeRanged c own ts
  if x.wcal then s
  else if follows then s.regularSample c .a .b 0 code ts
  else match x.winj with
    | some j => if ts ≤ j.from_ then s else s.injSample c v j code ts
    | none =>
      let s := s.regularSample c v v x.entry code ts
      s.modConv c v fun x => { x.advancePos with lossCause := 0 }

/-- The period that begins at boundary b lies in a split of an interleaved pair after its first (R122). -/
def State.inSplit (s : State) (c : Ch) (b : Nat) : Bool :=
  (s.ch c).convA.splits.any fun w => decide (w.1 < b) && decide (b < w.2)

/-- Delivery tick of the code of instant ts, none where ts is no sampling instant of the converter (R102, R121, R123): 18
sample periods later, or 72 in low-power mode, which samples at every fourth boundary; B of an interleaved pair samples half a
period after A, or at the boundaries while the pair is split (DEDUCED, log 23). -/
def State.deliverAt (s : State) (c : Ch) (v : Conv) (ts : Nat) : Option Nat :=
  let g := s.convAt c v ts
  let r := s.rg (rgOf c)
  let k := s.sIdx c ts
  let half := fun (m : Nat) => ceilDiv ((2 * k + m) * r.q) (2 * r.p)
  let onB := s.sTick c k == ts
  if v == .b && (s.convAt c .a ts).1.ilv then
    if s.inSplit c (s.sTick c k) then (if onB then some (s.sTick c (k + 18)) else none)
    else if half 1 = ts then some (half 37) else none
  else if onB && (!g.1.lp || (k + 4 - g.2 % 4) % 4 == 0) then some (s.sTick c (k + if g.1.lp then 72 else 18))
  else none

/-- A quiet converter with PDN samples only in a pass or an injected sequence (R125). -/
def State.samplesAt (s : State) (c : Ch) (v : Conv) (ts : Nat) : Bool :=
  let x := (s.ch c).conv v
  !(s.quiet c && x.cfg.pdn) || decide (ts ≤ max x.passTill x.injEnd)

/-- SAMPLE_DELIVERED (R127). A tick that is no new sampling instant of a clocked converter changes nothing (log 3). -/
def execSampleDelivered (ts : Nat) (c : Ch) (v : Conv) (code : BitVec 16) (s : State) : Host.Outcome State Fault Refusal :=
  .next (match s.deliverAt c v ts with
    | some d =>
      if s.clocked c && decide (((s.ch c).conv v).wts < ts) && s.samplesAt c v ts then
        s.dueAt (dieOfCh c) d fun s => s.sampleIn c v code ts
      else s
    | none => s)

/-! ## Injected sequences and SEQ -/

/-- Boundary index of sampling instant n (from 1) after boundary index k, LP counting from `mark` (R123). -/
def ConvCfg.instant (g : ConvCfg) (mark k n : Nat) : Nat :=
  if g.lp then (let f := k + 1 + (4 - (k + 1 - mark) % 4) % 4; f + 4 * (n - 1)) else k + n

/-- An injected sequence begins at boundary b (R116, R122): its first entry one sample period later in an interleaved pair,
which splits until the first boundary after the last injected sample. -/
def State.injBegin (s : State) (c : Ch) (v : Conv) (b : Nat) : State :=
  let h := s.ch c
  let x := h.conv v
  let f := if h.ilv then s.nextB c b else b
  let kEnd := x.cfg.instant x.mark (s.sIdx c f) x.cfg.injTotal
  let e := s.sTick c kEnd
  s.modConv c v fun x =>
    { x with
      injPend := false, injEnd := e, splitTill := if h.ilv then s.sTick c (kEnd + 1) else x.splitTill
      splits := if h.ilv then x.splits.filter (fun w => decide (b ≤ w.2 + 400)) ++ [(b, s.sTick c (kEnd + 1))] else x.splits
      passTill := if b < x.passTill then s.sTick c (s.idxAt c x.passTill + x.cfg.injTotal * x.cfg.stride) else x.passTill
      ops := x.ops ++ [.inj b f] }

/-- INJ_SEQUENCE_BEGIN (R115, R116): a pending request at its boundary or, where a calibration step was pre-empted, at the
present one; before it nothing begins (log 3). -/
def execInjSequenceBegin (tk : Nat) (c : Ch) (v : Conv) (s : State) : Host.Outcome State Fault Refusal :=
  .next (s.eventAt tk fun s =>
    let x := (s.ch c).conv v
    if x.injPend && s.clocked c && decide (x.injFrom ≤ s.now c) && !x.inCal then s.injBegin c v (s.bndAt c (s.now c)) else s)

/-- A pass start reaches a quiet converter with PDN at tick t (R125): it powers up for 400 ns; during a start-up or a pass it is
ignored and PDN_OVERRUN sets. -/
def State.passStart (s : State) (c : Ch) (v : Conv) (t : Nat) : State :=
  let x := (s.ch c).conv v
  if !(s.quiet c && x.cfg.pdn) then s
  else if x.starting.isSome || decide (t < x.passTill) then s.modConv c v fun x => { x with sticky := x.sticky ||| 0x1000 }
  else s.modConv c v fun x => { x with starting := some (s.bndAt c (t + 200)) }

/-- A converter takes a waiting configuration at boundary b (R114, R123, R125). -/
def State.takeSeq (s : State) (c : Ch) (v : Conv) (b : Nat) : State :=
  match ((s.ch c).conv v).seqPend with
  | none => s
  | some g =>
    let s := s.modConv c v fun x =>
      { x with
        cfg := g, mark := s.idxAt c b, ops := x.ops ++ [.seq b g], seqPend := none, seqJoint := false, splitTill := 0
        knext := g.ents.map fun e => fld e 17 5, starting := none, passTill := 0 }
    s.passStart c v b

/-- The record or chunk that a SEQ closes at boundary b; in a stream the next chunk begins there (R228, R237). -/
def State.seqCut (s : State) (c : Ch) (b : Nat) : State :=
  let k := (s.ch c).cap
  if k.cur.isSome then (s.cutRec c b 0x102).modCap c fun k => k.stick 18
  else if k.streaming && decide (b ≤ k.chunkLast) then
    let z := s.chunkSlots c (s.idxAt c b) (s.idxAt c k.chunkLast + 1 - s.idxAt c b)
    s.modCap c fun k => { k with lost := k.lost - z, lostNew := k.lostNew - z, skipSlots := k.skipSlots - z }
  else s

/-- SEQ takes effect at boundary b on the converters it applies to (R114). -/
def State.seqEffect (s : State) (c : Ch) (v : Conv) (b : Nat) : State :=
  let joint := ((s.ch c).conv v).seqJoint
  let s := s.seqCut c b
  let s := if joint then (s.takeSeq c .a b).takeSeq c .b b else s.takeSeq c v b
  if (s.ch c).cap.streaming then s.openChunk c (s.idxAt c b) else s

/-- The converter is free to take a SEQ: no injected sequence pending or running, no calibration step (R114, Table 12-6). -/
def ConvSt.seqFree (x : ConvSt) (t : Nat) : Bool := !x.busyAt t && !x.inCal

/-- SEQ_TAKES_EFFECT (R114); while its converter is busy it waits (log 3). -/
def execSeqTakesEffect (tk : Nat) (c : Ch) (v : Conv) (s : State) : Host.Outcome State Fault Refusal :=
  .next (s.eventAt tk fun s =>
    let h := s.ch c
    let x := h.conv v
    let t := s.now c
    let free := if x.seqJoint then h.convA.seqFree t && h.convB.seqFree t else x.seqFree t
    if x.seqPend.isSome && s.clocked c && decide (x.seqDue ≤ t) && free then s.seqEffect c v (s.bndAt c t) else s)

/-- QUIET_STARTUP_END (R125): the pass begins at its boundary and ends after one run of the sequence. -/
def execQuietStartupEnd (tk : Nat) (c : Ch) (v : Conv) (s : State) : Host.Outcome State Fault Refusal :=
  .next (s.eventAt tk fun s =>
    let x := (s.ch c).conv v
    match x.starting with
    | some d =>
      if decide (d ≤ s.now c) && s.clocked c then
        let b := s.bndAt c (s.now c)
        s.modConv c v fun x =>
          { x with starting := none, passTill := s.sTick c (x.cfg.instant x.mark (s.idxAt c b) x.cfg.total) }
      else s
    | none => s)

/-- RESULT_READ_LOW (R136): a read of the low half takes a snapshot, or returns and clears the overwrite report. -/
def execResultReadLow (tk : Nat) (c : Ch) (r : Fin 40) (s : State) : Host.Outcome State Fault Refusal :=
  .next (s.eventAt tk fun s =>
    let g := (s.ch c).res.get r
    let put := fun (g : ResReg) (v : Word) =>
      { s.modCh c fun h => { h with res := h.res.set r.1 g r.2 } with lastRead := v.setWidth 64 }
    if 0 < g.ovr then put { g with ovr := 0 } (wd (at_ g.ovr 8 + 2))
    else put { g with snap := g.tstamp, flag := true } g.res)

/-- RESULT_READ_HIGH (R136): the snapshot once, else the live TSTAMP. -/
def execResultReadHigh (tk : Nat) (c : Ch) (r : Fin 40) (s : State) : Host.Outcome State Fault Refusal :=
  .next (s.eventAt tk fun s =>
    let g := (s.ch c).res.get r
    { s.modCh c fun h => { h with res := h.res.set r.1 { g with flag := false } r.2 } with
      lastRead := (if g.flag then g.snap else g.tstamp).setWidth 64 })

end Sys2Proof.Machine
end

