-- ==== Sys2Proof/Machine/PedOps.lean ====
section
/-! DEFINITION. The Pedigree chain, checkpoints and quotes (18.4, 18.5). -/

namespace Sys2Proof.Machine

/-! ## Images and digests -/

/-- IMG_BYTES of a stored image (Table 18-1), within a slot of 8 MiB. -/
def imgBytes (m : Memory) : Nat := min 8388608 (memWord m 8).toNat
/-- The image measurement: SHA-256 of all IMG_BYTES bytes (R440). -/
def imgMeasure (m : Memory) : BitVec 256 := sha256 (memBytes m 0 (imgBytes m))
/-- SVN of an image. -/
def imgSvn (m : Memory) : Nat := fld (memWord m 12) 0 6
/-- The image in a slot (false A). -/
def Fw.img (f : Fw) (b : Bool) : Memory := if b then f.imgB else f.imgA
/-- VALID of a slot. -/
def Fw.valid (f : Fw) (b : Bool) : Bool := if b then f.validB else f.validA

/-- A trim pair word: GAIN in bits 27:16, OFS in bits 11:0 (Table 12-11); pair i of A, B, DV, DI. -/
def Phys.trimWord (p : Phys) (i : Nat) : Word :=
  wd (at_ (ifld 12 (p.trims.toList.getD (2 * i + 1) 0)) 16 + ifld 12 (p.trims.toList.getD (2 * i) 0))

/-- CAL_DIGEST (R460). -/
def State.calDigest (s : State) : BitVec 256 :=
  sha256 ((s.rgn.toList.flatMap fun g => leBytes 4 (ifld 32 g.refAssign)) ++ s.phys.toList.flatMap fun p =>
    ((List.range 4).flatMap fun i => leBytes 4 (p.trimWord i).toNat) ++
      p.pairs.toList.flatMap fun x => leBytes 4 (ifld 32 x.1) ++ leBytes 4 x.2)

/-- Body of a checkpoint (Table 18-7). -/
def State.ckptBody (s : State) (cause : Nat) : List Byte :=
  leBytes 4 0x504B4350 ++ leBytes 4 1 ++ leBytes 8 Config.serial.toNat ++ leBytes 4 (s.ped.ckptLast + 1) ++ leBytes 4 cause
    ++ leBytes 8 s.tick ++ leBytes 8 s.ped.epoch ++ leBytes 8 s.ped.seq ++ digBytes s.ped.head ++ leBytes 4 s.fw.gen
    ++ leBytes 4 s.calGen ++ leBytes 4 s.planGen ++ leBytes 4 0 ++ digBytes (imgMeasure (s.fw.img s.fw.slot))
    ++ digBytes s.calDigest

/-- Body of a quote for the context that asked, over its nonce (Table 18-8). -/
def State.quoteBody (s : State) (p : Pkt) : List Byte :=
  let own := (List.range 12).map fun i => BitVec.ofNat 8 ((List.range 8).foldl (fun a j =>
    a + at_ (b1 (s.owner.toList.getD (8 * i + j) 0 == p.ctx)) j) 0)
  leBytes 4 0x45544F51 ++ leBytes 2 1 ++ leBytes 1 p.ctx.1 ++ leBytes 1 0 ++ leBytes 8 Config.serial.toNat
    ++ (p.payload ++ List.replicate 32 0).take 32 ++ leBytes 8 s.tick ++ leBytes 4 Config.romId.toNat
    ++ leBytes 4 (s.sec.svn % 64 + at_ (s.sec.svnMin % 64) 8 + at_ (b1 s.fw.slot) 16 + at_ (b1 s.hub.fallback) 17)
    ++ leBytes 4 s.fw.gen ++ leBytes 4 s.calGen ++ leBytes 4 s.planGen ++ leBytes 4 0
    ++ digBytes (imgMeasure (s.fw.img s.fw.slot))
    ++ (if s.fw.valid (!s.fw.slot) then digBytes (imgMeasure (s.fw.img (!s.fw.slot))) else List.replicate 32 0)
    ++ digBytes s.calDigest ++ leBytes 8 s.ped.epoch ++ leBytes 8 s.ped.seq ++ digBytes s.ped.head
    ++ leBytes 4 s.sec.xref ++ leBytes 4 0 ++ own ++ List.replicate 4 0 ++ List.replicate 8 0

/-! ## The signer (R458, R459) -/

/-- The signer takes the next job in order of arrival; a checkpoint covers the head as its signing starts (R459). -/
def State.signNext (s : State) : State :=
  match s.ped.signing, s.ped.queue with
  | none, j :: rest =>
    let body := match j with
      | SignJob.ckpt cause _ => s.ckptBody cause
      | SignJob.quote p => s.quoteBody p
    { s with ped := { s.ped with signing := some (j, body, s.ped.seq, s.ped.head), queue := rest } }
  | _, _ => s

/-- A checkpoint is asked for with its cause: it waits for the signer, or is merged into the one that waits (R459). -/
def State.startCkpt (s : State) (cause : Nat) (w : List Pkt) : State :=
  let merged := s.ped.queue.any fun j => match j with
    | .ckpt _ _ => true
    | .quote _ => false
  let q := if merged then s.ped.queue.map fun j => match j with
      | .ckpt c l => SignJob.ckpt c (l ++ w)
      | SignJob.quote p => SignJob.quote p
    else s.ped.queue ++ [SignJob.ckpt cause w]
  { s with ped := { s.ped with queue := q, since := 0 } }.signNext

/-- A quote is asked for. -/
def State.startQuote (s : State) (p : Pkt) : State :=
  { s with ped := { s.ped with queue := s.ped.queue ++ [SignJob.quote p] } }.signNext

/-! ## The chain -/

/-- Slots of the ring of entries (R455). -/
def pedSlots : Nat := 122880

/-- Free slots. -/
def State.pedFree (s : State) : Nat := pedSlots - s.ped.entries.length

/-- The 128 bytes of an entry (Table 18-4). -/
def PedEntry.bytes (e : PedEntry) : List Byte :=
  [e.kind, 1] ++ leBytes 2 0 ++ leBytes 2 e.epoch ++ leBytes 2 0 ++ leBytes 8 e.seq ++ leBytes 8 e.tick ++ leBytes 4 e.calGen
    ++ leBytes 4 e.fwGen ++ e.body

/-- PED_FULL is raised when the count of free slots falls below 15,360 (R455). -/
def State.pedLow (s : State) : State :=
  let low := decide (s.pedFree < 15360)
  let was := s.ped.low
  let s := { s with ped := { s.ped with low := low } }
  if low && !was then s.raiseHub 65 (wd s.pedFree) else s

/-- What waited for an entry goes on (R231, R454). -/
def State.pedDone (s : State) (a : PedAfter) : State :=
  match a with
  | .none => s
  | .record c q =>
    let s := s.chEv c .recClosed (wd q)
    if (s.ch c).cap.doneSeq == q then
      (s.modCap c fun k => { k with doneSeq := 0 }.stick 17).chEv c .capDone (wd q)
    else s

/-- Append one event's entry: the chain value, its slot, and a checkpoint when CKPT_N RECORD entries have come (R451, R454,
R458). -/
def State.pedEntry (s : State) (p : PedEv) : State :=
  let e : PedEntry := { kind := p.kind, epoch := s.ped.epoch, seq := s.ped.seq + 1, tick := p.tick, calGen := p.calGen,
                        fwGen := p.fwGen, body := p.body }
  let rec_ := p.kind == 0x10
  let s := { s with ped := { s.ped with
    seq := e.seq, head := sha256 (digBytes s.ped.head ++ e.bytes), entries := s.ped.entries ++ [e]
    since := if rec_ then s.ped.since + 1 else s.ped.since } }
  let s := (s.pedLow).pedDone p.after
  if rec_ && s.ped.ckptN ≠ 0 && decide (s.ped.ckptN ≤ s.ped.since) then s.startCkpt 0 [] else s

/-- Append the entry of the event that waits longest, when a slot is free; the Pedigree does not advance in recovery (R444,
R454, R455). -/
def State.pedAppend (s : State) : State :=
  match s.ped.wait with
  | p :: rest =>
    if 0 < s.pedFree ∧ !s.hub.recovery then { s with ped := { s.ped with wait := rest } }.pedEntry p else s
  | [] => s

/-- An entry could be appended at once: nothing waits and a slot is free. -/
def State.pedOpen (s : State) : Bool := s.ped.wait.isEmpty && decide (0 < s.pedFree) && !s.hub.recovery

/-- PEDIGREE_APPEND (R454). -/
def execPedigreeAppend (tk : Nat) (s : State) : Host.Outcome State Fault Refusal :=
  .next (s.eventAt tk fun s => s.pedAppend)

/-- The signature bytes over a body (R440, R458). -/
def sigBytes (salt : Nat) (body : List Byte) : List Byte := (List.range 384).map fun i => Config.signature salt body i

/-- A security packet that is executed completes OK with its security result (R462). -/
def State.secOk (s : State) (p : Pkt) (code : Nat) : State := s.complete p stOk 0 (wd code) 0 []

/-- SIGNING_COMPLETE (R458, R459, R461): a checkpoint is stored, its head goes to non-volatile store, CKPT enters the chain, and
PED_CHECKPOINT is raised; a quote goes to its packet. The signer takes its next job. -/
def execSigningComplete (tk : Nat) (s : State) : Host.Outcome State Fault Refusal :=
  .next (s.eventAt tk fun s =>
    match s.ped.signing with
    | none => s
    | some (j, body, seq, head) =>
      let all := body ++ sigBytes s.freeCtr body
      let s := { s.used with ped := { s.ped with signing := none } }
      let s := match j with
        | .quote p => s.complete p stOk 0 0 0 all
        | .ckpt _ ws =>
          let n := s.ped.ckptLast + 1
          let k : Ckpt := { number := n, epoch := s.ped.epoch, seq := seq, head := head, bytes := all }
          let s := { s with ped := { s.ped with
            ckpts := (k :: s.ped.ckpts).take 1024, ckptLast := n, nvEpoch := s.ped.epoch, nvSeq := seq, nvHead := head } }
          let s := s.pedQueue 0x12 0 (leBytes 4 n ++ leBytes 4 0 ++ leBytes 8 seq ++ digBytes (sha256 all)) .none
          let s := s.raiseHub 64 (wd n)
          s.each ws fun p s => s.complete p stOk 0 0 0 all
      s.signNext)

end Sys2Proof.Machine
end

