-- ==== Sys2Proof/Machine/Season.lean ====
section
/-! DEFINITION. Seasoning: paths, limits, history and report, the planner, and the plans of physical channels (13.2-13.4). -/

namespace Sys2Proof.Machine

/-! ## Paths (R339, R347) -/

/-- Ticks of a minute. -/
def minuteTicks : Nat := 30000000000

/-- The always-on minute count. -/
def State.minute (s : State) : Nat := ((s.tick : Int) + s.aon.tickOff).toNat / minuteTicks

/-- Key of a path's record: PATH, then scope. -/
def pathKey (path scope : Nat) : Nat := 256 * path + scope

/-- A path never measured (Table 13-4 reset). -/
def PathRec.reset : PathRec := { value := 0, stale := false, atLimit := false, hist := [] }

/-- A path's record. -/
def State.path (s : State) (path scope : Nat) : PathRec := sget .reset s.paths (pathKey path scope)
/-- Change it. -/
def State.modPath (s : State) (path scope : Nat) (f : PathRec → PathRec) : State :=
  { s with paths := sset .reset s.paths (pathKey path scope) (f (s.path path scope)) }

/-- SZNCFG as its cycles use it: the word in force in the last cycle begun, or as written before the first (R349). -/
def Region.sznUse (g : Region) : Word := if g.cycleAt.isSome then g.cycCfg else g.szncfg
/-- REF_LIM (Table 13-6). -/
def refLim (w : Word) : Nat := max 1 (fld w 0 8)
/-- INL_LIM. -/
def inlLim (w : Word) : Nat := max 1 (fld w 8 8)
/-- PERIOD. -/
def sznPeriod (w : Word) : Nat := max 1 (fld w 16 16)

/-- Minimum eye in ps at a rate (Table 17-5). -/
def minEye (rate : Nat) : Nat := if rate = 2 then 47 else if rate = 1 then 54 else 63

/-- LIMIT of a path whose scope lies in region r (Table 13-2). -/
def State.pathLimit (s : State) (r : Rg) (path : Nat) : Int :=
  match path with
  | 1 => 100 * refLim (s.rg r).sznUse
  | 2 | 3 => 9000
  | 4 => 16 * inlLim (s.rg r).sznUse
  | 5 | 6 => 976
  | 7 => 1000
  | _ => minEye s.mem.rate

/-- Paths 7 and 8 fall to their limit. -/
def pathFalls (path : Nat) : Bool := path == 7 || path == 8

/-- Slope of the least-squares line through (minute, value), in units per hour (R347). -/
def slope (h : List (Nat × Int)) : Rat :=
  let n : Rat := h.length
  let sx := h.foldl (fun a p => a + (p.1 : Rat)) 0
  let sy := h.foldl (fun a p => a + (p.2 : Rat)) 0
  let sxy := h.foldl (fun a p => a + (p.1 : Rat) * (p.2 : Rat)) 0
  let sxx := h.foldl (fun a p => a + (p.1 : Rat) * (p.1 : Rat)) 0
  60 * (n * sxy - sx * sy) / (n * sxx - sx * sx)

/-- Absolute value. -/
def rabs (x : Rat) : Rat := if x < 0 then -x else x

/-- Distance of a path to its limit. -/
def pathDist (falls : Bool) (limit value : Int) : Int := if falls then value - limit else limit - value

/-- TTL of a path (R347). -/
def pathTtl (falls : Bool) (limit : Int) (p : PathRec) : Nat :=
  let d := pathDist falls limit p.value
  if p.hist.length < 8 then 0xFFFF
  else if d ≤ 0 then 0
  else
    let k := slope p.hist
    if (falls ∧ k < 0) ∨ (!falls ∧ 0 < k) then min 0xFFFE ((d : Rat) / rabs k).floor.toNat else 0xFFFF

/-- MARGIN of a path (R347). -/
def pathMargin (falls : Bool) (limit : Int) (p : PathRec) : Nat :=
  min 0xFFFF ((max 0 (pathDist falls limit p.value)).toNat * 1000 / limit.natAbs)

/-- The 16 bytes of a report entry (Table 13-4). -/
def State.reportEntry (s : State) (r : Rg) (path scope : Nat) : List Byte :=
  let p := s.path path scope
  let lim := s.pathLimit r path
  let f := pathFalls path
  leBytes 4 (path + at_ scope 8 + at_ (b1 (p.hist.length < 8)) 17 + at_ (b1 p.atLimit) 18 + at_ (b1 p.stale) 19)
    ++ leBytes 4 (ifld 32 p.value) ++ leBytes 4 (ifld 32 lim) ++ leBytes 2 (pathMargin f lim p) ++ leBytes 2 (pathTtl f lim p)

/-! ## Cycles -/

/-- Logical channel that a physical channel serves. -/
def State.logOf (s : State) (p : Ch) : Ch := ((List.finRange 8).map (chOf (clOf p))).find? (fun c => s.physOf c == p) |>.getD p

/-- The paths that a cycle of region r covers: those of its enabled channels' physical channels, its own and the package's
DDR eyes, in order of PATH, then scope. -/
def State.cyclePaths (s : State) (r : Rg) : List (Nat × Nat) :=
  let chs := (chsOfRg r).filter fun p => bit (s.rg r).cycCh (slotOf16 (s.logOf p))
  [(1, r.1)] ++ ([2, 3, 4, 5, 6].flatMap fun k => chs.map fun p => (k, p.1)) ++ [(7, r.1)] ++ (List.range 4).map fun k => (8, k)

/-- A path takes a measured VALUE in a cycle of region r. -/
def State.pathTake (s : State) (r : Rg) (path scope : Nat) (v : Int) : State :=
  (s.modPath path scope fun p => { p with value := v }).modRg r fun g => { g with fresh := pathKey path scope :: g.fresh }

/-- The end of a cycle for one path: STALE where it was not measured, its place in the history, AT_LIMIT and SEASON_LIMIT (R338,
R342, R347). -/
def State.pathClose (s : State) (r : Rg) (path scope : Nat) : State :=
  let lim := s.pathLimit r path
  let stale := !(s.rg r).fresh.contains (pathKey path scope)
  let was := (s.path path scope).atLimit
  let deep := path == 4 && decide (4 < (s.phys.toList.map (·.inlEnds)).getD scope 0)
  let s := s.modPath path scope fun p => { p with
    stale := stale, atLimit := decide (pathDist (pathFalls path) lim p.value ≤ 0) || deep
    hist := ((s.minute, p.value) :: p.hist).take 64 }
  if (s.path path scope).atLimit && !was then s.raiseHub 9 (wd (at_ scope 8 + path)) else s

/-- Consecutive leading points beyond the limit (R340). -/
def leadFail (lim : Int) : List Int → Nat
  | [] => 0
  | x :: l => if lim < x ∨ x < -lim then leadFail lim l + 1 else 0

/-! ## The planner (R340, R341) -/

/-- Candidate values of a physical channel. -/
def State.candOf (s : State) (p : Ch) : Plan :=
  let te := fun (k : Nat) => ((s.path k p.1).value.toNat + 15) / 16
  { floorV := min 63 (2 + te 5), floorI := min 63 (2 + te 6), gbq := min 4 (s.phys.get p).inlEnds }

/-- Adopting one candidate value, tighter being higher: at once when tighter than the plan; the tightest of the last three when
all three were looser; else the plan stays (R340). -/
def adopt (plan cand : Nat) (last : List Nat) : Nat :=
  if plan < cand then cand
  else
    let three := (cand :: last).take 3
    if three.length = 3 ∧ three.all (fun x => decide (x < plan)) then three.foldl max 0 else plan

/-- The plan after a cycle. -/
def adoptPlan (p cand : Plan) (last : List Plan) : Plan :=
  { floorV := adopt p.floorV cand.floorV (last.map (·.floorV)), floorI := adopt p.floorI cand.floorI (last.map (·.floorI)),
    gbq := adopt p.gbq cand.gbq (last.map (·.gbq)) }

/-- The rungs for MAX_SCLK as P and Q, from the top (R340). -/
def sclkRungs : List (Nat × Nat) := [(1, 4), (6, 25), (1, 5), (4, 25), (1, 8), (1, 10), (2, 25)]

/-- The next rung below, not below the lowest. -/
def nextRung : List (Nat × Nat) → Nat × Nat → Nat × Nat
  | [], x => x
  | [_], x => x
  | a :: b :: l, x => if a = x then b else nextRung (b :: l) x

/-- The words of Table 13-7. -/
def Plan.word (p : Plan) : Word := wd (at_ p.gbq 16 + at_ p.floorV 8 + p.floorI)

/-- The planner adopts candidates at the end of a cycle of region r; where an adopted value differs, a plan is formed (R340,
R341). -/
def State.planner (s : State) (r : Rg) (chs : List Ch) (entries : List Byte) : State :=
  let new := chs.map fun p => (p, adoptPlan (s.phys.get p).planNext (s.candOf p) (s.phys.get p).cands)
  let changed := new.filter fun x => decide (x.2 ≠ (s.phys.get x.1).planNext)
  let keep := fun (i : Ch) (p : Phys) => if chs.contains i then { p with cands := (s.candOf i :: p.cands).take 2 } else p
  let s := { s with phys := Vector.ofFn fun i => keep i (s.phys.get i) }
  let g := s.rg r
  let rung := if (s.path 7 r.1).value ≤ 1000 then nextRung sclkRungs (g.maxP, g.maxQ) else (g.maxP, g.maxQ)
  let narrow := (List.range 4).any fun k => decide ((s.path 8 k).value ≤ (minEye s.mem.rate : Int))
  let step := if narrow && s.mem.trained then max s.mem.stepNext (min 3 (s.mem.step + 1)) else s.mem.stepNext
  let differs := !changed.isEmpty || decide (rung ≠ (g.maxP, g.maxQ)) || decide (step ≠ s.mem.stepNext)
  if !differs then s
  else
    let n := s.planGen + 1
    let put := fun (i : Ch) (p : Phys) => match changed.find? fun x => x.1 == i with
      | some x => { p with planNext := x.2, planGen := n, planPend := true, formed := true }
      | none => p
    let s := { s with
      planGen := n, mem := { s.mem with stepNext := step }, phys := Vector.ofFn fun i => put i (s.phys.get i) }
    let s := s.modRg r fun g => { g with maxP := rung.1, maxQ := rung.2 }
    let words := (chsOfRg r).flatMap fun p => leBytes 4 (s.phys.get p).planNext.word.toNat
    let s := s.pedQueue 0x0C (96 + r.1) (leBytes 4 n ++ leBytes 4 r.1 ++ leBytes 4 (s.rg r).cycle ++ words
      ++ (digBytes (sha256 entries)).take 16) .none
    let s := s.raiseHub 8 (wd n)
    s.each changed fun x s =>
      let c := s.logOf x.1
      s.latchEvtAt (thOf c) 26 (s.now c + 8)

/-- A cycle of region r closes (R338). -/
def State.cycleClose (s : State) (r : Rg) : State :=
  let eyes := (List.finRange 4).map fun k => (k.1, (min (s.mem.eyes.get k).1 (s.mem.eyes.get k).2 : Nat))
  let s := if s.mem.trained then s.each eyes fun x s => s.pathTake r 8 x.1 x.2 else s
  let ps := s.cyclePaths r
  let s := s.each ps fun x s => s.pathClose r x.1 x.2
  let s := s.modRg r fun g => { g with cycle := (g.cycle + 1) % 65536, cycleOn := false, queue := g.queue.filter fun q => !q.szn }
  let chs := (chsOfRg r).filter fun p => bit (s.rg r).cycCh (slotOf16 (s.logOf p))
  s.planner r chs (ps.flatMap fun x => s.reportEntry r x.1 x.2)

/-- A cycle in progress is abandoned (R338, R346): a running Seasoning step is discarded and its requests go. -/
def State.cycleDrop (s : State) (r : Rg) : State :=
  let s := if (s.rg r).busy && (s.rg r).kind == 5 then s.stepOff r else s
  s.modRg r fun g => { g with cycleOn := false, cycleAt := none, fresh := [], queue := g.queue.filter fun q => !q.szn }

/-- A Seasoning request as it is queued. -/
def sznReq (slot t : Nat) : EngReq :=
  { slot := slot, szn := true, target := 0, run := 0, idx := 0, meas := [], t0 := t, result := none, acked := false, refs := [] }

/-- SEASONING_CYCLE_START (R337): every PERIOD minutes. Before its time, with a cycle running or the region unpowered, nothing
begins (log 3). -/
def execSeasoningCycleStart (tk : Nat) (r : Rg) (s : State) : Host.Outcome State Fault Refusal :=
  .next (s.eventAt tk fun s =>
    let g := s.rg r
    let due := match g.cycleAt with
      | some t => decide (t + sznPeriod g.cycCfg * minuteTicks ≤ s.tick)
      | none => true
    if !g.on || g.cycleOn || !due then s
    else
      let t := s.dt (dieOfRg r)
      s.modRg r fun g => { g with
        cycleOn := true, cycleAt := some s.tick, cycCfg := g.szncfg, cycCh := g.sznch, fresh := []
        queue := g.queue ++ (((List.range 16).filter fun k => bit g.sznch k).map fun k => sznReq k t) ++ [sznReq 16 t] })

/-- SEASONING_CYCLE_END (R338): every item has been measured, or PERIOD minutes have passed. -/
def execSeasoningCycleEnd (tk : Nat) (r : Rg) (s : State) : Host.Outcome State Fault Refusal :=
  .next (s.eventAt tk fun s =>
    let g := s.rg r
    let over_ := match g.cycleAt with
      | some t => decide (t + sznPeriod g.cycCfg * minuteTicks ≤ s.tick)
      | none => true
    if !g.cycleOn then s
    else if !(g.queue.any fun q => q.szn) then s.cycleClose r
    else if over_ then (if g.busy && g.kind == 5 then s.stepOff r else s).cycleClose r
    else s)

end Sys2Proof.Machine
end

