-- ==== Sys2Proof/Machine/CalEv.lean ====
section
/-! DEFINITION. The region calibration engine: step lists, placing, ends, the computation of trims, acknowledgement and
timeout (12.3-12.5). -/

namespace Sys2Proof.Machine

/-! ## Steps (R322-R324, R337) -/

/-- A step of a request: KIND of CALSTAT, the converter it occupies, whether it needs Parked, whether it takes the output stage,
its samples (0: not a converter's measurement by samples) and its length in ticks. -/
structure CalStep where
  kind   : Nat
  conv   : Option Conv
  parked : Bool
  out    : Bool
  n      : Nat
  ticks  : Nat
deriving DecidableEq, Repr

/-- A converter offset or gain step. -/
def convStep (kind : Nat) (v : Conv) : CalStep := { kind := kind, conv := some v, parked := false, out := false, n := 272, ticks := 0 }
/-- A DAC step. -/
def dacCalStep : CalStep := { kind := 3, conv := none, parked := true, out := true, n := 0, ticks := 5000 }
/-- A SKEW step. -/
def skewStep : CalStep := { kind := 4, conv := some .a, parked := true, out := false, n := 8192, ticks := 0 }
/-- A Seasoning item that occupies neither a converter nor the output stage. -/
def houseStep : CalStep := { kind := 5, conv := none, parked := false, out := false, n := 0, ticks := 0 }

/-- The step list of a request (Table 12-5, Table 13-1). A Seasoning request of a channel measures stage gains of A and of B on
GND and on REF, DAC linearity and thresholds; the region's own, reference drift and PLL margin. -/
def EngReq.steps (q : EngReq) : List CalStep :=
  if q.szn then
    if q.slot < 16 then
      [convStep 5 .a, convStep 5 .a, convStep 5 .b, convStep 5 .b, { dacCalStep with kind := 5, ticks := 0 }, houseStep]
    else [houseStep, houseStep]
  else match q.target with
    | 0 => [convStep 1 .a, convStep 2 .a, convStep 1 .b, convStep 2 .b, dacCalStep]
    | 1 => [convStep 1 .a, convStep 2 .a]
    | 2 => [convStep 1 .b, convStep 2 .b]
    | 3 => [dacCalStep]
    | _ => [skewStep]

/-- Runs of the list: a calibration request repeats it (R324). -/
def EngReq.runs (q : EngReq) : Nat := if q.szn then 1 else 2

/-! ## Placing (R325, R328) -/

/-- capture_free for a span of boundaries b to e (R328). -/
def State.captureFree (s : State) (c : Ch) (b e : Nat) : Bool :=
  let h := s.ch c
  let k := h.cap
  if mSTRM h.mode then false
  else if !mCAPT h.mode then true
  else if k.cur.any fun r => decide (b ≤ r.last) then false
  else if !k.armed then true
  else if !bit k.stayRun 31 && k.accSince then decide (e < s.sTick c (s.idxAt c (k.tAcc + fld k.stayRun 0 31) - k.pre))
  else false

/-- An entry in force of a configuration has LOOP on VS or IS. -/
def ConvCfg.loops (g : ConvCfg) : Bool :=
  (g.ents.toList.take (g.seqLen + 1)).any fun w => bit w 16 && decide (fld w 0 3 < 2)

/-- natural(c) for converter v (R328), as the channel stands. -/
def State.natural (s : State) (c : Ch) (v : Conv) : Bool :=
  let h := s.ch c
  let w := s.ctl c 0x458
  let vs : List Conv := if h.ilv then [.a, .b] else [v]
  bit (s.rg (rgOf c)).natgap (slotOf16 c) && vs.all fun u =>
    !(h.loop.running && (h.conv u).cfg.loops) && !(bit w 31 && bit w 30 == (u == .b))

/-- A converter step may take its span from b to e (R328). -/
def State.convFree (s : State) (c : Ch) (v : Conv) (b e : Nat) : Bool :=
  let x := (s.ch c).conv v
  !x.busyAt b && s.captureFree c b e
    && ((decide (x.gapFrom ≤ b) && decide (e < x.gapTill)) || s.natural c v)

/-- Where a step of the request would begin and end, if it can be placed now (R328, Table 12-6). -/
def State.placeStep (s : State) (r : Rg) (q : EngReq) (st : CalStep) : Option (Nat × Nat) :=
  let c := slotCh r q.slot
  let t := s.dt (dieOfRg r)
  let b0 := s.bndAt c t
  if 16 ≤ q.slot then some (b0, b0)
  else if st.parked && (s.ch c).st != .parked then none
  else match st.conv with
    | some v =>
      let x := (s.ch c).conv v
      let b := if s.convPowered c v then b0 else s.bndAt c (t + 200)
      let e := s.sTick c (x.cfg.instant x.mark (s.idxAt c b) st.n)
      if (s.ch c).st != .off && s.convFree c v b e then some (b, e) else none
    | none => some (b0, b0 + st.ticks)

/-- The next step of a request, none when its list has ended. -/
def EngReq.next? (q : EngReq) : Option CalStep := if q.result.isSome then none else q.steps[q.idx]?

/-- New calibration firmware is taken when no step runs: calibration requests with steps to run restart (R351). -/
def State.engineFw (s : State) (r : Rg) : State :=
  s.modRg r fun g => if g.fwPend && !g.busy then { g with
      fwPend := false
      queue := g.queue.map fun q => if q.szn || q.result.isSome then q else { q with run := 0, idx := 0, meas := [], refs := [] } }
    else g

/-- CAL_STEP_START (R325): the first request in order whose next step can be placed. With a step running, none to place, or no
sample clock, nothing begins (log 3). -/
def execCalStepStart (tk : Nat) (r : Rg) (s : State) : Host.Outcome State Fault Refusal :=
  .next (s.eventAt tk fun s =>
    let s := s.engineFw r
    let g := s.rg r
    let opts := g.queue.filterMap fun q => q.next?.bind fun st => (s.placeStep r q st).map fun p => (q, st, p)
    if !g.on || !g.clkOk || !g.refOk || g.busy then s
    else match opts with
      | (q, st, b, e) :: _ =>
        let c := slotCh r q.slot
        let s := s.modRg r fun g => { g with
          busy := true, kind := st.kind, stepConv := st.conv.getD .a, stepSlot := q.slot, stepEnd := e, stepRef := g.refAssign }
        let s := match st.conv with
          | some v => s.modConv c v fun x => { x with inCal := true, ops := x.ops ++ [.calOn b] }
          | none => s
        if st.out then s.modCh c fun h => { h with calBus := true } else s
      | [] => s)

/-! ## The computation (R326, R327) -/

/-- One path: agreement, the new code with its clip, RESID, and E of both runs in ppm. `scale` turns an error into ppm of range. -/
structure PathCalc where
  agree : Bool
  new   : Int
  clip  : Bool
  resid : Nat
  e1    : Rat
  e2    : Rat
deriving DecidableEq, Repr

/-- The pseudocode of R326 for one path. -/
def pathCalc (old : Int) (err1 err2 lsb scale tol : Rat) : PathCalc :=
  let e1 := err1 * scale
  let e2 := err2 * scale
  let m := (err1 + err2) / 2
  let d := (m / lsb + 1 / 2).floor
  let new := satS 12 (old - d)
  let res := rabs (m - ((old - new : Int) : Rat) * lsb) * scale + rabs (e1 - e2) / 2
  { agree := decide (rabs (e1 - e2) ≤ tol), new := new, clip := decide (new ≠ old - d), resid := min 0xFFFF (res * 100).ceil.toNat,
    e1 := e1, e2 := e2 }

/-- gain_err of a converter; with REF_ASSIGN 0 the manual states no result, and a free value stands for it (log 6). -/
def State.gainErr (s : State) (ofs ref rf : Int) : Rat :=
  if rf = 0 then (s.free.toInt : Rat) else ((ref - ofs : Int) : Rat) / (rf : Rat) - 1

/-- A path that no step of the request measured. -/
def PathCalc.none (old : Int) : PathCalc := { agree := true, new := old, clip := false, resid := 0, e1 := 0, e2 := 0 }

/-- A measurement of run j at place i of a list of n steps. -/
def EngReq.at? (q : EngReq) (n j i : Nat) : StepMeas × Int :=
  ((q.meas[j * n + i]?).getD { ofs := 0, loV := 0, hiV := 0, loI := 0, hiI := 0, shunt := 0, sense := 0, e := 0, vals := [], points := [] },
   (q.refs[j * n + i]?).getD 0)

/-- Place of path p's first step in the list of a target: the converter pair's offset step, or the DAC step. -/
def pathPlace (target : Nat) (p : Fin 8) : Nat := if target = 0 then (if p.1 < 4 then p.1 / 2 * 2 else 4) else 0

/-- Every path of a request, in the order of CFLAGS. -/
def State.calPaths (s : State) (r : Rg) (q : EngReq) : List PathCalc :=
  let p := s.ph (slotCh r q.slot)
  let n := q.steps.length
  let tol : Rat := max 1 (fld (s.rg r).calcfg 0 8)
  (List.finRange 8).map fun i =>
    let old := p.trims.get i
    let k := pathPlace q.target i
    let a := fun (j : Nat) => (q.at? n j k)
    let b := fun (j : Nat) => (q.at? n j (k + 1))
    let dacE := fun (j : Nat) (gain : Bool) =>
      let m := (a j).1
      let lo : Rat := if i.1 < 6 then m.loV else m.loI
      let hi : Rat := if i.1 < 6 then m.hiV else m.hiI
      if gain then (hi - lo) / 16 / 131072 else (lo + hi) / 2
    let conE := fun (j : Nat) => s.gainErr (a j).1.ofs (b j).1.ofs (b j).2
    if !(targetPaths q.target).contains i then .none old
    else if i.1 < 4 then
      if i.1 % 2 = 0 then pathCalc old (a 0).1.ofs (a 1).1.ofs 8 (1000000 / 2 ^ 24) tol
      else pathCalc old (conE 0) (conE 1) (1 / 1000000) 500000 tol
    else if i.1 % 2 = 0 then pathCalc old (dacE 0 false) (dacE 1 false) 1 (1000000 / (16 * 2 ^ 18)) tol
    else pathCalc old (dacE 0 true) (dacE 1 true) (1 / 1000000) 500000 tol

/-- E in 0.01 ppm as the Pedigree holds it: signed 16-bit, saturating (Table 18-5). -/
def eWord (e : Rat) : Int := satS 16 (e * 100 + 1 / 2).floor

/-- Change the request of a slot. -/
def State.modReq (s : State) (r : Rg) (slot : Nat) (szn : Bool) (f : EngReq → EngReq) : State :=
  s.modRg r fun g => { g with queue := g.queue.map fun q => if q.slot == slot && q.szn == szn then f q else q }

/-- Take the request of a slot out of the queue. -/
def State.dropReq (s : State) (r : Rg) (slot : Nat) (szn : Bool) : State :=
  s.modRg r fun g => { g with queue := g.queue.filter fun q => !(q.slot == slot && q.szn == szn) }

/-- Both runs of a request have ended: its paths are computed and an agreed result goes to the hub; else CAL_DISAGREE (R326,
R327). -/
def State.calCompute (s : State) (r : Rg) (q : EngReq) : State :=
  let c := slotCh r q.slot
  if q.target = 4 then
    let e1 := (q.at? 1 0 0).1.e
    let e2 := (q.at? 1 1 0).1.e
    let x := (24000 - (e1 + e2) + 16).fdiv 32
    let v := satU 9 x
    if (e1 - e2).natAbs ≤ 32 then
      s.modReq r q.slot false fun q => { q with result := some ([v], [], BitVec.ofNat 8 (b1 (v != x)), []) }
    else (s.dropReq r q.slot false).calDone c 0x32 4 false 0
  else
    let ps := s.calPaths r q
    let clips : Byte := BitVec.ofNat 8 (ps.zipIdx.foldl (fun a x => a + at_ (b1 x.1.clip) x.2) 0)
    let s := (s.used).modPh c fun p => { p with cflags := p.cflags ||| clips }
    if ps.all (·.agree) then
      s.modReq r q.slot false fun q => { q with
        result := some (ps.map (·.new), ps.map (·.resid), clips, ps.flatMap fun x => [eWord x.e1, eWord x.e2]) }
    else (s.dropReq r q.slot false).calDone c 0x32 q.target false (ps.foldl (fun m x => max m x.resid) 0)

/-- The XREF check of a DAC step: the sense voltage misses 100 µA × XREF_VAL by more than 5 % (R321). -/
def State.xrefBad (s : State) (sense : Nat) : Bool :=
  decide (s.sec.xref < 20 * (10 * (sense : Int) - s.sec.xref).natAbs) || s.sec.xref == 0

/-- A Seasoning step gives the VALUEs of its paths (Table 13-1, Table 13-2). -/
def State.sznTake (s : State) (r : Rg) (q : EngReq) (m : StepMeas) : State :=
  let p := s.physOf (slotCh r q.slot)
  let v := fun (i : Nat) => m.vals.getD i 0
  let lim : Int := 16 * inlLim (s.rg r).cycCfg
  match decide (q.slot < 16), q.idx with
  | true, 1 => s.pathTake r 2 p.1 (v 0)
  | true, 3 => s.pathTake r 3 p.1 (v 0)
  | true, 4 =>
    let j := max (leadFail lim m.points) (leadFail lim m.points.reverse)
    { s with phys := s.phys.set p.1 { s.phys.get p with inlEnds := j } p.2 }.pathTake r 4 p.1
      (m.points.foldl (fun (a x : Int) => max a x.natAbs) 0)
  | true, 5 => (s.pathTake r 5 p.1 (v 0)).pathTake r 6 p.1 (v 1)
  | false, 0 => s.pathTake r 1 r.1 (v 0)
  | false, 1 => s.pathTake r 7 r.1 (v 0)
  | _, _ => s

/-- The running step of a region ends with its measurement (R322, R325, R326). -/
def State.stepDone (s : State) (r : Rg) (m : StepMeas) : State :=
  let g := s.rg r
  let szn := g.kind == 5
  match g.queue.find? fun q => q.slot == g.stepSlot && q.szn == szn with
  | none => s.stepOff r
  | some q =>
    let c := slotCh r q.slot
    let s := s.stepOff r
    let q' := { q with meas := q.meas ++ [m], refs := q.refs ++ [g.stepRef], idx := q.idx + 1 }
    let q' := if q'.idx < q.steps.length then q' else { q' with idx := if q.run + 1 < q.runs then 0 else q'.idx, run := q.run + 1 }
    let done := q'.run == q.runs
    let s := s.modReq r q.slot szn fun _ => q'
    if szn then
      let s := s.sznTake r q m
      if done then s.dropReq r q.slot true else s
    else
      let s := if g.kind = 3 then s.modRg r fun g => { g with shunt := m.shunt } else s
      if g.kind = 3 ∧ s.xrefBad m.sense then
        let s := s.modRg r fun g => { g with xrefFault := true }
        let s := s.raise (rgSrc r 3) 0x218 (wd q.slot)
        (s.dropReq r q.slot false).calDone c 0x32 q.target false 0
      else if done then s.calCompute r q' else s

/-- CAL_STEP_END (R322): before the running step's last sample or tick, nothing ends (log 3). -/
def execCalStepEnd (tk : Nat) (r : Rg) (m : StepMeas) (s : State) : Host.Outcome State Fault Refusal :=
  .next (s.eventAt tk fun s =>
    if (s.rg r).busy && decide ((s.rg r).stepEnd ≤ s.dt (dieOfRg r)) then (s.stepDone r m).engineFw r else s)

/-! ## Acknowledgement and timeout -/

/-- Body of a CAL entry (Table 18-5). -/
def State.calBody (s : State) (c : Ch) (q : EngReq) (codes : List Int) (resid : List Nat) (es : List Int) : List Byte :=
  let p := s.ph c
  let g := s.rg (rgOf c)
  let new := if q.target = 4 then p.trims.toList else codes
  leBytes 1 c.1 ++ leBytes 1 (s.physOf c).1 ++ leBytes 1 q.target ++ leBytes 1 0
    ++ (p.trims.toList.flatMap fun x => leBytes 2 (ifld 16 x)) ++ (new.flatMap fun x => leBytes 2 (ifld 16 x))
    ++ ((List.range 8).flatMap fun i => leBytes 2 (resid.getD i 0)) ++ ((List.range 16).flatMap fun i => leBytes 2 (ifld 16 (es.getD i 0)))
    ++ leBytes 4 (ifld 32 g.refAssign) ++ leBytes 4 s.sec.xref ++ leBytes 4 g.shunt

/-- CAL_ACK (R330): the hub enters the result in the Pedigree under the next generation, which is in force from the ramp's start,
and acknowledges. While the die link is down, the hub is not serving, or the entry would have to wait, nothing is acknowledged
(R333, R454). -/
def execCalAck (tk : Nat) (c : Ch) (s : State) : Host.Outcome State Fault Refusal :=
  .next (s.eventAt tk fun s =>
    let r := rgOf c
    match (s.rg r).queue.find? fun q => q.slot == slotOf16 c && !q.szn && q.result.isSome && !q.acked with
    | some q => match q.result with
      | some (codes, resid, _, es) =>
        if !(s.die.get (dieOfCh c)).linkUp || !s.hub.ready || s.hub.paused || !s.pedOpen then s
        else
          let t := s.hubTick c (s.loopAfter c (s.now c))
          let s := { s with calGen := s.calGen + 1, genAt := t :: s.genAt }
          let s := (s.pedQueueAt 0x07 c.1 (s.calBody c q codes resid es) .none t).pedAppend
          let s := if q.target = 4 then s else s.modPh c fun p => { p with target := Vector.ofFn fun i => codes.getD i.1 (p.trims.get i) }
          s.modReq r q.slot false fun q => { q with acked := true }
      | none => s
    | none => s)

/-- CAL_TIMEOUT (R327): a request not acknowledged within CAL_TMO × 2^20 ticks of its acceptance finishes with TIMEOUT; a step of
it that runs is given up. -/
def execCalTimeout (tk : Nat) (c : Ch) (s : State) : Host.Outcome State Fault Refusal :=
  .next (s.eventAt tk fun s =>
    let r := rgOf c
    let tmo := max 1 (fld (s.rg r).calcfg 20 12) * 2 ^ 20
    match (s.rg r).queue.find? fun q => q.slot == slotOf16 c && !q.szn && !q.acked with
    | some q =>
      if q.t0 + tmo ≤ s.now c then
        let s := if s.stepOn c && (s.rg r).kind != 5 then s.stepOff r else s
        (s.dropReq r q.slot false).calDone c 0x28 q.target false 0
      else s
    | none => s)

end Sys2Proof.Machine
end

