-- ==== Sys2Proof/Machine/Data.lean ====
section
/-! DEFINITION. Data movement of a thread (10.5, R255, R262), special registers, EVT and EMIT (10.12). -/

namespace Sys2Proof.Machine

/-- The address of LD and ST (R286). -/
def State.memAddr (s : State) (t : Thr) (w : ZWord) : Nat :=
  (s.g t w.ra + if w.x then w.e else f17s w).toNat

/-- An address of Table 9-6. -/
def inData (a : Nat) : Bool := decide (a < 0x8000) || (decide (0x100000 ≤ a) && decide (a < 0x180000))

/-- The checks of R255, in their order. -/
def dataFault (a : Nat) : Option Byte :=
  if !inData a then some causeDataRange else if a % 4 ≠ 0 then some causeAlign else none

/-- Thread t may write address a (Table 9-10). -/
def mayWrite (t : Thr) (a : Nat) : Bool :=
  if a < 0x1400 then true
  else if a < 0x8000 then decide ((a - 0x1400) / 0xC00 = t.k.1)
  else
    let o := a - 0x100000
    if o < 0x4000 then decide (o / 0x800 = t.k.1)
    else if o < 0x4400 then t.k == 8
    else decide (o < 0x10000)

/-- A word of the data address space of a cluster (Table 9-6). -/
def State.readData (s : State) (n : Cl) (a : Nat) : Word :=
  if a < 0x8000 then memWord (s.cl n).dmem a else s.readTable n (a - 0x100000)

/-- A write of tick t to a word of the data address space. -/
def State.writeData (s : State) (n : Cl) (a : Nat) (v : Word) (t : Nat) : State :=
  if a < 0x8000 then s.modCl n fun k => { k with dmem := memSetWord k.dmem a v }
  else s.writeTable n (a - 0x100000) v t

/-- LD (Table 10-6). -/
def execLd (t : Thr) (w : ZWord) (s : State) : Host.Outcome State Fault Refusal :=
  .next (s.issue t w (legalMem w) false fun s =>
    let a := s.memAddr t w
    match dataFault a with
    | some c => .error c
    | none => .ok (s.setG t w.rd (s.readData t.cl a)))

/-- ST (Table 10-6, R262, R263): WRITE_DENIED outside the rights of Table 9-10. -/
def execSt (t : Thr) (w : ZWord) (s : State) : Host.Outcome State Fault Refusal :=
  .next (s.issue t w (legalMem w) false fun s =>
    let a := s.memAddr t w
    match dataFault a with
    | some c => .error c
    | none => if mayWrite t a then .ok (s.writeData t.cl a (s.g t w.rd) (s.thNow t)) else .error causeWriteDenied)

/-- MOVS (Table 10-7): s.tick goes to a pair (R250). -/
def execMovs (t : Thr) (w : ZWord) (s : State) : Host.Outcome State Fault Refusal :=
  .next (s.issueOk t w (legalMovs w) fun s =>
    let v := s.readSpec t (ff w 0 3)
    if ff w 0 3 = 0 then s.modTh t fun h => h.setPair w.rd v.1 v.2 else s.setG t w.rd v.1)

/-- MOVD (Table 10-7, R250). -/
def execMovd (t : Thr) (w : ZWord) (s : State) : Host.Outcome State Fault Refusal :=
  .next (s.issueOk t w (legalMovd w) fun s => s.writeSpec t (ff w 0 3) (s.g t w.ra))

/-- EVT (Table 10-18): PROG_EVT of the channel, or of the cluster for t8 (Table 16-4). -/
def execEvt (t : Thr) (w : ZWord) (s : State) : Host.Outcome State Fault Refusal :=
  .next (s.issueOk t w (legalEvt w) fun s =>
    match thCh t with
    | some c => s.chEv c .progEvt (wd (ff w 0 16))
    | none => s.raise (clSrc t.cl 1) 0x108 (wd (ff w 0 16)))

/-- The ring pair that an EMIT of the thread goes to has credit: Open, with room for its two units (R388, R33). -/
def State.emitRoom (s : State) (t : Thr) : Bool :=
  match (s.th t).from_ with
  | some r => (s.ring r.1 r.2).st == .opened && s.canWrite r.1 r.2 2
  | none => false

/-- The EMIT packet of the slot that issues at die tick `tick` (R388). -/
def State.sendEmit (s : State) (t : Thr) (ra : BitVec 4) (tag : BitVec 16) (tick : Nat) : State :=
  match (s.th t).from_ with
  | none => s
  | some r =>
    let lch := match thCh t with
      | some c => c.1
      | none => 127
    s.post { OutPkt.blank r.1 r.2 0x85 with
      tag := tag.setWidth 32, res0 := wd (at_ lch 8 + at_ t.k.1 4 + t.cl.1), res1 := BitVec.ofNat 64 tick,
      pay := (List.range 8).flatMap fun i => leBytes 4 ((s.g t (ra + BitVec.ofNat 4 i)).toNat) }

/-- EMIT (Table 10-18, R312): it sends at once with credit, else the thread waits for credit and CREDIT_WAIT is set. -/
def execEmit (t : Thr) (w : ZWord) (s : State) : Host.Outcome State Fault Refusal :=
  .next (s.issueOk t w (legalEmit w) fun s =>
    let tag := (f17 w).extractLsb' 0 16
    if s.emitRoom t then (s.sendEmit t w.ra tag (s.thNow t)).modTh t fun h => { h with waited := 0 }
    else (s.stickTh t stickCredit true).beginWait t (.emit w.ra tag) none none)

/-- EMIT_CREDIT_AVAILABLE (R33, R388): the waiting EMIT completes in the slot in which credit comes, with its registers as
they stand; the thread goes on at its first issue tick after that. Without credit nothing changes (log 3). -/
def execEmitCreditAvailable (tk : Nat) (t : Thr) (s : State) : Host.Outcome State Fault Refusal :=
  .next (s.eventAt tk fun s =>
    match (s.th t).wait with
    | some w => match w.kind with
      | .emit ra tag =>
        if s.emitRoom t then
          let n := s.issueTick t (s.thNow t + 1)
          (s.sendEmit t ra tag (n - 9)).endWait t w n
        else s
      | _ => s
    | none => s)

end Sys2Proof.Machine
end

