-- ==== Sys2Proof/Machine/RecordEv.lean ====
section
/-! DEFINITION. Trigger line edges and the events of records, streams and marks (08.4-08.7). -/

namespace Sys2Proof.Machine

/-! ## Judging an edge (R225) -/

/-- An ignored edge: TRIG_IGN rises and its IGN bit sets. -/
def CapSt.ignore (k : CapSt) (b : Nat) : CapSt := { k with trigIgn := satAdd 0xFFFFFFFF k.trigIgn 1 }.stick b

/-- Last boundary of the open or the latest record, or under a stream of the open and latest marks (R225, R238). -/
def CapSt.lastOpen (k : CapSt) : Option Nat :=
  ((k.cur.toList.filter fun r => !r.stream).map (·.last) ++ k.marks.map (·.last) ++ k.latest.toList).max?

/-- Stay holds the edge of tick te off (R225). -/
def CapSt.stays (k : CapSt) (te : Nat) : Bool :=
  let v := fld k.stayRun 0 31
  k.accSince && (if bit k.stayRun 31 then decide (k.nEv < v) else decide (te < k.tAcc + v))

/-- What an accepted edge changes: Stay begins anew, one more record, and ARMED clears with the last of COUNT (R225,
R227). -/
def CapSt.accept (k : CapSt) (te : Nat) : CapSt :=
  let k := { k with tAcc := te, nEv := 0, accSince := true, opened := k.opened + 1, stayRun := k.stay }
  if k.count ≠ 0 && k.opened == k.count then { k with armed := false } else k

/-- An accepted edge opens the record of boundaries k0 to k0 + L - 1; samples already delivered enter it (R225, R229). -/
def State.openRec (s : State) (c : Ch) (r : Rec) (te : Nat) : State :=
  let s := ((s.placeRec c r).takeHist c).modCap c (·.accept te)
  s.modCap c fun k => if k.armed then k else { k with hist := [], doneSeq := r.seq }

/-- An accepted edge under CAPT+STRM opens a mark; its sets take the samples already delivered (R238). -/
def State.openMark (s : State) (c : Ch) (first last te : Nat) : State :=
  let k := (s.ch c).cap
  let q := (s.sideOwner c first).getD 0
  let no := k.markNo + 1
  let ms := (k.hist.reverse.filter fun p =>
      decide (first ≤ s.spanTick c p) && decide (s.spanTick c p ≤ last)).foldl
    (fun m p => s.measTake c p m) (MeasSet.empty, MeasSet.empty)
  let s := s.side c q (sideItem (0x06 + at_ (no % 65536) 16) q (first % 2 ^ 32) (first / 2 ^ 32))
  let m : Mark := { no := no, first := first, last := last, mA := ms.1, mB := ms.2 }
  let s := s.modCap c fun k => { k with markNo := no, marks := k.marks ++ [m] }.accept te
  s.modCap c fun k => if k.armed then k else { k with hist := [], doneMark := no }

/-- The capture unit judges an edge with edge tick te on the line it is armed on (R225, R238). -/
def State.judge (s : State) (c : Ch) (te : Nat) : State :=
  let k := (s.ch c).cap
  let kt := s.idxAt c te
  let ts := s.sTick c kt
  let marks := mSTRM (s.ch c).mode
  let k0 := kt - k.pre
  let r := s.newRec c k0 (k.lenm1 + 1) te k.pre false
  if k.stays te then s.modCap c fun k => { k with nEv := if bit k.stayRun 31 then k.nEv + 1 else k.nEv }.ignore 21
  else if k.lastOpen.any fun l => decide (ts ≤ l) then s.modCap c (·.ignore 22)
  else if kt - s.idxAt c k.fill < k.pre then s.modCap c (·.ignore 23)
  else if marks then s.openMark c (s.sTick c k0) (s.sTick c (k0 + k.lenm1)) te
  else if s.dataRoom c r.area then s.openRec c r te
  else s.modCap c (·.ignore 20)

/-! ## The blocks that take a line (R217) -/

/-- An urgent trigger on the line that UTRIG names (R115, R117): not under Style B, and only A's of an interleaved pair. -/
def State.edgeUrgent (s : State) (c : Ch) (v : Conv) (line : Nat) : State :=
  let x := (s.ch c).conv v
  if bit x.cfg.mcfg 15 && fld x.cfg.mcfg 16 5 == line && !x.cfg.styleB && !(v == .b && (s.ch c).ilv) then
    if x.busyAt (s.now c) then s.dropUrgent c v else s.acceptUrgent c v (s.now c)
  else s

/-- A pass start on the line that PSTART names (R125). -/
def State.edgePass (s : State) (c : Ch) (v : Conv) (line : Nat) : State :=
  let m := ((s.ch c).conv v).cfg.mcfg
  if bit m 31 && fld m 26 5 == line then s.passStart c v (s.now c) else s

/-- Generator start on SLINE (R210) and a wait on the segment's line (R194). -/
def State.edgeGen (s : State) (c : Ch) (line : Nat) : State :=
  let w := s.ctl c 0x500
  let t := s.now c
  s.modGen c fun g =>
    let g := if fld w 24 2 == 1 && fld w 19 5 == line && g.armedAt.any (fun a => decide (a < t)) && g.lineHit.isNone then
        { g with lineHit := some t } else g
    match g.waiting, g.cur with
    | some a, some q => if a < t ∧ q.wline.toNat = line ∧ g.waitHit.isNone then { g with waitHit := some t } else g
    | _, _ => g

/-- Every block of a channel meets an edge on line i of its cluster with edge tick te (R217). -/
def State.edgeCh (s : State) (c : Ch) (i te : Nat) : State :=
  if (s.ch c).st == .off then s
  else
    let s := (s.edgeUrgent c .a i).edgeUrgent c .b i
    let s := (s.edgePass c .a i).edgePass c .b i
    let s := if (s.pulseCfg c).trig.toNat == i then s.pulseTrigger c 1 (s.now c) else s
    let s := s.edgeGen c i
    if (s.ch c).cap.armed && (s.ch c).cap.line.toNat == i then s.judge c te else s

/-- A WAIT.TRIG on the line has its condition; it completes one tick after the arrival (R264, Table 9-11). -/
def State.edgeThread (s : State) (t : Thr) (i : Nat) : State :=
  s.modTh t fun h => match h.wait with
    | some w => match w.kind with
      | .trig l _ => if l.toNat == i && w.hit.isNone then { h with wait := some { w with hit := some (s.thNow t + 1) } } else h
      | _ => h
    | none => h

/-- The Pack lines that this package owns and that take the line are to be driven 8 ticks after the edge tick (R242). -/
def State.edgePack (s : State) (n : Cl) (i te : Nat) : State :=
  let l := (List.finRange 8).filter fun j => bit s.pack.cfg (8 + j.1) && (s.pack.src.get j).toNat == 32 * n.1 + i
  { s with pack := { s.pack with trgPend := s.pack.trgPend ++ l.map fun j => (j.1, te + 8) } }

/-- An edge of the level counts under SENSE (Table 8-1). -/
def senseTakes (tline : Word) (rising : Bool) : Bool :=
  match fld tline 14 2 with
  | 0 => rising
  | 1 => !rising
  | 2 => true
  | _ => false

/-- Line i has a source or a marker (R215). -/
def State.lineDriven (s : State) (n : Cl) (i : Nat) : Bool :=
  let src := fld (s.tline n i) 8 4
  (decide (0 < src) && decide (src < 8)) || (chsOfCl n).any fun c =>
    let m := (s.ch c).gen.mkcfg
    (bit m 9 && fld m 4 5 == i) || (bit m 25 && fld m 20 5 == i)

/-- TRIGGER_LINE_EDGE (R215-R217): line i of a powered cluster takes a new level with edge tick te; an edge that SENSE
counts meets every block. A line without a source, or an unchanged level, is no edge (log 3). -/
def execTriggerLineEdge (tk : Nat) (n : Cl) (i : Fin 32) (level : Bool) (te : Nat) (s : State) :
    Host.Outcome State Fault Refusal :=
  .next (s.eventAt tk fun s =>
    let m : BitVec 32 := wd (2 ^ i.1)
    if !(s.rg (rgOfCl n)).on || !s.lineDriven n i.1 || bit (s.cl n).lines i.1 == level then s
    else
      let s := s.modCl n fun k => { k with lines := if level then k.lines ||| m else k.lines &&& ~~~m }
      if !senseTakes (s.tline n i.1) level then s
      else
        let te := min te (s.dt (dieOfCl n))
        let s := s.each (chsOfCl n) fun c s => s.edgeCh c i.1 te
        let s := s.each (thrsOf n) fun t s => s.edgeThread t i.1
        s.edgePack n i.1 te)

/-! ## Ends -/

/-- Tick at which the last code of a span with last boundary `last` is delivered, the converters configured as given (R102,
R123). -/
def State.lastDelivery (s : State) (c : Ch) (last : Nat) (a b : ConvCfg) : Nat :=
  s.sTick c (s.sIdx c last + (if a.lp || b.lp then 72 else 18) + b1 a.ilv)

/-- RECORD_END (R225): the open record reaches its last planned boundary. -/
def execRecordEnd (tk : Nat) (c : Ch) (s : State) : Host.Outcome State Fault Refusal :=
  .next (s.eventAt tk fun s => match (s.ch c).cap.cur with
    | some r => if !r.stream && decide (r.last ≤ s.now c) then s.endRec c else s
    | none => s)

/-- RECORD_FINALIZE (R231): the oldest closing record has its last samples and results, or no more can come; the hub serves
(R351). REC_CLOSED follows its Pedigree
entry. -/
def execRecordFinalize (tk : Nat) (c : Ch) (s : State) : Host.Outcome State Fault Refusal :=
  .next (s.eventAt tk fun s => match (s.ch c).cap.closing with
    | r :: _ => if s.hubServes && !s.hub.recovery && (decide (r.len = 0) || decide (s.lastDelivery c r.last r.cfgA r.cfgB ≤ s.now c) || !(s.die.get (dieOfCh c)).linkUp) then (s.forwardRes c).finalize c else s
    | [] => s)

/-- CHUNK_END (R237): the chunk, open or skipped, reaches its length, and the next begins at the following boundary. -/
def execChunkEnd (tk : Nat) (c : Ch) (s : State) : Host.Outcome State Fault Refusal :=
  .next (s.eventAt tk fun s =>
    let k := (s.ch c).cap
    if k.streaming && decide (k.chunkLast ≤ s.now c) then (s.endRec c).openChunk c (s.idxAt c k.chunkLast + 1) else s)

/-- MARK_SPAN_CLOSE (R238): MARK_CLOSE and both measurement sets of the oldest mark whose samples have all come; with the
last of COUNT, DONE and CAP_DONE (R227). -/
def execMarkSpanClose (tk : Nat) (c : Ch) (s : State) : Host.Outcome State Fault Refusal :=
  .next (s.eventAt tk fun s => match (s.ch c).cap.marks with
    | m :: rest =>
      if s.lastDelivery c m.last (s.ch c).convA.cfg (s.ch c).convB.cfg ≤ s.now c then
        let q := (s.sideOwner c m.last).getD 0
        let s := s.side c q (sideItem (0x07 + at_ (m.no % 65536) 16) q (m.last % 2 ^ 32) (m.last / 2 ^ 32)
          ++ measItems q m.no false m.mA ++ measItems q m.no true m.mB)
        let s := s.modCap c fun k => { k with marks := rest, latest := some m.last, fill := s.nextB c m.last }
        if (s.ch c).cap.doneMark == m.no then
          (s.modCap c fun k => { k with doneMark := 0 }.stick 17).chEv c .capDone (wd (s.ch c).cap.recSeq)
        else s
      else s
    | [] => s)

/-- SIDE_ROOM_RETURN (R233): the count of lost side items is written as soon as there is room for its item. -/
def execSideRoomReturn (tk : Nat) (c : Ch) (s : State) : Host.Outcome State Fault Refusal :=
  .next (s.eventAt tk fun s =>
    let k := (s.ch c).cap
    if 0 < k.sideLost ∧ 16 ≤ s.sideRoom c then s.side c ((k.cur.map (·.seq)).getD 0) [] else s)

end Sys2Proof.Machine
end

