-- ==== Sys2Proof/Machine/GenCmd.lean ====
section
/-! DEFINITION. Generator instructions (10.8, Table 7-4), judged at their issue tick (R299). -/

namespace Sys2Proof.Machine

/-- The segment lies where R202 and R423 allow. -/
def State.segOk (s : State) (c : Ch) (q : Seg) : Bool :=
  q.ends != 3 && s.inWindow (s.owner.get c) (16 * q.base) (16 * (q.len + 1))

/-- SEG d (R196, R202, R260, R301). -/
def cmdSeg (d : Fin 16) (c : Ch) (s : State) : State × Nat :=
  let h := s.ch c
  let q := s.readSeg c d
  if h.st = .off then (s, 1)
  else if !s.segOk c q then (s, 0x18)
  else if h.gen.follower == .next then (s, 0x19)
  else
    let z := s.sizeFor c
    let s := s.modGen c fun g =>
      let g := if !g.running && g.next.isNone then { g with size := z.1, cut := z.2 } else g
      { g with next := some q, nextLoaded := 0, nextSize := g.size, eccNext := none }
    (s.genArm c (s.now c), 0)

/-- JUMP (R201, R202): late at or after the tick of the commit point. -/
def cmdJump (c : Ch) (s : State) : State × Nat :=
  let h := s.ch c
  if h.st = .off then (s, 1)
  else if !h.gen.running then (s, 0x1A)
  else if h.gen.jumpPend then (s, 0x1B)
  else (s.modGen c fun g => { g with jumpPend := true, jumpAt := s.now c }.stick 1 (h.gen.follower != Follower.undecided), 0)

/-- RATE M, N (R189). -/
def cmdRate (m n : Word) (c : Ch) (s : State) : State × Nat :=
  if (s.ch c).st = .off then (s, 1)
  else if m = 0 ∨ n.toNat < m.toNat ∨ 4096 < n.toNat then (s, 0x1C)
  else (s.modGen c fun g => { g with rateM := m.toNat, rateN := n.toNat }, 0)

/-- Marker w of channel d drives pin p (R209). -/
def State.drivesPin (s : State) (d : Ch) (w : Bool) (p : Nat) : Bool :=
  let k := (s.ch d).gen.mkcfg
  let o := if w then 16 else 0
  s.rgOn d && bit k (15 + o) && fld k (10 + o) 5 == p

/-- MARK (R300, R214): MSRC, line and pin of one marker from the next tick; lines that gain or lose the marker take their
level, a level that the same MARK forces included, without an edge. -/
def cmdMark (w : Bool) (v : Word) (c : Ch) (s : State) : State × Nat :=
  let h := s.ch c
  let pin := fld v 10 5
  let wrongDie := decide (pin / 12 ≠ (dieOfCh c).1)
  let busy := allChs.any fun d => [false, true].any fun m => !(d == c && m == w) && s.drivesPin d m pin
  if h.st = .off then (s, 1)
  else if bit v 15 && (decide (23 < pin) || wrongDie) then (s, 0x1D)
  else if bit v 15 && busy then (s, 0x1E)
  else
    let sh := if w then 16 else 0
    let old := h.gen.mkcfg
    let cfg := (old &&& ~~~((0xFFFF : Word) <<< sh)) ||| ((v &&& 0xFFFC) <<< sh)
    let forced := decide (fld cfg (2 + sh) 2 = 1) || decide (fld cfg (2 + sh) 2 = 2)
    let lvl := mkLevel cfg (b1 w) (bit h.gen.mkBits (b1 w))
    let s := s.modGen c fun g =>
      { g with mkcfg := cfg, mkPend := if forced then g.mkPend.filter fun p => p.2.1 != w else g.mkPend }
    let x := if forced then s.modGen c (·.setMk w lvl) else s
    let x := if fld old (4 + sh) 6 ≠ fld cfg (4 + sh) 6 then
        (x.syncLine (clOf c) (fld old (4 + sh) 5)).syncLine (clOf c) (fld cfg (4 + sh) 5)
      else s
    let s := s.modCl (clOf c) fun k => { k with lines := (x.cl (clOf c)).lines }
    (s.modGen c fun g => g.askMk w lvl (s.now c + 1), 0)

/-- The descriptor field of SEG. -/
def fSegD (w : ZWord) : Fin 16 := ⟨ff w 0 4, by unfold ff fld; omega⟩

/-- SEG (R196). -/
def execSeg (t : Thr) (w : ZWord) (s : State) : Host.Outcome State Fault Refusal :=
  .next (s.issueCh t w (legalF w false false false 0xF) fun c s => cmdSeg (fSegD w) c s)
/-- JUMP (R201). -/
def execJump (t : Thr) (w : ZWord) (s : State) : Host.Outcome State Fault Refusal :=
  .next (s.issueCh t w (legalF w false false false 0) fun c s => cmdJump c s)
/-- RATE (R189). -/
def execRate (t : Thr) (w : ZWord) (s : State) : Host.Outcome State Fault Refusal :=
  .next (s.issueCh t w (legalR w false false true true 0) fun c s => cmdRate (s.g t w.ra) (s.g t w.rb) c s)
/-- MARK (R300). -/
def execMark (t : Thr) (w : ZWord) (s : State) : Host.Outcome State Fault Refusal :=
  .next (s.issueCh t w (legalV w 0x10000) fun c s => cmdMark (bit (f17 w) 16) (s.opV t w) c s)

end Sys2Proof.Machine
end

