-- ==== Sys2Proof/Machine/Packet.lean ====
section
/-! DEFINITION. Submission packets as items (15.1-15.5): the types of Tables 15-3, 18-9 and 19-5, the checks of Table 15-6,
acceptance with the journal of R398, order and fences (R382), the frame in which a packet executes, and the aborts of R395
and R397. -/

namespace Sys2Proof.Machine

/-- What the DEST of a packet type names. -/
inductive DestKind where
  | none | ch | cl | rg | rgAll
deriving DecidableEq, Repr

/-- A row of the packet tables: accepted on ring 0 only, from context 0 only, range of LEN, and DEST. -/
structure PktRow where
  ctl  : Bool
  ctx0 : Bool
  lo   : Nat
  hi   : Nat
  dest : DestKind
deriving DecidableEq, Repr

/-- A row any context may send on any ring. -/
def anyRow (lo hi : Nat) (d : DestKind) : PktRow := { ctl := false, ctx0 := false, lo := lo, hi := hi, dest := d }

/-- A row of context 0. -/
def zeroRow (lo hi : Nat) : PktRow := { ctl := false, ctx0 := true, lo := lo, hi := hi, dest := .none }

/-- Tables 15-3, 18-9 and 19-5 by TYPE; none for an unknown type (R384, R462, R480). -/
def pktRow (type : Byte) : Option PktRow :=
  match type.toNat with
  | 0x01 => some (anyRow 0 2048 .none)
  | 0x02 => some { ctl := true, ctx0 := false, lo := 1, hi := 1, dest := .none }
  | 0x03 => some { ctl := true, ctx0 := false, lo := 0, hi := 0, dest := .none }
  | 0x04 => some { ctl := true, ctx0 := false, lo := 0, hi := 0, dest := .none }
  | 0x10 => some (anyRow 1 2048 .cl)
  | 0x11 => some (anyRow 3 3 .cl)
  | 0x12 => some (anyRow 0 0 .cl)
  | 0x13 => some (anyRow 0 0 .cl)
  | 0x14 => some (anyRow 0 0 .cl)
  | 0x20 => some (anyRow 0 0 .ch)
  | 0x21 => some (anyRow 0 0 .ch)
  | 0x30 => some (anyRow 0 0 .ch)
  | 0x40 => some (anyRow 0 0 .rg)
  | 0x41 => some (anyRow 1 1 .ch)
  | 0x42 => some (anyRow 0 0 .rgAll)
  | 0x43 => some (anyRow 0 0 .none)
  | 0x44 => some (zeroRow 1 2048)
  | 0x45 => some (zeroRow 0 0)
  | 0x46 => some (zeroRow 0 0)
  | 0x47 => some (anyRow 0 0 .none)
  | 0x48 => some (anyRow 0 0 .rg)
  | 0x49 => some (anyRow 0 0 .ch)
  | 0x4A => some (zeroRow 0 0)
  | 0x50 => some (anyRow 0 0 .none)
  | 0x51 => some (anyRow 1 1 .none)
  | 0x52 => some (anyRow 0 0 .none)
  | 0x53 => some (anyRow 0 0 .none)
  | 0x54 => some (zeroRow 0 0)
  | 0x58 => some (zeroRow 1 1)
  | 0x59 => some (zeroRow 1 1)
  | 0x5A => some (zeroRow 0 0)
  | 0x5B => some (zeroRow 0 0)
  | 0x5C => some (zeroRow 0 0)
  | _ => none

/-! ## DEST -/

/-- Channel of DEST, modulo the number of channels; the checks have judged the field (R390). -/
def destCh (h : Hdr) : Ch := ⟨fld h.dest 0 8 % 96, by omega⟩
/-- Cluster of DEST. -/
def destCl (h : Hdr) : Cl := ⟨fld h.dest 8 8 % 12, by omega⟩
/-- Region of DEST. -/
def destRg (h : Hdr) : Rg := ⟨fld h.dest 16 8 % 6, by omega⟩

/-- A DEST field lies in its range where the type uses it, and is 0xFF elsewhere. -/
def destOk (d : DestKind) (w : Word) : Bool :=
  let c := fld w 0 8
  let n := fld w 8 8
  let r := fld w 16 8
  match d with
  | .none => decide (c = 255) && decide (n = 255) && decide (r = 255)
  | .ch => decide (c < 96) && decide (n = 255) && decide (r = 255)
  | .cl => decide (c = 255) && decide (n < 12) && decide (r = 255)
  | .rg => decide (c = 255) && decide (n = 255) && decide (r < 6)
  | .rgAll => decide (c = 255) && decide (n = 255) && (decide (r < 6) || decide (r = 255))

/-- The die that an item's destination lies on (R395). LOAD and MEMRD of acquisition memory and READOUT go through the hub
alone (R424, 15.8). -/
def pktDie (h : Hdr) : Option Die :=
  match (pktRow h.type).map PktRow.dest with
  | some DestKind.ch => if h.type = 0x30 then none else some (dieOfCh (destCh h))
  | some DestKind.cl => if (h.type = 0x10 ∨ h.type = 0x14) ∧ fld h.arg0 0 2 = 3 then none else some (dieOfCl (destCl h))
  | some DestKind.rg => some (dieOfRg (destRg h))
  | some DestKind.rgAll => if fld h.dest 16 8 = 255 then none else some (dieOfRg (destRg h))
  | _ => none

/-- Regions named in a mask. -/
def regionsOf (m : Nat) : List Rg := (List.finRange 6).filter fun r => m.testBit r.1

/-! ## Checks (Table 15-6) -/

/-- The owning context that a breach names: of a list of channels the one that owns them all, or 127. -/
def State.ownerOr127 (s : State) (cs : List Ch) : Nat :=
  match cs with
  | c :: _ => if s.ownsAll (s.owner.get c) cs then (s.owner.get c).1 else 127
  | [] => 127

/-- CTX_BREACH (R392, R462, R480): the context that owns what the packet names, where it is another. -/
def State.breach (s : State) (p : Pkt) (row : PktRow) : Option Nat :=
  let h := p.hdr
  let other := fun (o : Nat) => if o = p.ctx.1 then none else some o
  if row.ctx0 then other 0
  else if h.type = 0x53 ∧ h.arg1.getLsbD 32 then other 0
  else if h.type = 0x47 then
    ((regionsOf (fld h.arg0 0 6 ||| fld h.arg0 8 6)).find? fun r => s.rgOwner r != p.ctx).map fun r => (s.rgOwner r).1
  else if h.type = 0x43 then
    ([fld h.arg0 0 7, fld h.arg0 8 7].filterMap fun c => if hc : c < 96 then other (s.owner.get ⟨c, hc⟩).1 else none).head?
  else match row.dest with
    | .ch => other (s.owner.get (destCh h)).1
    | .cl => other (s.ownerOr127 (chsOfCl (destCl h)))
    | .rg => other (s.rgOwner (destRg h)).1
    | _ => none

/-- The first check of Table 15-6 that a packet fails beyond LEN_OVER and FETCH_ERR: cause, RES0 and RES1 (R390). -/
def State.checkPkt (s : State) (p : Pkt) : Option (Byte × Nat × Nat) :=
  let h := p.hdr
  match pktRow h.type with
  | none => some (0x02, h.type.toNat, 0)
  | some row =>
    if s.hub.recovery && !(h.type == 0x50 || h.type == 0x44 || h.type == 0x45) then some (0x02, h.type.toNat, 0)
    else if fld h.flags 1 7 ≠ 0 then some (0x03, 0x01, fld h.flags 1 7)
    else if fld h.dest 24 8 ≠ 0 then some (0x03, 0x0F, fld h.dest 24 8)
    else if h.len.toNat < row.lo ∨ row.hi < h.len.toNat then some (0x04, h.len.toNat, row.hi)
    else if row.ctl ∧ p.ring ≠ 0 then some (0x05, h.type.toNat, 0)
    else if !destOk row.dest h.dest then some (0x06, h.dest.toNat, 0)
    else (s.breach p row).map fun o => (0x07, h.dest.toNat, o)

/-! ## Acceptance (R381, R398) -/

/-- The packet is an item already. -/
def State.isItem (s : State) (p : Pkt) : Bool := s.items.any (samePkt p)

/-- Stage of an item in the journal. -/
def State.stage (s : State) (p : Pkt) : Nat :=
  ((s.journal.find? fun j => j.ctx == p.ctx && j.ring == p.ring && j.hdr == p.hdr).map fun j => j.stage.1).getD 0

/-- A packet that has been read is accepted, or answered with its violation (R381, R390). -/
def State.accept (s : State) (p : Pkt) : State :=
  match s.checkPkt p with
  | some v => s.violPkt p.ctx p.ring p.hdr true v.1 (wd v.2.1) (wd v.2.2)
  | none => { s with
      items := s.items ++ [p], journal := s.journal ++ [{ ctx := p.ctx, ring := p.ring, hdr := p.hdr, stage := 0 }] }

/-- Items of the same ring accepted before this one. -/
def State.before (s : State) (p : Pkt) : List Pkt :=
  (s.items.takeWhile fun q => !samePkt p q).filter fun q => q.ctx == p.ctx && q.ring == p.ring

/-- The item must wait: a fence with an earlier item, or an earlier item to the same destination that has not begun (R382). -/
def State.mustWait (s : State) (p : Pkt) : Bool :=
  let l := s.before p
  (bit p.hdr.flags 0 && !l.isEmpty) || l.any fun q => q.hdr.dest == p.hdr.dest && s.stage q == 0

/-! ## Execution -/

/-- The die link is down, or the die's clock has been lost while a region of it is powered (R395). -/
def State.dieLost (s : State) (d : Die) : Bool :=
  !(s.die.get d).linkUp || (!(s.die.get d).clkOk && (rgsOfDie d).any fun r => (s.rg r).on)

/-- An accepted item begins: on a die that is down it fails with DIE_DOWN (R395). -/
def State.begin_ (s : State) (p : Pkt) (f : State → State) : State :=
  match pktDie p.hdr with
  | some d => if s.dieLost d then s.failed p 0x4F else f (s.mark p 1)
  | none => f (s.mark p 1)

/-- The frame of a packet row (log 8): a packet that is no item yet meets acceptance first; it executes unless it must wait, has
begun already, is of another type, or its ring is in Recap. -/
def State.runPkt (s : State) (p : Pkt) (type : Byte) (f : State → State) : State :=
  s.eventAt p.tk fun s =>
    if (s.ring p.ctx p.ring).st == .recap then s
    else
      let s := if s.isItem p then s else s.accept p
      if s.isItem p && p.hdr.type == type && s.stage p == 0 && !s.mustWait p then s.begin_ p f else s

/-- Fault aborts: every item that a test picks completes ABORTED_BY_FAULT with a code. No LOAD, START, STOP or POKE of the
model confirms a part of its effect alone, so RES0 is 0 (R395, R397). -/
def State.abortItems (s : State) (code : Byte) (f : Pkt → Bool) : State :=
  s.each (s.items.filter f) fun p s => s.complete p stAborted code 0 0 []

/-- The items that a fault of die d aborts. -/
def onDie (d : Die) (p : Pkt) : Bool := pktDie p.hdr == some d

/-- The items that a fault of cluster n aborts (R397). -/
def onCluster (n : Cl) (p : Pkt) : Bool :=
  match p.hdr.type.toNat with
  | 0x10 | 0x11 | 0x12 | 0x13 | 0x14 => destCl p.hdr == n
  | 0x20 => clOf (destCh p.hdr) == n
  | _ => false

end Sys2Proof.Machine
end

