-- ==== Sys2Proof/Machine/HostPkt.lean ====
section
/-! DEFINITION. Host packets of rings, memory, threads and channels (Table 15-3, types 0x01 to 0x30). -/

namespace Sys2Proof.Machine

/-- A 64-bit number from payload bytes at an offset. -/
def pay64 (p : Pkt) (o : Nat) : DWord := BitVec.ofNat 64 (leNat ((p.payload.drop o).take 8))
/-- A word from payload bytes at an offset. -/
def pay32 (p : Pkt) (o : Nat) : Word := wd (leNat ((p.payload.drop o).take 4))

/-! ## Rings (14.5) -/

/-- NOP: OK, the payload ignored. -/
def execNop (p : Pkt) (s : State) : Host.Outcome State Fault Refusal := .next (s.runPkt p 0x01 fun s => s.ok p)

/-- CFG word of a ring (Table 14-10). -/
def Ring.cfgWord (g : Ring) : Word := wd (at_ g.sqLog 27 + at_ g.cqLog 22 + g.win)
/-- IRQ word of a ring. -/
def Ring.irqWord (g : Ring) : Word :=
  wd (at_ (b1 g.irqEn) 31 + at_ g.vec.toNat 26 + at_ g.modCnt 18 + at_ g.modT 10 + at_ g.weight 6)

/-- STATE codes (Table 14-11). -/
def RingSt.code : RingSt → Nat
  | .closed => 0
  | .opened => 1
  | .draining => 2
  | .faulted => 3
  | .recap => 4

/-- The 64 bytes of a descriptor (Table 14-10). -/
def Ring.bytes (g : Ring) : List Byte :=
  leBytes 8 g.sqBase.toNat ++ leBytes 8 g.cqBase.toNat ++ leBytes 8 g.tailWb.toNat ++ leBytes 4 g.sqTail.toNat
    ++ leBytes 4 g.sqHead.toNat ++ leBytes 4 g.limit.toNat ++ leBytes 4 g.cqTail.toNat ++ leBytes 4 g.cqHead.toNat
    ++ leBytes 4 g.lastSeq.toNat ++ leBytes 4 g.cfgWord.toNat ++ leBytes 4 g.irqWord.toNat ++ leBytes 4 g.st.code
    ++ leBytes 4 0

/-- A ring as it opens: every index 0, LIMIT = WIN (R367, R369). -/
def openRing (sq cq wb : DWord) (cfg irq : Word) (win : Nat) : Ring :=
  { Ring.closed with
    sqBase := sq, cqBase := cq, tailWb := wb, limit := wd win, shown := wd win, sqLog := fld cfg 27 5, cqLog := fld cfg 22 5,
    win := win, irqEn := bit irq 31, vec := irq.extractLsb' 26 5, modCnt := fld irq 18 8, modT := fld irq 10 8,
    weight := fld irq 6 4, st := .opened }

/-- Bases and sizes lie inside the limits of R368. -/
def ringArgs (sq cq wb : DWord) (cfg : Word) : Bool :=
  let a := fld cfg 27 5
  let b := fld cfg 22 5
  decide (12 ≤ a) && decide (a ≤ 21) && decide (12 ≤ b) && decide (b ≤ 21)
    && decide (fld sq 0 12 = 0) && decide (fld cq 0 12 = 0) && decide (fld wb 0 3 = 0)

/-- The ring a ring packet names. -/
def argRing (p : Pkt) : RingNo := ⟨fld p.hdr.arg0 0 12, by unfold fld; omega⟩

/-- RING_CREATE (R368, R373, R420): the argument checks come before the ring's state (DESIGN CHOICE, log 9). -/
def execRingCreate (p : Pkt) (s : State) : Host.Outcome State Fault Refusal :=
  .next (s.runPkt p 0x02 fun s =>
    let r := argRing p
    let sq := pay64 p 0
    let cq := pay64 p 8
    let wb := pay64 p 16
    let cfg := pay32 p 24
    let irq := pay32 p 28
    let win := fld cfg 0 22
    if !s.mem.trained || !ringArgs sq cq wb cfg || decide (win < 2049) || decide (fld irq 0 6 ≠ 0) then s.failed p 0x45
    else if (s.ring p.ctx r).st != .closed then s.failed p 0x46
    else ((s.setRing p.ctx r (openRing sq cq wb cfg irq win)).touchCache p.ctx r).ok p)

/-- RING_DESTROY (R373): Draining until its completions are written; a Faulted ring closes at once; ring 0 and a Closed ring are
refused with BAD_RING. -/
def execRingDestroy (p : Pkt) (s : State) : Host.Outcome State Fault Refusal :=
  .next (s.runPkt p 0x03 fun s =>
    let r := argRing p
    let g := s.ring p.ctx r
    if r = 0 then s.failed p 0x45
    else match g.st with
      | .closed => s.failed p 0x45
      | .faulted => (s.setRing p.ctx r Ring.closed).complete p stOk 0 (g.sqTail - g.sqHead) 0 []
      | .opened => (s.setRing p.ctx r { g with st := .draining, pend := false }).drainRing p.ctx r
      | .draining => s
      | .recap => (s.setRing p.ctx r Ring.closed).complete p stOk 0 (g.sqTail - g.sqHead) 0 [])

/-- RING_QUERY: the descriptor as payload. -/
def execRingQuery (p : Pkt) (s : State) : Host.Outcome State Fault Refusal :=
  .next (s.runPkt p 0x04 fun s => s.complete p stOk 0 0 0 (s.ring p.ctx (argRing p)).bytes)

/-! ## Memory (R268, R384, R424) -/

/-- Step of the offset in a SPACE, and the end of the space for writes. -/
def spaceStep (sp : Nat) : Nat := if sp = 0 then 8 else if sp = 3 then 32 else 4

/-- The end of a space of a cluster: for a LOAD of table SRAM the slot area, for a MEMRD its whole 512 KiB. -/
def spaceEnd (sp : Nat) (write : Bool) : Nat :=
  if sp = 0 then 0x10000 else if sp = 1 then 0x8000 else if write then 0x10000 else 0x80000

/-- The range of n bytes from the packet's offset lies where a LOAD or MEMRD may reach (R384, R424). -/
def State.spaceOk (s : State) (p : Pkt) (n : Nat) (write : Bool) : Bool :=
  let sp := fld p.hdr.arg0 0 2
  let o := fld p.hdr.arg0 32 32
  decide (o % spaceStep sp = 0) && if sp = 3 then s.inWindow p.ctx ((s.window p.ctx).1 + o) n else decide (o + n ≤ spaceEnd sp write)

/-- Write the words of a payload to table SRAM at tick t, in ascending order. -/
def State.loadTable (s : State) (n : Cl) (o t : Nat) : List Byte → State
  | b0 :: b1 :: b2 :: b3 :: l => (s.writeTable n o (b3 ++ b2 ++ b1 ++ b0) t).loadTable n (o + 4) t l
  | _ => s

/-- LOAD (R268, R424): the host's write is that of the cluster's present tick; a slot area or a range outside its space fails with
BAD_LOAD and writes nothing. -/
def execLoad (p : Pkt) (s : State) : Host.Outcome State Fault Refusal :=
  .next (s.runPkt p 0x10 fun s =>
    let n := destCl p.hdr
    let o := fld p.hdr.arg0 32 32
    if !s.spaceOk p p.payload.length true then s.failed p 0x41
    else
      let s := match fld p.hdr.arg0 0 2 with
        | 0 => s.modCl n fun k => { k with imem := memSetBytes k.imem o p.payload }
        | 1 => s.modCl n fun k => { k with dmem := memSetBytes k.dmem o p.payload }
        | 2 => s.loadTable n o (s.dt (dieOfCl n)) p.payload
        | _ => s.touchMem.acqWrite 255 ((s.window p.ctx).1 + o) p.payload
      s.ok p)

/-- The n words of a cluster's table SRAM from offset o. -/
def State.tableBytes (s : State) (n : Cl) (o : Nat) : Nat → List Byte
  | 0 => []
  | k + 1 => leBytes 4 (s.readTable n o).toNat ++ s.tableBytes n (o + 4) k

/-- MEMRD (R384, R396, R424): an uncorrectable error fails with DRAM_UE and the offset of its first block. -/
def execMemrd (p : Pkt) (s : State) : Host.Outcome State Fault Refusal :=
  .next (s.runPkt p 0x14 fun s =>
    let n := destCl p.hdr
    let o := fld p.hdr.arg0 32 32
    let k := p.hdr.arg1.toNat
    if k % 32 ≠ 0 ∨ k < 32 ∨ 65536 < k ∨ !s.spaceOk p k false then s.failed p 0x41
    else match fld p.hdr.arg0 0 2 with
      | 0 => s.complete p stOk 0 0 0 (memBytes (s.cl n).imem o k)
      | 1 => s.complete p stOk 0 0 0 (memBytes (s.cl n).dmem o k)
      | 2 => s.complete p stOk 0 0 0 (s.tableBytes n o (k / 4))
      | _ =>
        let s := s.touchMem
        let base := (s.window p.ctx).1
        match s.firstBad 0 (2 ^ 37) (base + o) k with
        | some x => (s.logUe 1 255 x.1).complete p stFailed 0x43 0 (BitVec.ofNat 64 (64 * x.1 - base)) []
        | none => s.complete p stOk 0 0 0 (memBytes s.acq (base + o) k))

/-! ## Threads (R269, R271) -/

/-- Threads of the packet's cluster that its mask names. -/
def maskThrs (p : Pkt) : List Thr := (thrsOf (destCl p.hdr)).filter fun t => bit p.hdr.arg0 t.k.1

/-- The pending plan of a channel is taken (R341, R345): its floors and guard act, PLAN_NEW is set, and it enters the Pedigree. -/
def State.takePlan (s : State) (t : Thr) (c : Ch) : State :=
  if (s.ph c).planPend then
    let s := s.modPh c fun p => { p with planForce := p.planNext, planPend := false }
    let f := (s.ph c).planForce
    let s := s.modCh c fun h => { h with floorV := f.floorV, floorI := f.floorI, gbq := f.gbq }
    let s := (s.recalcThr c (s.ch c).scaleEntry).stickTh t stickPlan true
    s.pedQueue 0x0D c.1 (leBytes 1 c.1 ++ leBytes 1 (s.physOf c).1 ++ leBytes 2 0 ++ leBytes 4 (s.ph c).planGen
      ++ leBytes 4 f.word.toNat) .none
  else s

/-- START of one thread, with its first issue tick (R269). -/
def State.startThread (s : State) (p : Pkt) (r0 : Nat) (t : Thr) : State :=
  let s := match thCh t with
    | some c => (s.unfreeze c).takePlan t c
    | none => s
  s.modTh t fun h => { h with
    g := (Vector.replicate 16 (0 : Word)).set 1 (pay32 p (8 * t.k.1 + 4)), stack := [], last := 0
    pc := fld (pay32 p (8 * t.k.1)) 0 14, st := .running, cause := 0, wait := none, ready := r0 + t.k.1
    from_ := some (p.ctx, p.ring) }

/-- START (R269): every named thread that is not Running or Waiting starts in the first round at least 9 ticks on; a cluster
without power has no threads to start (log 10). -/
def execStart (p : Pkt) (s : State) : Host.Outcome State Fault Refusal :=
  .next (s.runPkt p 0x11 fun s =>
    let n := destCl p.hdr
    let ts := maskThrs p
    let busy := ts.filter fun t => (s.th t).busy
    let go := if (s.rg (rgOfCl n)).on then ts.filter fun t => !(s.th t).busy else []
    let bits := fun (l : List Thr) => l.foldl (fun a t => a + at_ 1 t.k.1) 0
    let r0 := s.issueTick ⟨n, 0⟩ (s.dt (dieOfCl n) + 9)
    let s := s.each go fun t s => s.startThread p r0 t
    let res := wd (bits go + at_ (bits busy) 16)
    if busy.isEmpty then s.complete p stOk 0 res 0 [] else s.complete p stFailed 0x47 res 0 [])

/-- STOP (R271): each named thread that runs or waits halts at its next issue tick. -/
def execStop (p : Pkt) (s : State) : Host.Outcome State Fault Refusal :=
  .next (s.runPkt p 0x12 fun s =>
    (s.each (maskThrs p) fun t s =>
      if (s.th t).busy then s.halt t causeHostStop (s.issueTick t (s.thNow t)) else s).ok p)

/-- POKE: HOST_POKE in s.evt of each named thread (Table 9-5). -/
def execPoke (p : Pkt) (s : State) : Host.Outcome State Fault Refusal :=
  .next (s.runPkt p 0x13 fun s => (s.each (maskThrs p) fun t s => s.latchEvt t 24).ok p)

/-! ## Channels (R385, R386) -/

/-- The operation of a channel instruction with the operands V, W and U of a CHCMD (R385); CAL with RES = 1 and READ have no
status. A PARK of the host that completes OK ends stimulus freeze (R13). -/
def chanOp (i : Instr) (v w u : Word) (c : Ch) (s : State) : State × Nat :=
  match i with
  | .mode _ _ => cmdMode v c s
  | .forceSetpoint _ _ => cmdSetpoint v c s
  | .forceBase _ _ => cmdBase v c s
  | .forceParkcode _ _ => cmdParkcode v c s
  | .forceClearcode _ _ => cmdClearcode v c s
  | .forceList _ _ => cmdList v c s
  | .limit _ z => cmdLimit (ff z 0 2) v c s
  | .range _ z => cmdRange (fEntry z) c s
  | .law _ z => cmdLaw (ff z 0 7) v c s
  | .coef _ z => cmdCoef (ff z 0 7) v c s
  | .openLoop _ _ => cmdOpen c s
  | .closeLoop _ _ => cmdClose c s
  | .heel _ _ => cmdHeel v w c s
  | .park _ z =>
    let r := cmdPark (if ff z 0 1 = 1 then none else some (fld v 0 18)) c s
    if r.2 = 0 then (r.1.unfreeze c, 0) else r
  | .tripclr _ _ => cmdTripclr c s
  | .blank _ z => cmdBlank (BitVec.ofNat 4 (ff z 0 4)) v c s
  | .seq _ z => cmdSeq (bit (f17 z) 0) (bit (f17 z) 1) c s
  | .inj _ z => cmdInj (convOf (bit (f17 z) 0)) c s
  | .avg _ z => cmdAvg (convOf (bit (f17 z) 0)) (fAvgEntry z) (ff z 5 5) c s
  | .seg _ z => cmdSeg (fSegD z) c s
  | .jump _ _ => cmdJump c s
  | .rate _ _ => cmdRate v w c s
  | .mark _ z => cmdMark (bit (f17 z) 16) v c s
  | .arm _ z => cmdArm (BitVec.ofNat 5 (ff z 0 5)) c s
  | .armOff _ _ => cmdArmOff c s
  | .stay _ z => cmdStay (bit (f17 z) 16) v c s
  | .recSet _ _ => cmdRec v w u c s
  | .strm _ _ => cmdStrm v c s
  | .cal _ z => cmdCal (ff z 0 4) c s
  | .calgap _ z => cmdCalgap (ff z 0 2) v c s
  | .syscalZero _ z => cmdSysZero (bit (f17 z) 2) (bit (f17 z) 3) (ff z 4 5) c s
  | .syscalFull _ z => cmdSysFull (bit (f17 z) 2) (bit (f17 z) 3) (ff z 4 5) v c s
  | .syscalApply _ z => cmdSysApply (bit (f17 z) 2) (bit (f17 z) 3) c s
  | _ => (s, 0)

/-- RES0 and RES1 of a CHCMD: the outcome word, the register of READ, and what a deferred HEEL holds (R385, R394). -/
def chanRes (i : Instr) (status : Nat) (v w : Word) (c : Ch) (s : State) : Word × DWord :=
  match i with
  | .calRes _ _ => ((s.ch c).cal.word, 0)
  | .read _ z => let r := (s.ch c).resReg (ff z 0 6); (0, r.tstamp ++ r.res)
  | .heel _ _ => if status = 6 then (wi (sfld v 0 24), BitVec.ofNat 64 (fld w 0 24)) else (0, 0)
  | _ => (0, 0)

/-- The channel instruction of a CHCMD word: a tk row of Table 10-21 with RD, RA, RB and X zero and no field that would make a
thread fault (R385). In the F layout RB is the top of F17, which R277 judges. -/
def chcmdInstr (c : Ch) (word : Word) : Option Instr :=
  let z := zword word 0
  let r := match zheve (thOf c) word 0 with
    | some (.heel _ _) | some (.rate _ _) => z.rb == 0
    | _ => true
  if z.x || z.rd != 0 || z.ra != 0 || !r then none
  else (zheve (thOf c) word 0).filter fun i => tkOnly i && zlegal i

/-- CHCMD (R383, R385): judged as the instruction would be; DEFERRED, OK or FAILED by its status. -/
def execChcmd (p : Pkt) (s : State) : Host.Outcome State Fault Refusal :=
  .next (s.runPkt p 0x20 fun s =>
    let c := destCh p.hdr
    let v := p.hdr.arg0.extractLsb' 32 32
    let w := p.hdr.arg1.extractLsb' 0 32
    let u := p.hdr.arg1.extractLsb' 32 32
    match chcmdInstr c (p.hdr.arg0.extractLsb' 0 32) with
    | none => s.failed p 0x40
    | some i =>
      let r := chanOp i v w u c s
      let res := chanRes i r.2 v w c r.1
      let st := if r.2 = 0 then stOk else if r.2 = 6 then stDeferred else stFailed
      r.1.complete p st (if st = stFailed then BitVec.ofNat 8 r.2 else 0) res.1 res.2 [])

/-- RESULTS: the 40 result registers, 8 bytes each, with no effect on a snapshot (R384, R386). -/
def execResults (p : Pkt) (s : State) : Host.Outcome State Fault Refusal :=
  .next (s.runPkt p 0x21 fun s =>
    s.complete p stOk 0 0 0 ((s.ch (destCh p.hdr)).res.toList.flatMap fun r => leBytes 4 r.res.toNat ++ leBytes 4 r.tstamp.toNat))

/-- Free point or write point moved in the capture unit. -/
def CapSt.free (k : CapSt) (side : Bool) (n : Nat) : CapSt :=
  if side then { k with sfTot := k.sfTot + n } else { k with fTot := k.fTot + n }

/-- The n bytes of a ring from running total tot. -/
def ringBytes (m : Memory) (base size tot n : Nat) : List Byte :=
  (List.range n).map fun i => memByte m (base + (tot + i) % max 1 size)

/-- READOUT (R386, R396). RES0 and RES1 name the free point and the write point after the packet. -/
def execReadout (p : Pkt) (s : State) : Host.Outcome State Fault Refusal :=
  .next (s.runPkt p 0x30 fun s =>
    let c := destCh p.hdr
    let side := bit p.hdr.arg0 32
    let d := if side then s.sring c else s.dring c
    let k := (s.ch c).cap
    let f := if side then k.sfTot else k.fTot
    let w := if side then k.swTot else k.wTot
    let n := fld p.hdr.arg0 0 17
    let o := p.hdr.arg1.toNat
    let z := max 1 d.2
    let rel := (o + z - f % z) % z
    let off := fun (x : Nat) => x % z
    if n % 32 ≠ 0 ∨ 65536 < n ∨ o % 32 ≠ 0 ∨ d.2 ≤ o ∨ (0 < n ∧ w < f + rel + n) then
      s.complete p stFailed 0x42 (wd (off f)) (BitVec.ofNat 64 (off w)) []
    else
      let s := if 0 < n then s.touchMem else s
      match s.firstBad d.1 d.2 (f + rel) n with
      | some x => (s.logUe 0 c.1 x.1).complete p stFailed 0x43 (wd (off f)) (BitVec.ofNat 64 (off (64 * x.1 + d.2 - d.1))) []
      | none =>
        let fr := if bit p.hdr.arg0 33 ∧ f + rel + n ≤ w then rel + n else 0
        (s.modCap c (·.free side fr)).complete p stOk 0 (wd (off (f + fr))) (BitVec.ofNat 64 (off w))
          (ringBytes s.acq d.1 d.2 (f + rel) n))

end Sys2Proof.Machine
end

