-- ==== Sys2Proof/Machine/HubPkt.lean ====
section
/-! DEFINITION. Host packets of calibration, Seasoning, remap and firmware (Table 15-3, types 0x40 to 0x45), and the steps of a
firmware activation (13.7, 18.1). -/

namespace Sys2Proof.Machine

/-! ## Calibration and Seasoning -/

/-- REF_ASSIGN (R320): the region's assigned reference value, with its Pedigree entry. -/
def execRefAssign (p : Pkt) (s : State) : Host.Outcome State Fault Refusal :=
  .next (s.runPkt p 0x40 fun s =>
    let r := destRg p.hdr
    let old := (s.rg r).refAssign
    let v := sfld p.hdr.arg0 0 24
    let s := s.modRg r fun g => { g with refAssign := v }
    (s.pedQueue 0x0A (96 + r.1) (leBytes 4 r.1 ++ leBytes 4 (ifld 32 old) ++ leBytes 4 (ifld 32 v)) .none).ok p)

/-- PAIR_REINSTALL (R336, R453): an item whose TAG verifies and whose PCH is the channel's present physical channel installs its
pair; no new generation is taken. -/
def execPairReinstall (p : Pkt) (s : State) : Host.Outcome State Fault Refusal :=
  .next (s.runPkt p 0x41 fun s =>
    let c := destCh p.hdr
    let item := p.payload.take 32
    let head := item.take 16
    let triple := leNat ((head.drop 1).take 1)
    if item.drop 16 ≠ pairTag head ∨ leNat (head.take 1) ≠ (s.physOf c).1 then s.failed p 0x4E
    else
      let i := tripleIdx (triple % 2 == 1) (triple / 2 % 2 == 1) (BitVec.ofNat 3 (triple / 4))
      let ofs := sx 32 (pay32 p 4).toNat
      let gain := (pay32 p 8).toNat
      let gen := (pay32 p 12).toNat
      let s := s.modPh c fun h => { h with pairs := h.pairs.set i.1 (ofs, gain), copies := h.copies.set i.1 (some (ofs, gain, gen)) }
      (s.pedQueue 0x09 c.1 (item ++ leBytes 1 c.1) .none).ok p)

/-- The paths whose report entries a packet names and its context may see (R348), in order of PATH, then scope: those of the
context's physical channels and of regions it owns whole; the DDR eyes belong to no channel or region, and context 0 sees them in a
report of all (log 11). -/
def State.reportPaths (s : State) (k : Ctx) (r : Option Rg) : List (Rg × Nat × Nat) :=
  let rs := match r with
    | some r => [r]
    | none => List.finRange 6
  let chs := rs.flatMap fun r => (chsOfRg r).filter fun p => s.owner.get (s.logOf p) == k
  let own := rs.filter fun r => s.ownsAll k (chsOfRg r)
  (own.map fun r => (r, 1, r.1)) ++ ([2, 3, 4, 5, 6].flatMap fun n => chs.map fun p => (rgOf p, n, p.1))
    ++ (own.map fun r => (r, 7, r.1)) ++ if k = 0 ∧ r.isNone then (List.range 4).map fun n => (0, 8, n) else []

/-- SZN_REPORT (R348). -/
def execSznReport (p : Pkt) (s : State) : Host.Outcome State Fault Refusal :=
  .next (s.runPkt p 0x42 fun s =>
    let r := if fld p.hdr.dest 16 8 = 255 then none else some (destRg p.hdr)
    s.complete p stOk 0 0 0 ((s.reportPaths p.ctx r).flatMap fun x => s.reportEntry x.1 x.2.1 x.2.2))

/-! ## Remap (R354, R355) -/

/-- The physical channels of two logical channels of one cluster are exchanged: the map, and the levels that the comparators of
the physical channels see; the next START applies the plan of the new physical channel (R346, R354). -/
def State.exchange (s : State) (a b : Ch) : State :=
  let m := s.aon.remap.get (clOf a)
  let pa := s.physPos a
  let pb := s.physPos b
  let m := (m.set (a.1 % 8) pb (by omega)).set (b.1 % 8) pa (by omega)
  let ta := (s.ch a).trip
  let tb := (s.ch b).trip
  let swap := fun (x : TripSt) (h : Channel) => { h with trip := { h.trip with active := x.active, unres := x.unres } }
  let s := { s with aon := { s.aon with remap := s.aon.remap.set (clOf a).1 m (clOf a).2 } }
  let s := (s.modCh a (swap tb)).modCh b (swap ta)
  (s.modPh a fun p => { p with planPend := true }).modPh b fun p => { p with planPend := true }

/-- The checks of R354 in their order: the failing code. A channel number above 95 lies in no cluster. -/
def State.remapCheck (s : State) (a b : Nat) : Except Byte (Ch × Ch) :=
  if h : a < 96 ∧ b < 96 then
    let x : Ch := ⟨a, h.1⟩
    let y : Ch := ⟨b, h.2⟩
    if clOf x ≠ clOf y then .error 0x48
    else if (s.ch x).st = .tripped ∨ (s.ch y).st = .tripped then .error 0x4A
    else if (s.th (thOf x)).busy || (s.th (thOf y)).busy || (s.ch x).st != .parked || (s.ch y).st != .parked then .error 0x49
    else .ok (x, y)
  else .error 0x48

/-- REMAP (R354). -/
def execRemap (p : Pkt) (s : State) : Host.Outcome State Fault Refusal :=
  .next (s.runPkt p 0x43 fun s =>
    match s.remapCheck (fld p.hdr.arg0 0 7) (fld p.hdr.arg0 8 7) with
    | .error code => s.failed p code
    | .ok (a, b) =>
      let pa := (s.physOf a).1
      let pb := (s.physOf b).1
      let s := s.exchange a b
      let s := s.pedQueue 0x0E a.1 (leBytes 1 a.1 ++ leBytes 1 b.1 ++ leBytes 1 pa ++ leBytes 1 pb ++ leBytes 1 pb ++ leBytes 1 pa) .none
      (s.raiseHub 12 (wd (a.1 + at_ b.1 8))).ok p)

/-! ## Firmware images (R440, R441) -/

/-- Every byte of [a, a + n) is 0. -/
def zeroBytes (m : Memory) (a n : Nat) : Bool := (memBytes m a n).all (· == 0)

/-- The validity test of R441; the signature is checked over the whole image by an opaque primitive. -/
def State.imgValid (s : State) (m : Memory) : Bool :=
  let n := (memWord m 8).toNat
  memWord m 0 == 0x474D4951 && memWord m 4 == 1 && decide (1024 ≤ n) && decide (n ≤ 8388608)
    && decide (fld (memWord m 12) 6 26 = 0) && zeroBytes m 0x14 12 && zeroBytes m 0x1A4 92 && zeroBytes m 0x380 128
    && memWord m 0x1A0 == 65537 && sha256 (memBytes m 0x20 388) == Config.vendorKeyHash && decide (s.sec.svnMin ≤ imgSvn m)
    && Config.sigVerifies (memBytes m 0 n)

/-- Set the image of a slot. -/
def Fw.setImg (f : Fw) (b : Bool) (m : Memory) : Fw := if b then { f with imgB := m } else { f with imgA := m }
/-- Set VALID of a slot. -/
def Fw.setValid (f : Fw) (b v : Bool) : Fw := if b then { f with validB := v } else { f with validA := v }

/-- FW_LOAD (R350, R441): bytes of the slot that is not running, of 8 MiB; offset 0 begins a load and clears VALID; the part with
LAST is judged with the whole image, whose IMG_BYTES must be the number of bytes the packet names. -/
def execFwLoad (p : Pkt) (s : State) : Host.Outcome State Fault Refusal :=
  .next (s.runPkt p 0x44 fun s =>
    let o := fld p.hdr.arg0 0 32
    let b := !s.fw.slot
    let f := if o = 0 then s.fw.setValid b false else s.fw
    let m := memSetBytes (f.img b) o (p.payload.take (8388608 - o))
    let s := { s with fw := { f.setImg b m with loadPos := o + p.payload.length } }
    if !bit p.hdr.arg1 0 then s.ok p
    else if s.imgValid m && decide (fld p.hdr.arg1 32 32 = imgBytes m) then
      { s with fw := s.fw.setValid b true }.ok p
    else s.failed p 0x4D)

/-! ## Activation (R351, R352) -/

/-- FW_ACTIVATE (R350): the other slot with VALID set, and no activation running. In recovery an accepted activation starts a hub
boot from the named slot (R444). Naming the running slot gives ACT_INVALID (log 11). -/
def execFwActivate (p : Pkt) (s : State) : Host.Outcome State Fault Refusal :=
  .next (s.runPkt p 0x45 fun s =>
    let b := bit p.hdr.arg0 0
    if (b == s.fw.slot && !s.hub.recovery) || !s.fw.valid b then s.failed p 0x4B
    else if s.fw.activating then s.failed p 0x4C
    else if s.hub.recovery then
      let s := s.ok p
      { s with fw := { s.fw with slot := b }, hub := { s.hub with recovery := false, bootCause := 4 } }
    else { s with fw := { s.fw with activating := true, switched := false } }.ok p)

/-- FW_SWITCH (R351 steps 1 to 4): with an activation running and every accepted packet completed, the hub hands its state over and
switches slots. Before that nothing changes (log 3). -/
def execFwSwitch (tk : Nat) (s : State) : Host.Outcome State Fault Refusal :=
  .next (s.eventAt tk fun s =>
    if s.fw.activating && !s.fw.switched && s.hub.ready && s.items.isEmpty then
      { s with
        fw := { s.fw with slot := !s.fw.slot, switched := true, switchAt := s.tick }
        sec := { s.sec with svn := imgSvn (s.fw.img (!s.fw.slot)) }
        hub := { s.hub with paused := true } }
    else s)

/-- Body of FW_ACT and FW_REVERT: measurements of the new image and of the old one, and the new SVN. -/
def State.actBody (s : State) (new : Bool) : List Byte :=
  digBytes (imgMeasure (s.fw.img new)) ++ digBytes (imgMeasure (s.fw.img (!new))) ++ leBytes 1 (imgSvn (s.fw.img new))

/-- Body of BOOT (Table 18-5). -/
def State.bootBody (s : State) (cause : Nat) : List Byte :=
  digBytes (imgMeasure (s.fw.img s.fw.slot)) ++ leBytes 1 s.sec.svn ++ leBytes 1 (b1 s.fw.slot) ++ leBytes 1 (b1 s.hub.fallback)
    ++ leBytes 1 0 ++ leBytes 4 Config.romId.toNat ++ leBytes 1 cause

/-- The new firmware resumes: the activation is a hub boot with its BOOT entry (R443); each region engine takes it when no step runs, and Seasoning cycles are abandoned (R346, R351). -/
def State.fwResume (s : State) : State :=
  let s := { s with hub := { s.hub with paused := false, fallback := false } }
  let s := (s.pedQueue 0x03 0 (s.bootBody 4) .none).pedAppend
  s.each (List.finRange 6) fun r s =>
    ((if (s.rg r).cycleOn then s.cycleDrop r else s).modRg r fun g => { g with fwPend := true }).engineFw r

/-- FW_ACTIVATED (R351 steps 4 and 5): ring service resumes; once the Pedigree has room for the entry, FW_GEN increases, the
activation enters the Pedigree and FW_ACTIVATED is raised (R454). -/
def execFwActivated (tk : Nat) (s : State) : Host.Outcome State Fault Refusal :=
  .next (s.eventAt tk fun s =>
    if !(s.fw.activating && s.fw.switched) then s
    else
      let s := if s.hub.paused then s.fwResume else s
      if !s.pedOpen then s
      else
        let s := { s with fw := { s.fw with gen := (s.fw.gen + 1) % 2 ^ 32, activating := false, switched := false } }
        let s := (s.pedQueue 0x04 0 (s.actBody s.fw.slot) .none).pedAppend
        s.raiseHub 10 (wd s.fw.gen))

/-- FW_REVERTED (R352): no ring service within 200 ms of the switch, and the hub returns to the previous slot. -/
def execFwReverted (tk : Nat) (s : State) : Host.Outcome State Fault Refusal :=
  .next (s.eventAt tk fun s =>
    if s.fw.switched && s.hub.paused && decide (s.fw.switchAt + 100000000 ≤ s.tick) then
      let failed := s.fw.slot
      let s := { s with
        fw := { s.fw with slot := !failed, activating := false, switched := false, reverted := true }
        sec := { s.sec with svn := imgSvn (s.fw.img (!failed)) }
        hub := { s.hub with paused := false } }
      (s.pedQueue 0x05 0 (s.actBody failed) .none).raiseHub 11 (wd s.fw.gen)
    else s)

end Sys2Proof.Machine
end

