-- ==== Sys2Proof/Machine/SecPkt.lean ====
section
/-! DEFINITION. Security packets (18.6): identity, quotes, checkpoints, the Pedigree, contexts, the security version and the OTP
fields of the instrument maker. -/

namespace Sys2Proof.Machine

/-- ID_GET (R446): the certificate, the rest of its last unit 0; RES1 its length. -/
def execIdGet (p : Pkt) (s : State) : Host.Outcome State Fault Refusal :=
  .next (s.runPkt p 0x50 fun s => s.complete p stOk 0 0 (BitVec.ofNat 64 Config.certificate.length) Config.certificate)

/-- QUOTE (R461): it completes when the signer has signed it. -/
def execQuote (p : Pkt) (s : State) : Host.Outcome State Fault Refusal :=
  .next (s.runPkt p 0x51 fun s => s.startQuote p)

/-- CHECKPOINT (R458, R459): a new one completes when it is signed; a stored one at once. -/
def execCheckpoint (p : Pkt) (s : State) : Host.Outcome State Fault Refusal :=
  .next (s.runPkt p 0x52 fun s =>
    let n := fld p.hdr.arg0 0 32
    if n = 0xFFFFFFFF then s.startCkpt 1 [p]
    else match s.ped.ckpts.find? fun k => k.number == n with
      | some k => s.complete p stOk 0 0 0 k.bytes
      | none => s.secOk p 6)

/-- SEQ of the oldest entry held. -/
def State.pedOldest (s : State) : Nat := match s.ped.entries with
  | e :: _ => e.seq
  | [] => s.ped.seq + 1

/-- The 64-byte blocks in which an entry lies: the ring of entries from the start of the security core region on (R422, R455). -/
def State.pedBlocks (s : State) (e : PedEntry) : List Nat :=
  let a := s.memCap - 48 * 2 ^ 20 + 128 * (e.seq % pedSlots)
  [a / 64, a / 64 + 1]

/-- PED_READ (R455, R457): count entries from the named one on; FREE frees up to the end of the range. -/
def execPedRead (p : Pkt) (s : State) : Host.Outcome State Fault Refusal :=
  .next (s.runPkt p 0x53 fun s =>
    let n := fld p.hdr.arg1 0 10
    let from_ := s.ped.entries.dropWhile fun e => !(e.seq == fld p.hdr.arg0 0 48 && e.epoch == fld p.hdr.arg0 48 16)
    let es := from_.take n
    let old := BitVec.ofNat 64 s.pedOldest
    if n = 0 ∨ 512 < n then s.complete p stOk 0 5 old []
    else if es.length < n then s.complete p stOk 0 6 old []
    else
      let s := s.touchMem
      match es.find? fun e => (s.pedBlocks e).any s.mem.bad.contains with
      | some e =>
        let b := ((s.pedBlocks e).find? s.mem.bad.contains).getD 0
        (s.logUe 5 255 b).complete p stFailed 0x43 0 (BitVec.ofNat 64 e.seq) []
      | none =>
        let s := if bit p.hdr.arg1 32 then { s with ped := { s.ped with entries := from_.drop n } }.pedLow else s
        s.complete p stOk 0 0 (BitVec.ofNat 64 s.pedOldest) (es.flatMap PedEntry.bytes))

/-- PED_CFG (R462). -/
def execPedCfg (p : Pkt) (s : State) : Host.Outcome State Fault Refusal :=
  .next (s.runPkt p 0x54 fun s => { s with ped := { s.ped with ckptN := fld p.hdr.arg0 0 16 } }.secOk p 0)

/-! ## Contexts (R449, R450) -/

/-- The context in bits lo+5 : lo of ARG0. -/
def argCtx (p : Pkt) (lo : Nat) : Ctx := ⟨fld p.hdr.arg0 lo 6, by unfold fld; omega⟩

/-- The channels of a payload's mask. -/
def maskChs (p : Pkt) : List Ch := allChs.filter fun c => bit ((p.payload.drop (c.1 / 8)).headD 0) (c.1 % 8)

/-- A thread that serves a channel runs or waits. -/
def State.chBusy (s : State) (cs : List Ch) : Bool := cs.any fun c => (s.th (thOf c)).busy

/-- Channels pass to a context (R408, R449): sources that change their owner return to reset, their waiting packets stay; the
change enters the Pedigree and is raised. -/
def State.moveChs (s : State) (type : Byte) (from_ to_ : Ctx) (cs : List Ch) : State :=
  let old := s
  let s := { s with owner := Vector.ofFn fun c => if cs.contains c then to_ else s.owner.get c }
  let keep := fun (n : Src) (e : EvSource) =>
    if old.srcOwner n = s.srcOwner n then e else { EvSource.reset with held := e.held, grp := e.grp }
  let s := { s with ev := Vector.ofFn fun n => keep n (s.ev.get n) }
  let mask := (List.range 12).map fun i => BitVec.ofNat 8 ((List.range 8).foldl (fun a j =>
    a + at_ (b1 (cs.any fun c => c.1 == 8 * i + j)) j) 0)
  let s := s.pedQueue 0x0F 0 ([type] ++ leBytes 1 from_.1 ++ leBytes 2 to_.1 ++ mask) .none
  s.raiseHub 66 (wd (from_.1 + at_ to_.1 8 + at_ cs.length 16))

/-- CTX_OPEN (Table 18-3). -/
def execCtxOpen (p : Pkt) (s : State) : Host.Outcome State Fault Refusal :=
  .next (s.runPkt p 0x58 fun s =>
    let k := argCtx p 0
    let cs := maskChs p
    if k = 0 ∨ (s.ctxs.get k).isOpen then s.secOk p 1
    else if !s.ownsAll 0 cs then s.secOk p 2
    else if s.chBusy cs then s.secOk p 3
    else ((s.modCtx k fun c => { c with isOpen := true }).moveChs 0x58 0 k cs).secOk p 0)

/-- CTX_MOVE (Table 18-3). -/
def execCtxMove (p : Pkt) (s : State) : Host.Outcome State Fault Refusal :=
  .next (s.runPkt p 0x59 fun s =>
    let a := argCtx p 0
    let b := argCtx p 8
    let cs := maskChs p
    if a = b ∨ !(s.ctxs.get a).isOpen ∨ !(s.ctxs.get b).isOpen then s.secOk p 1
    else if !s.ownsAll a cs then s.secOk p 2
    else if s.chBusy cs then s.secOk p 3
    else (s.moveChs 0x59 a b cs).secOk p 0)

/-- CTX_CLOSE (Table 18-3): its channels pass to context 0, its rings are disabled, and the packet completes when every ring of the
context is Closed, with which the page stops. -/
def execCtxClose (p : Pkt) (s : State) : Host.Outcome State Fault Refusal :=
  .next (s.runPkt p 0x5A fun s =>
    let k := argCtx p 0
    let cs := allChs.filter fun c => s.owner.get c == k
    if k = 0 ∨ !(s.ctxs.get k).isOpen then s.secOk p 1
    else if s.chBusy cs then s.secOk p 3
    else
      let s := s.moveChs 0x5A k 0 cs
      if (s.ring k 0).st == .closed then
        ((s.disableRings k).modCtx k fun c => { c with isOpen := false }).secOk p 0
      else s.disableRings k)

/-! ## Security version and OTP -/

/-- SVN_COMMIT (R442). -/
def execSvnCommit (p : Pkt) (s : State) : Host.Outcome State Fault Refusal :=
  .next (s.runPkt p 0x5B fun s =>
    let old := s.sec.svnMin
    let new := max old s.sec.svn
    let b := !s.fw.slot
    let s := { s with
      sec := { s.sec with svnMin := new }
      fw := if imgSvn (s.fw.img b) < new then s.fw.setValid b false else s.fw }
    let s := s.pedQueue 0x13 0 (leBytes 1 old ++ leBytes 1 new) .none
    (s.raiseHub 68 (wd new)).secOk p 0)

/-- A capacity of Table 17-1 with its ranks and density. -/
def memorgOk (v : Nat) : Bool :=
  decide (v / 1024 % 4 ≤ 2) && (match v / 512 % 2, v / 256 % 2, v % 256 with
    | 0, 0, 32 => true
    | 0, 1, 64 => true
    | 1, 0, 64 => true
    | 1, 1, 128 => true
    | _, _, _ => false)

/-- PROVISION of the field that ARG0 names (R447, Table 18-2): a field is written once, and its range is checked after that. -/
def State.provision (s : State) (p : Pkt) : State :=
  let v := fld p.hdr.arg1 0 32
  match fld p.hdr.arg0 0 2 with
  | 0 =>
    if s.sec.xrefSet then s.secOk p 4
    else if v < 9000000 ∨ 11000000 < v then s.secOk p 5
    else ({ s with sec := { s.sec with xref := v, xrefSet := true } }.pedQueue 0x0B 0 (leBytes 4 v) .none).secOk p 0
  | 1 =>
    if s.sec.ssidSet then s.secOk p 4 else { s with sec := { s.sec with ssid := wd v, ssidSet := true } }.secOk p 0
  | 2 =>
    if s.mem.orgSet then s.secOk p 4
    else if !memorgOk (v % 4096) then s.secOk p 5
    else { s with mem := { s.mem with orgOtp := BitVec.ofNat 12 v, orgSet := true } }.secOk p 0
  | _ => s.secOk p 5

/-- PROVISION, field 0 XREF. -/
def execProvisionXref (p : Pkt) (s : State) : Host.Outcome State Fault Refusal := .next (s.runPkt p 0x5C fun s => s.provision p)
/-- PROVISION, field 1 SSID: it takes effect in the configuration space at the next PERST_N. -/
def execProvisionSsid (p : Pkt) (s : State) : Host.Outcome State Fault Refusal := .next (s.runPkt p 0x5C fun s => s.provision p)
/-- PROVISION, field 2 MEMORG: it takes effect at the next package reset. -/
def execProvisionMemorg (p : Pkt) (s : State) : Host.Outcome State Fault Refusal := .next (s.runPkt p 0x5C fun s => s.provision p)

end Sys2Proof.Machine
end

