-- ==== Sys2Proof/Machine/Power.lean ====
section
/-! DEFINITION. Region and die power (19.2-19.6): supplies, the loss and return of a sample clock, region power-up and
power-down with their sequence, and the clock of a channel die. -/

namespace Sys2Proof.Machine

/-! ## Sample clock lost and back (R15, R118, R129) -/

/-- A converter loses its clock at tick t: what is in its pipeline is lost, and an injected sequence that is pending or running is
abandoned (Table 4-6). -/
def State.convLost (s : State) (c : Ch) (v : Conv) (t : Nat) : State :=
  let s := s.convOps c v (t + 1)
  s.modConv c v fun x => { x with
    abandoned := x.abandoned || x.busyAt t, injPend := false, injEnd := min x.injEnd t, winj := none, wts := max x.wts t
    splitTill := min x.splitTill t, starting := none, passTill := min x.passTill t, lossCause := 2 }

/-- A converter's clock returns at tick t: open intervals close (R129), and an abandoned sequence counts as a drop. -/
def State.convBack (s : State) (c : Ch) (v : Conv) (t : Nat) : State :=
  let s := s.closeIvs c v false
  let was := ((s.ch c).conv v).abandoned
  let s := s.modConv c v fun x => { x with abandoned := false, wts := max x.wts t }
  if was then s.dropUrgent c v else s

/-- A channel's sample clock stops at tick t: no loop period under way is computed, and the channel enters Held (T12). -/
def State.chLost (s : State) (c : Ch) (t : Nat) : State :=
  if (s.ch c).st == .off then s
  else
    let s := ((s.convLost c .a t).convLost c .b t).modLoop c fun l => { l with flight := [], acc := [] }
    s.toHeldClock c t

/-- A region's sample clock stops (R15): its step is discarded and its channels enter Held. -/
def State.rgLost (s : State) (r : Rg) : State :=
  let s := (s.modRg r fun g => { g with clkOk := false }).stepDiscard r
  s.each (chsOfRg r) fun c s => s.chLost c (s.now c)

/-- REGION_POWER_LOST or REGION_CLOCK_LOST of a region whose clock runs (Table 1-5). -/
def State.rgLostEvent (s : State) (r : Rg) (power : Bool) : State :=
  if (s.rg r).on && (s.rg r).clkOk then
    let s := (s.rgLost r).latchRg r 27
    if power then s.raise (rgSrc r 2) 0x210 0 else s.raise (rgSrc r 0) 0x200 0
  else s

/-! ## Reset values of a region's blocks (R477 step 6) -/

/-- Reset words of channel k's control area (Tables 3-6, 3-8, 4-3, 6-5, 6-7). -/
def ctlReset (k : Nat) (m : Memory) : Memory :=
  let o := 0x800 * k
  let m := (List.range 8).foldl (fun m e =>
    memSetWord (memSetWord m (o + 16 * e + 4) 0x40000000) (o + 16 * e + 8) 0x40000000) m
  [(0xA0, 8), (0x110, 0x00010000), (0x160, 0x00010001), (0x408, 0x08080808), (0x410, 0x040400FF)].foldl
    (fun m (p : Nat × Word) => memSetWord m (o + p.1) p.2) m

/-- Table SRAM after region power-up: control areas and cluster block at their Reset columns; lists and slots keep what they held
(log 4). -/
def tmemReset (m : Memory) : Memory := (List.range 8).foldl (fun m k => ctlReset k m) (memClear m 0 0x4400)

/-- A cluster after region power-up: its issue phase and the SRAMs that no Reset column names stay (R273, Table 9-9). -/
def Cluster.powerUp (n : Cluster) : Cluster :=
  { Cluster.reset with imem := n.imem, dmem := n.dmem, tmem := tmemReset n.tmem, phase := n.phase }

/-- What follows a physical channel after region power-up: trims from the always-on domain (R318), identity pairs (R127), and a
plan that was formed is pending again (R346). -/
def Phys.powerUp (p : Phys) : Phys :=
  { p with
    trims := p.aonTrims, target := p.aonTrims, ramping := false, rampLen := 0, rampEnd := 0, resid := Vector.replicate 8 0
    cflags := 0, pairs := Vector.replicate 32 (0, 0x40000000), planPend := p.formed }

/-- A region's own blocks after power-up with sample clock P/Q (Tables 12-8 to 12-10). The Seasoning block stands. -/
def Region.powerUp (g : Region) (p q : Nat) : Region :=
  { g with
    on := true, seqUp := false, seqDown := false, p := p, q := q, clkOk := true, refOk := true, calcfg := 0x1DD00005
    natgap := 0xFFFF, preempt := 0, shunt := 0, xrefFault := false, queue := [], busy := false, kind := 0, stepConv := .a
    stepSlot := 0, stepEnd := 0, cycleOn := false, fwPend := false, relock := none }

/-- A region without power: its engine stops and its clusters are in reset (R40, R478). -/
def Region.powerDown (g : Region) : Region :=
  { g with
    on := false, seqUp := false, seqDown := false, clkOk := false, refOk := false, queue := [], busy := false, kind := 0
    stepSlot := 0, cycleOn := false, relock := none, warned := false }

/-! ## Die clock -/

/-- Fix the issue phases of a die's clusters by free values (R245): the manual does not say which phase a cluster takes (log 6). -/
def State.freePhases (s : State) (d : Die) : State :=
  s.each (clsOfDie d) fun n s =>
    (s.modCl n fun k => { k with phase := ⟨s.free.toNat % 9, by omega⟩ }).used

/-- The core clock of a die starts for a region power-up (R477 step 2). -/
def State.dieStart (s : State) (d : Die) : State :=
  if (s.die.get d).clkOk then s
  else
    let s := s.modDie d fun x => { x with clkOk := true }
    { s with dieTick := s.dieTick.set d.1 s.tick d.2 }.freePhases d

/-- Every open blanking window of a channel closes at once (R181). -/
def State.closeWins (s : State) (c : Ch) : State :=
  (s.modTrip c fun p => { p with win := p.win.map fun w => { w with till := min w.till (s.now c) } }).evalTrip c (s.now c)

/-! ## Power state -/

/-- Ready or Run is left for Standby with the last powered region, one state at a time; the first powered region brings Ready
(Table 19-3). -/
def State.pstateFollow (s : State) : State :=
  let any := s.rgn.toList.any Region.on
  match s.aon.pstate with
  | .standby => if any then s.setPState .ready else s
  | .ready => if any then s else s.setPState .standby
  | .run => if any then s else (s.setPState .ready).setPState .standby
  | .deepSleep => s

/-! ## Power-down (R478) -/

/-- A channel of a region that powers down takes T14 or T13 at the next sample boundary. -/
def State.downCh (s : State) (c : Ch) : State :=
  let s := s.tripFirst c
  match (s.ch c).st with
  | .heel | .run | .held => (s.modCh c fun h => { h with goOff := true }).toDraining c (s.bnd c)
  | .draining => s.modCh c fun h => { h with goOff := true }
  | .parked | .tripped => s.toOff c (s.bnd c)
  | .off => s

/-- A powered region begins to power down; its calibration and Seasoning work ends. -/
def State.downStart (s : State) (r : Rg) : State :=
  if !(s.rg r).on || (s.rg r).seqDown then s
  else
    let s := (s.cycleDrop r).stepOff r
    let s := s.modRg r fun g => { g with seqDown := true, queue := [] }
    s.each (chsOfRg r) fun c s => s.downCh c

/-- Every channel of a region is Off: the domain turns off, latched trips clear, and with the last region the die clock stops
(R176, R478). -/
def State.downEnd (s : State) (r : Rg) : State :=
  let s := s.modRg r Region.powerDown
  let s := s.each (clsOfRg r) fun n s => s.modCl n fun k => { k with
    thr := Vector.replicate 9 Thread.reset, tmr := Vector.replicate 8 none, bars := Vector.replicate 4 Barrier.empty, lines := 0 }
  let d := dieOfRg r
  let s := if (rgsOfDie d).any fun x => (s.rg x).on then s else s.modDie d fun x => { x with clkOk := false }
  (s.raiseHub 98 (wd (r.1 + at_ (b1 s.hotLock) 8))).pstateFollow

/-! ## Power-up (R477) -/

/-- P1/Q1 lies above P2/Q2. -/
def clkAbove (a b : Nat × Nat) : Bool := decide (b.1 * a.2 < a.1 * b.2)

/-- The pair that a region takes as it powers up (R469). -/
def State.upClock (s : State) (r : Rg) : Nat × Nat :=
  let x := s.aon.sclk.get r
  let m := ((s.rg r).maxP, (s.rg r).maxQ)
  if clkAbove x m then m else x

/-- The records of a channel that still wait for their final header get it before the channel block is reset. -/
def State.finalizeAll (s : State) (c : Ch) : State :=
  s.each (s.ch c).cap.closing fun _ s => (s.forwardRes c).finalize c

/-- A channel block takes its reset values, with what its comparators show at T1 (R184), and takes T1 with FOUT at the clear
output (R85). -/
def State.upCh (s : State) (c : Ch) (unres act : BitVec 4) : State :=
  let s := s.finalizeAll c
  let m := (s.ch c).modeStored.getD 0
  let k := s.idxAt c (s.now c)
  let s := s.modCh c fun _ => { Channel.reset with
    mode := m, clrActive := !s.clrHigh
    loop := { LoopSt.reset with mark := k, lastB := s.now c }
    convA := { ConvSt.reset .a with mark := k, wmark := k, wts := s.now c }
    convB := { ConvSt.reset .b with mark := k, wmark := k, wts := s.now c } }
  let s := s.toParked c (s.now c)
  let v := (s.clearOut c).getD (s.ch c).dac
  let s := s.modCh c fun h => { h with dac := v, fout := v }
  let s := s.modTrip c fun p => { p with active := act, unres := unres }
  (s.evalTrip c (s.now c)).refreshGates c

/-- Steps 2 to 7 of R477. Bits 4k + m of `unres` and `act` are what comparator m of the region's channel k shows. -/
def State.upEnd (s : State) (r : Rg) (unres act : BitVec 64) : State :=
  let x := s.upClock r
  let s := s.dieStart (dieOfRg r)
  let s := s.modRg r fun g => g.powerUp x.1 x.2
  let s := { s with aon := { s.aon with sclk := s.aon.sclk.set r.1 x r.2 } }
  let s := s.each (clsOfRg r) fun n s => s.modCl n Cluster.powerUp
  let s := s.each (chsOfRg r) fun p s => { s with phys := s.phys.set p.1 (s.phys.get p).powerUp p.2 }
  let s := s.each (chsOfRg r) fun c s =>
    s.upCh c (unres.extractLsb' (4 * (c.1 % 16)) 4) (act.extractLsb' (4 * (c.1 % 16)) 4)
  (s.raiseHub 97 (wd (r.1 + at_ x.1 8 + at_ x.2 16))).pstateFollow

/-- A region power sequence runs: a region powers up or down, or its PLL relocks (Table 19-4). -/
def State.seqRuns (s : State) : Bool := s.rgn.toList.any fun g => g.seqUp || g.seqDown || g.relock.isSome

/-- The next region of a power-up passes step 1 or fails it: a region whose supplies are not valid stays Off with SUPPLY_FAULT. -/
def State.upNext (s : State) : State :=
  if s.rgSupBad = 0 then s
  else s.each ((List.finRange 6).filter fun r => (s.rg r).seqUp) fun r s =>
    (s.modRg r fun g => { g with seqUp := false }).raiseHub 100 (wd (s.rgSupBad + at_ r.1 8))

/-- A REGION_PWR that waits for its power-ups completes once none is left. -/
def State.upDone (s : State) : State :=
  if s.rgn.toList.any Region.seqUp then s
  else s.each (s.items.filter fun p => p.hdr.type == 0x47 && s.stage p == 1) fun p s => s.secOk p 0

/-- The region that powers up now: the lowest of those named. -/
def State.upFirst (s : State) : Option Rg := (List.finRange 6).find? fun r => (s.rg r).seqUp

/-! ## Sample clock change (R470) -/

/-- The relock of a region's PLL begins: its channels keep their states, and an open record closes (Tripped channels). -/
def State.relockStart (s : State) (r : Rg) (p q : Nat) : State :=
  let s := (s.modRg r fun g => { g with relock := some (p, q) }).stepDiscard r
  let s := s.each (chsOfRg r) fun c s =>
    if (s.ch c).st == .off then s
    else
      let b := s.bnd c
      let s := (s.closeStream c b).truncRec c b
      let s := (s.convLost c .a (s.now c)).convLost c .b (s.now c)
      s.modLoop c fun l => { l with flight := [], acc := [] }
  s.modRg r fun g => { g with clkOk := false }

/-- The PLL locks at its new pair: open intervals close, and the counts of loop periods and of converters restart at the first
sample boundary after lock (R129, R143). -/
def State.relockEnd (s : State) (r : Rg) (p q : Nat) : State :=
  let s := s.modRg r fun g => { g with p := p, q := q, clkOk := true, relock := none }
  let s := { s with aon := { s.aon with sclk := s.aon.sclk.set r.1 (p, q) r.2 } }
  let s := s.each (chsOfRg r) fun c s =>
    if (s.ch c).st == .off then s
    else
      let t := s.now c
      let k := s.sIdx c t + 1
      let s := (s.convBack c .a t).convBack c .b t
      s.modCh c fun h => { h with
        rhist := [], loop := { h.loop with mark := k, lastB := t }, convA := { h.convA with mark := k, wmark := k }
        convB := { h.convB with mark := k, wmark := k } }
  s.raiseHub 99 (wd (r.1 + at_ p 8 + at_ q 16))

end Sys2Proof.Machine
end

