-- ==== Sys2Proof/Machine/PowerPkt.lean ====
section
/-! DEFINITION. Clock and power packets (19.5), and the events of region power and clocks: REGION_UP, REGION_DOWN, SCLK_LOCKED, the
sample clock, the reference and the thermal sensors. -/

namespace Sys2Proof.Machine

/-! ## Packets (Table 19-5) -/

/-- Some thread of these regions runs or waits. -/
def State.rgBusy (s : State) (rs : List Rg) : Bool := rs.any fun r => (clsOfRg r).any fun n => (s.cl n).busy

/-- PWR_STATE (R475, R480): target 0 Deep sleep is judged in Standby; target 1 Standby powers down every region. -/
def State.pwrState (s : State) (p : Pkt) : State :=
  match fld p.hdr.arg0 0 2 with
  | 0 =>
    if s.seqRuns then s.secOk p 1
    else if s.aon.pstate ≠ .standby then s.secOk p 3
    else { s.secOk p 0 with aon := { s.aon with deepPend := true } }
  | 1 =>
    if s.seqRuns || s.rgBusy (List.finRange 6) then s.secOk p 1
    else (s.each (List.finRange 6) fun r s => s.downStart r).secOk p 0
  | _ => s.secOk p 4

/-- PWR_STATE to Deep sleep. -/
def execPwrStateDeepSleep (p : Pkt) (s : State) : Host.Outcome State Fault Refusal := .next (s.runPkt p 0x46 fun s => s.pwrState p)
/-- PWR_STATE to Standby. -/
def execPwrStateStandby (p : Pkt) (s : State) : Host.Outcome State Fault Refusal := .next (s.runPkt p 0x46 fun s => s.pwrState p)

/-- REGION_PWR (R477, R478, Table 19-4, R484). A power-down alone completes when it has been judged; with power-ups the packet
completes with the last of them (log 13). -/
def State.regionPwr (s : State) (p : Pkt) : State :=
  let up := fld p.hdr.arg0 0 6
  let down := fld p.hdr.arg0 8 6
  let ups := (regionsOf up).filter fun r => !(s.rg r).on
  if up &&& down ≠ 0 then s.secOk p 4
  else if s.seqRuns then s.secOk p 1
  else if s.hotLock && !ups.isEmpty then s.secOk p 5
  else if s.rgBusy (regionsOf down) then s.secOk p 1
  else
    let s := s.each (regionsOf down) fun r s => s.downStart r
    let s := s.each ups fun r s => s.modRg r fun g => { g with seqUp := true }
    s.upNext.upDone

/-- REGION_PWR naming regions to power up. -/
def execRegionPwrUp (p : Pkt) (s : State) : Host.Outcome State Fault Refusal := .next (s.runPkt p 0x47 fun s => s.regionPwr p)
/-- REGION_PWR naming regions to power down. -/
def execRegionPwrDown (p : Pkt) (s : State) : Host.Outcome State Fault Refusal := .next (s.runPkt p 0x47 fun s => s.regionPwr p)

/-- P / Q is a sample clock of R469. -/
def clockOk (p q : Nat) : Bool :=
  decide (1 ≤ p) && decide (p ≤ 32) && decide (4 ≤ q) && decide (q ≤ 400) && decide (Nat.gcd p q = 1)
    && decide (4 * p ≤ q) && decide (2 * q ≤ 25 * p)

/-- SCLK_SET (R470): BAD_CLOCK, RATE_CAPPED, PWR_BUSY in that order; an accepted one completes with SCLK_LOCKED. An unpowered region
gives STATE_ORDER (log 13). -/
def execSclkSet (p : Pkt) (s : State) : Host.Outcome State Fault Refusal :=
  .next (s.runPkt p 0x48 fun s =>
    let r := destRg p.hdr
    let g := s.rg r
    let x := (fld p.hdr.arg0 0 16, fld p.hdr.arg0 16 16)
    let busy := s.rgBusy [r] || (chsOfRg r).any fun c => (s.ch c).st != .parked && (s.ch c).st != .tripped
    if !clockOk x.1 x.2 then s.secOk p 2
    else if clkAbove x (g.maxP, g.maxQ) then s.failed p 0x50
    else if !g.on then s.secOk p 3
    else if g.seqDown || g.relock.isSome || busy then s.secOk p 1
    else s.relockStart r x.1 x.2)

/-- CH_RESET (R63, R13): judged after a trip under way, at the next sample boundary; stimulus freeze ends. -/
def execChReset (p : Pkt) (s : State) : Host.Outcome State Fault Refusal :=
  .next (s.runPkt p 0x49 fun s =>
    let c := destCh p.hdr
    let s := s.tripFirst c
    ((s.chanReset c (s.bnd c)).unfreeze c).secOk p 0)

/-- WAKE_AT (R480): always-on milliseconds from completion; 0 cancels. -/
def execWakeAt (p : Pkt) (s : State) : Host.Outcome State Fault Refusal :=
  .next (s.runPkt p 0x4A fun s =>
    let ms := fld p.hdr.arg0 0 32
    { s.secOk p 0 with aon := { s.aon with wakeAt := if ms = 0 then none else some (s.tick + ms * 1000 * ticksPerUs) } })

/-! ## Events of regions -/

/-- A thermal shutdown acts on a region: its threads halt and it powers down without regard to them (R484). -/
def State.thermalDown (s : State) (r : Rg) : State :=
  let s := s.each (clsOfRg r) fun n s => s.each (thrsOf n) fun t s =>
    if (s.th t).busy then s.halt t causeClusterHalt (s.issueTick t (s.thNow t)) else s
  s.downStart r

/-- REGION_UP (R477): the region that is being powered up takes steps 2 to 7; the next one follows. After a thermal shutdown it
powers down again at once (Table 19-4). -/
def execRegionUp (tk : Nat) (r : Rg) (unres act : BitVec 64) (s : State) : Host.Outcome State Fault Refusal :=
  .next (s.eventAt tk fun s =>
    if s.upFirst = some r ∧ s.rgSupBad = 0 then
      let s := s.upEnd r unres act
      let s := if s.hotLock then s.thermalDown r else s
      s.upNext.upDone
    else s)

/-- REGION_DOWN (R478): a region that powers down with every channel Off. -/
def execRegionDown (tk : Nat) (r : Rg) (s : State) : Host.Outcome State Fault Refusal :=
  .next (s.eventAt tk fun s =>
    if (s.rg r).seqDown && ((chsOfRg r).all fun c => (s.ch c).st == .off) then s.downEnd r else s)

/-- SCLK_LOCKED (R470): the relocked region runs at its new clock, and its SCLK_SET completes. -/
def execSclkLocked (tk : Nat) (r : Rg) (s : State) : Host.Outcome State Fault Refusal :=
  .next (s.eventAt tk fun s => match (s.rg r).relock with
    | some x =>
      let s := s.relockEnd r x.1 x.2
      s.each (s.items.filter fun p => p.hdr.type == 0x48 && destRg p.hdr == r && s.stage p == 1) fun p s => s.secOk p 0
    | none => s)

/-- SAMPLE_CLOCK_LOST (R15): the PLL of a powered region loses lock, or the region loses power. -/
def execSampleClockLost (tk : Nat) (r : Rg) (power : Bool) (s : State) : Host.Outcome State Fault Refusal :=
  .next (s.eventAt tk fun s => s.rgLostEvent r power)

/-- SAMPLE_CLOCK_RETURN (R15, R129, Table 4-6): open intervals close and abandoned injected sequences count as drops; the channels
stay in Held, but those of a region that powers down go on. -/
def execSampleClockReturn (tk : Nat) (r : Rg) (s : State) : Host.Outcome State Fault Refusal :=
  .next (s.eventAt tk fun s =>
    let g := s.rg r
    if !g.on || g.clkOk || g.relock.isSome || s.rgSupBad ≠ 0 then s
    else
      let s := s.modRg r fun g => { g with clkOk := true }
      s.each (chsOfRg r) fun c s =>
        if (s.ch c).st == .off then s
        else
          let t := s.now c
          let s := (s.convBack c .a t).convBack c .b t
          if g.seqDown then s.downCh c else s)

/-- REF_FAULT (R24, Table 1-5): all 16 channels enter Held and self-trim stops. -/
def execRefFault (tk : Nat) (r : Rg) (s : State) : Host.Outcome State Fault Refusal :=
  .next (s.eventAt tk fun s =>
    let g := s.rg r
    if !g.on || !g.refOk then s
    else
      let s := (s.modRg r fun g => { g with refOk := false }).stepDiscard r
      let s := s.each (chsOfRg r) fun c s => s.toHeldClock c (s.bnd c)
      (s.latchRg r 28).raise (rgSrc r 1) 0x208 0)

/-- THERMAL_SAMPLE (R484): a region's sensor reads `temp` °C. -/
def execThermalSample (tk : Nat) (r : Rg) (temp : Int) (s : State) : Host.Outcome State Fault Refusal :=
  .next (s.eventAt tk fun s =>
    let g := s.rg r
    if !g.on && !s.hotLock then s
    else
      let detail := wd (r.1 + at_ (ifld 8 temp) 8)
      let warn := decide (105 ≤ temp)
      let s := s.modRg r fun g => { g with temp := temp, warned := warn, cool := g.cool || decide (temp < 95) }
      let s := if warn && !g.warned && g.on then s.raiseHub 101 detail else s
      let s := if 120 ≤ temp ∧ g.on ∧ !g.seqDown then
          let f := fun (g : Region) => { g with cool := false }
          let s := { s with hotLock := true, rgn := s.rgn.map f }
          (s.each (List.finRange 6) fun x s => s.thermalDown x).raiseHub 102 detail
        else s
      if s.rgn.toList.all Region.cool then { s with hotLock := false } else s)

end Sys2Proof.Machine
end

