-- ==== Sys2Proof/Machine/DieEv.lean ====
section
/-! DEFINITION. Faults of a channel die and of a cluster (1.3, 1.5): the die link, the die core clock, the tick check with the
realignment of a die's s.tick (R27, R28), and the halt of a cluster. -/

namespace Sys2Proof.Machine

/-! ## Realignment (R28) -/

/-- A stored tick after the count has changed by `d`. -/
def sh (d : Int) (t : Nat) : Nat := ((t : Int) + d).toNat

/-- The same for a tick that may be absent. -/
def shO (d : Int) (t : Option Nat) : Option Nat := t.map (sh d)

/-- A range change in progress. -/
def RangeChange.shift (d : Int) (r : RangeChange) : RangeChange :=
  { r with s0 := sh d r.s0, makeAt := sh d r.makeAt, breakAt := sh d r.breakAt, relAt := sh d r.relAt }

/-- The span of a range change. -/
def RSpan.shift (d : Int) (r : RSpan) : RSpan := { r with s0 := sh d r.s0, rel := shO d r.rel }

/-- The loop engine; `k` moves a sample boundary index. -/
def LoopSt.shift (d : Int) (k : Nat → Nat) (l : LoopSt) : LoopSt :=
  { l with
    acc := l.acc.map fun a => { a with per := sh d a.per }
    flight := l.flight.map fun p => { p with tick := sh d p.tick }
    mark := k l.mark, lastB := sh d l.lastB, liveFrom := sh d l.liveFrom }

/-- A change that waits for a converter's delivered samples. -/
def ConvOp.shift (d : Int) : ConvOp → ConvOp
  | .inj b f => .inj (sh d b) (sh d f)
  | .seq b c => .seq (sh d b) c
  | .calOn b => .calOn (sh d b)
  | .calOff b => .calOff (sh d b)

/-- A converter. -/
def ConvSt.shift (d : Int) (k : Nat → Nat) (x : ConvSt) : ConvSt :=
  { x with
    mark := k x.mark, wmark := k x.wmark, ops := x.ops.map (ConvOp.shift d)
    winj := x.winj.map fun i => { i with from_ := sh d i.from_, first := sh d i.first }
    wts := sh d x.wts, iv := (x.iv.map fun i => { i with ts := sh d i.ts }), injFrom := sh d x.injFrom, injEnd := sh d x.injEnd
    splitTill := sh d x.splitTill, splits := x.splits.map (fun w => (sh d w.1, sh d w.2)), seqDue := sh d x.seqDue, starting := shO d x.starting, passTill := sh d x.passTill
    gapFrom := sh d x.gapFrom, gapTill := sh d x.gapTill }

/-- A generator: t0, its waits and its marker edges. -/
def GenSt.shift (d : Int) (g : GenSt) : GenSt :=
  { g with
    jumpAt := sh d g.jumpAt, readyAt := sh d g.readyAt, mkPend := g.mkPend.map fun m => (sh d m.1, m.2), commitAt := shO d g.commitAt, t0 := sh d g.t0
    waiting := shO d g.waiting, waitHit := shO d g.waitHit, lineHit := shO d g.lineHit, armedAt := shO d g.armedAt }

/-- A record; `open_` marks it TICK_REALIGN. -/
def Rec.shift (d : Int) (open_ : Bool) (k : Nat → Nat) (r : Rec) : Rec :=
  { r with
    back := r.back.map fun x => (sh d x.1, sh d x.2.1, x.2.2)
    first := sh d r.first, trig := sh d r.trig, last := sh d r.last, markA := k r.markA, markB := k r.markB
    flags := if open_ then r.flags ||| 64 else r.flags }

/-- The capture unit: t_acc, the span of its records and marks, and its history. -/
def CapSt.shift (d : Int) (k : Nat → Nat) (u : CapSt) : CapSt :=
  { u with
    fill := sh d u.fill, tAcc := sh d u.tAcc, cur := u.cur.map (Rec.shift d true k), latest := shO d u.latest
    marks := u.marks.map fun m => { m with first := sh d m.first, last := sh d m.last }
    closing := u.closing.map (Rec.shift d false k), hist := u.hist.map fun p => { p with ts := sh d p.ts }
    chunkLast := sh d u.chunkLast }

/-- A channel. -/
def Channel.shift (d : Int) (k : Nat → Nat) (h : Channel) : Channel :=
  { h with
    stimAt := shO d h.stimAt, queue := h.queue.map fun x => (sh d x.1, x.2)
    fed := shO d h.fed, hold := shO d h.hold, chgOver := shO d h.chgOver, rchg := h.rchg.map (RangeChange.shift d)
    rhist := h.rhist.map (RSpan.shift d), pulse := h.pulse.map fun p => { p with t0 := sh d p.t0 }
    loop := h.loop.shift d k, trip := { h.trip with pendAt := sh d h.trip.pendAt, win := h.trip.win.map fun w => { w with till := sh d w.till } }
    convA := h.convA.shift d k, convB := h.convB.shift d k, gen := h.gen.shift d, cap := h.cap.shift d k
    cal := { h.cal with meas := h.cal.meas.map fun m => { m with from_ := sh d m.from_, until_ := sh d m.until_ } } }

/-- A wait in progress: an absolute target stands, any other tick moves with the count. -/
def Wait.shift (d : Int) (w : Wait) : Wait :=
  match w.kind with
  | .tick g false => { w with issued := sh d w.issued, kind := .tick g false }
  | .tick g true => { w with issued := sh d w.issued, kind := .tick (sh d g) true, hit := shO d w.hit }
  | _ => { w with issued := sh d w.issued, hit := shO d w.hit }

/-- A thread: its next issue and its wait. -/
def Thread.shift (d : Int) (h : Thread) : Thread := { h with ready := sh d h.ready, wait := h.wait.map (Wait.shift d) }

/-- A cluster: its timers and barriers, and the issue phase, so that the issue sequence runs on without a break. -/
def Cluster.shift (d : Int) (n : Cluster) : Cluster :=
  { n with
    thr := n.thr.map (Thread.shift d), tmr := n.tmr.map (shO d)
    bars := n.bars.map fun b => { b with release := shO d b.release }
    phase := ⟨((n.phase.1 + d) % 9).toNat % 9, by omega⟩ }

/-- A region: the end of its step and the times of acceptance of its requests. -/
def Region.shift (d : Int) (g : Region) : Region :=
  { g with stepEnd := sh d g.stepEnd, queue := g.queue.map fun q => { q with t0 := sh d q.t0 } }

/-- A WAIT.TICK whose absolute target now lies behind the count completes at the next tick with LATE_WAIT (R28, R265). -/
def State.lateWait (s : State) (t : Thr) : State :=
  s.modTh t fun h => match h.wait with
    | some w => match w.kind with
      | .tick g false =>
        if g < s.thNow t then
          { h with sticky := h.sticky ||| 1, wait := some { w with kind := .tick (s.thNow t + 1) false, hit := some (s.thNow t + 1) } }
        else h
      | _ => h
    | none => h

/-- The count of die d takes the hub's; activities that run keep their timing (R28). -/
def State.realign (s : State) (d : Die) : State :=
  let x : Int := (s.tick : Int) - s.dt d
  let fch := fun (c : Ch) (s : State) => s.modCh c fun h => h.shift x fun k => s.idxAt c (sh x (s.sTick c k))
  let s := s.each (chsOfDie d) fch
  let s := s.each (clsOfDie d) fun n s => s.modCl n (Cluster.shift x)
  let s := s.each (rgsOfDie d) fun r s => s.modRg r (Region.shift x)
  let s := { s with dieTick := s.dieTick.set d.1 s.tick d.2 }
  s.each (clsOfDie d) fun n s => s.each (thrsOf n) fun t s => s.lateWait t

/-- The twelve bytes of a channel mask. -/
def chMask (f : Ch → Bool) : List Byte := leBytes 12 (allChs.foldl (fun a c => a + at_ (b1 (f c)) c.1) 0)

/-- A die whose count disagrees with the hub's (R27): TICK_MISMATCH, realignment, and REALIGN in the Pedigree (Table 18-5). -/
def State.checkDie (s : State) (d : Die) : State :=
  if (s.die.get d).clkOk && s.dt d != s.tick then
    let old := s.dt d
    let mask := chMask fun c => dieOfCh c == d && (s.ch c).cap.cur.isSome
    let s := s.realign d
    let s := s.pedQueue 0x11 0 (leBytes 8 d.1 ++ leBytes 8 old ++ leBytes 8 s.tick ++ mask) .none
    (s.latchAll 29).raiseHub 4 (wd d.1)
  else s

/-- TICK_CHECK (R27, R28). -/
def execTickCheck (tk : Nat) (s : State) : Host.Outcome State Fault Refusal :=
  .next (s.eventAt tk fun s => (s.checkDie 0).checkDie 1)

/-! ## Die faults (R29-R31, Table 1-7) -/

/-- The running and waiting threads of a die halt at their next issue slots. -/
def State.haltDie (s : State) (d : Die) : State :=
  s.each (clsOfDie d) fun n s => s.each (thrsOf n) fun t s =>
    if (s.th t).busy then s.halt t causeDieHalt (s.issueTick t (s.thNow t)) else s

/-- A record without what came from tick t0 on: the slots from the first such sample on go, and the sets stand as before it. -/
def Rec.upTo (r : Rec) (t0 k0 n : Nat) : Rec :=
  match (r.back.filter fun x => decide (t0 ≤ x.1)).getLast? with
  | none => r
  | some e =>
    let la := r.lanes k0 n
    { r with
      slotsA := r.slotsA.drop (r.slotsA.length - la.1), slotsB := r.slotsB.drop (r.slotsB.length - la.2)
      mA := e.2.2.1, mB := e.2.2.2, back := [] }

/-- What a channel had open closes at the sample after the last that the hub received before the replays began to fail, 500
ticks ago (R29, R31). -/
def State.cutReceived (s : State) (c : Ch) : State :=
  let h := s.ch c
  let t0 := s.now c - 500
  let late := h.cap.cur.toList.flatMap fun r => (r.back.filter fun x => decide (t0 ≤ x.1)).map fun x => x.2.1
  let b := match late.min? with
    | some ts => s.bndAt c ts
    | none => s.nextB c (max h.convA.wts h.convB.wts)
  let s := s.modCap c fun k => { k with cur := k.cur.map fun r => r.upTo t0 (s.recK0 c r) (s.idxAt c b - s.recK0 c r) }
  (s.closeStream c b).truncRec c b

/-- DIE_LINK_CRC_FAIL (R29): a transfer is replayed, which costs latency and loses no data. -/
def execDieLinkCrcFail (tk : Nat) (d : Die) (s : State) : Host.Outcome State Fault Refusal :=
  .next (s.eventAt tk fun s => s.modDie d fun x => { x with replay := x.linkUp })

/-- DIE_LINK_DOWN (R29, R31, R395, R404): the event carries how many items were aborted. -/
def execDieLinkDown (tk : Nat) (d : Die) (s : State) : Host.Outcome State Fault Refusal :=
  .next (s.eventAt tk fun s =>
    if !(s.die.get d).linkUp then s
    else
      let n := (s.items.filter (onDie d)).length
      let s := (s.modDie d fun x => { x with linkUp := false, replay := false }).abortItems 0x60 (onDie d)
      let s := s.raiseHub (if d = 0 then 0 else 1) (wd n)
      let s := s.each (chsOfDie d) fun c s => s.cutReceived c
      let s := s.each (chsOfDie d) fun c s => s.freeze c
      let s := s.haltDie d
      s.each (clsOfDie d) fun n s => s.modCl n fun k => { k with intake := 0 })

/-- DIE_CLOCK_LOST (R395, R181, Table 1-7). -/
def execDieClockLost (tk : Nat) (d : Die) (s : State) : Host.Outcome State Fault Refusal :=
  .next (s.eventAt tk fun s =>
    if !(s.die.get d).clkOk then s
    else
      let n := (s.items.filter (onDie d)).length
      let s := s.each (chsOfDie d) fun c s => (s.freeze c).closeWins c
      let s := (s.haltDie d).abortItems 0x61 (onDie d)
      let s := s.raiseHub (if d = 0 then 2 else 3) (wd n)
      s.modDie d fun x => { x with clkOk := false })

/-- DIE_LINK_RETURN (R415): the event groups that the die kept are delivered, in the order of their sources; threads stay halted
(R31). -/
def execDieLinkReturn (tk : Nat) (d : Die) (s : State) : Host.Outcome State Fault Refusal :=
  .next (s.eventAt tk fun s =>
    if (s.die.get d).linkUp then s
    else
      let s := s.modDie d fun x => { x with linkUp := true }
      s.each ((List.finRange 1024).filter fun n => srcDie n == some d) fun n s => s.deliverGroup n)

/-- DIE_CORE_PLL_LOCK (R27, R245): the die's count is aligned and the issue phases of its clusters are fixed anew, in their order. -/
def execDieCorePllLock (tk : Nat) (d : Die) (phases : List (Fin 9)) (s : State) : Host.Outcome State Fault Refusal :=
  .next (s.eventAt tk fun s =>
    if (s.die.get d).clkOk || !((rgsOfDie d).any fun r => (s.rg r).on) then s
    else
      let s := (s.modDie d fun x => { x with clkOk := true }).realign d
      s.each ((clsOfDie d).zip phases) fun p s => s.modCl p.1 fun k => { k with phase := p.2 })

/-! ## Cluster fault (Table 1-4, R397) -/

/-- A cluster fault with its cause: all nine threads halt, every channel enters stimulus freeze, and the items of the cluster
abort. -/
def State.clusterFault (s : State) (n : Cl) (cause : Byte) : State :=
  let s := s.each (chsOfCl n) fun c s => s.freeze c
  let s := s.each (thrsOf n) fun t s =>
    if (s.th t).busy then s.halt t causeClusterHalt (s.issueTick t (s.thNow t)) else s
  let s := s.modCl n fun k => { k with intake := 0 }
  (s.abortItems 0x62 (onCluster n)).raise (clSrc n 0) 0x100 (cause.setWidth 32)

/-- CLUSTER_HALT (R12, R13, R397). -/
def execClusterHalt (tk : Nat) (cl : Cl) (cause : Byte) (s : State) : Host.Outcome State Fault Refusal :=
  .next (s.eventAt tk fun s => if (s.rg (rgOfCl cl)).on then s.clusterFault cl cause else s)

end Sys2Proof.Machine
end

