-- ==== Sys2Proof/Machine/FabricEv.lean ====
section
/-! DEFINITION. Rows of the queues and of the event fabric (16): QUEUE_INTEGRITY, coalescing windows, held packets, and the clear of
PEND. A fall-through queue is its list of items; its two counters are the length of that list until they disagree (R403). -/

namespace Sys2Proof.Machine

/-- Detail word of QUEUE_INTEGRITY: queue, first and second counter (Table 16-4). -/
def queueDetail (q first second : Nat) : Word := wd (at_ q 24 + at_ (first % 256) 8 + second % 256)

/-- QUEUE_INTEGRITY (R17, R403, Table 16-2): the second counter of a queue shows `second` where the first shows another number. The
cause code of the cluster fault is a free value: Table 1-4 gives none (log 6). -/
def execQueueIntegrity (tk : Nat) (q : QueueRef) (second : Nat) (s : State) : Host.Outcome State Fault Refusal :=
  .next (s.eventAt tk fun s => match q with
    | .dac c =>
      let n := (s.ch c).queue.length
      if n = second ∨ (s.ch c).st = .off then s
      else (s.modCh c fun h => { h with queue := [], qiDac := satAdd 15 h.qiDac 1 }).chEv c .queueIntegrity (queueDetail 0 n second)
    | .result c =>
      let n := (s.ch c).rq.length
      if n = second ∨ (s.ch c).st = .off then s
      else (s.modCh c fun h => { h with rq := [], qiRes := satAdd 15 h.qiRes 1 }).chEv c .queueIntegrity (queueDetail 1 n second)
    | .intake n =>
      let k := (s.cl n).intake
      if k = second ∨ !(s.rg (rgOfCl n)).on then s
      else
        let s := (s.modCl n fun x => { x with intake := 0, qiInt := satAdd 255 x.qiInt 1 }).raise (clSrc n 3) 0x118 (queueDetail 2 k second)
        (s.clusterFault n (s.free.setWidth 8)).used)

/-- COALESCE_WINDOW_END (R413). -/
def execCoalesceWindowEnd (tk : Nat) (n : Src) (s : State) : Host.Outcome State Fault Refusal :=
  .next (s.eventAt tk fun s => match (s.ev.get n).win with
    | some w => if w ≤ s.tick then s.endWindow n else s
    | none => s)

/-- Write what a source holds, in order, up to the first packet that still finds no room; a packet whose ring is no longer Open is
discarded (R414). -/
def State.releaseHeld (s : State) (n : Src) (hs : List HeldEv) : State :=
  match hs with
  | [] => s
  | h :: rest =>
    if (s.ring h.ctx h.ring).st != .opened || s.canWrite h.ctx h.ring (if h.coal then 2 else 1) then
      ((s.modEv n fun e => { e with held := eraseFirst (· == h) e.held }).writeEv n h).releaseHeld n rest
    else s.releaseHeld n rest

/-- HELD_PACKET_RELEASE (R414). -/
def execHeldPacketRelease (tk : Nat) (n : Src) (s : State) : Host.Outcome State Fault Refusal :=
  .next (s.eventAt tk fun s => s.releaseHeld n (s.ev.get n).held)

/-- The write of 1 to PEND of a source's EVSTAT: PEND and OCC clear in the same tick (R410, R416). -/
def State.pendClear (s : State) (n : Src) : State := s.modEv n fun e => { e with pend := false, occ := 0 }

end Sys2Proof.Machine
end

