-- ==== Sys2Proof/Machine/Flow.lean ====
section
/-! DEFINITION. Flow instructions (10.3). -/

namespace Sys2Proof.Machine

/-- The jump target of JMP and CALL: TGT, or g(RA) when IND = 1 (R282, R284). -/
def State.jumpTo (s : State) (t : Thr) (w : ZWord) : Except Byte Nat :=
  if bit (f17 w) 16 then
    let n := (s.g t w.ra).toNat
    if 16384 ≤ n then .error causeFetchRange else .ok n
  else .ok (ff w 0 14)

/-- Set the program counter. -/
def State.setPc (s : State) (t : Thr) (n : Nat) : State := s.modTh t fun h => { h with pc := n }

/-- JMP (R282). -/
def execJmp (t : Thr) (w : ZWord) (s : State) : Host.Outcome State Fault Refusal :=
  .next (s.issue t w (legalJmp w) false fun s => (s.jumpTo t w).map (s.setPc t))

/-- BR.cond (R282, Table 10-4). -/
def execBrCond (t : Thr) (w : ZWord) (s : State) : Host.Outcome State Fault Refusal :=
  .next (s.issueOk t w (legalBr w) fun s =>
    if condHolds (ff w 14 3) (s.g t w.ra) (s.th t).last then s.setPc t (ff w 0 14) else s)

/-- CALL (R282, R284): the return index is the index after CALL. A full stack faults before the target is read. -/
def execCall (t : Thr) (w : ZWord) (s : State) : Host.Outcome State Fault Refusal :=
  .next (s.issue t w (legalJmp w) false fun s =>
    if 8 ≤ (s.th t).stack.length then .error causeStackOvf
    else (s.jumpTo t w).map fun n => s.modTh t fun h => { h with stack := h.pc :: h.stack, pc := n })

/-- RET (R270, R282): an empty stack ends the thread; the channel stays as the program left it. -/
def execRet (t : Thr) (w : ZWord) (s : State) : Host.Outcome State Fault Refusal :=
  .next (s.issueOk t w (legalF w false false false 0) fun s =>
    match (s.th t).stack with
    | [] => s.modTh t fun h => { h with st := .ended }
    | r :: l => s.modTh t fun h => { h with stack := l, pc := r })

/-- LOOP (R283). -/
def execLoop (t : Thr) (w : ZWord) (s : State) : Host.Outcome State Fault Refusal :=
  .next (s.issueOk t w (legalLoop w) fun s =>
    let v := s.g t w.ra
    if v = 0 then s
    else
      let s := s.setG t w.ra (v - 1)
      if v - 1 = 0 then s else s.setPc t (ff w 0 14))

end Sys2Proof.Machine
end

