-- ==== Sys2Proof/Machine/GenEv.lean ====
section
/-! DEFINITION. Events of the waveform generators: start, samples, Fetch, markers; and the sources of trigger lines: TRG pins
and cluster timers (07, 08.1, 08.2, 09.3). -/

namespace Sys2Proof.Machine

/-! ## Generators -/

/-- START_TICK (Table 7-6). -/
def State.startTick (s : State) (c : Ch) : Nat := (s.ctl c 0x510).toNat + 2 ^ 32 * (s.ctl c 0x514).toNat

/-- The tick at which the start condition comes and whether it comes late, with the other conditions holding from tick a on
(R210): none while START = 1 has had no edge. -/
def State.startAt (s : State) (c : Ch) (a : Nat) : Option (Nat × Bool) :=
  match fld (s.ctl c 0x500) 24 2 with
  | 1 => (s.ch c).gen.lineHit.map fun t => (t, false)
  | 2 => if a ≤ s.startTick c then some (s.startTick c, false) else some (s.loopFrom c a, true)
  | _ => some (s.loopFrom c a, false)

/-- Sample 0 at tick t0: RATE, MK_DELAY and SMK are latched, NEXT moves to CUR, and its first entry begins (R189, R190, R208,
R210, R213). -/
def State.genStart (s : State) (c : Ch) (t0 : Nat) (late : Bool) : State :=
  let w := s.ctl c 0x500
  let s := s.modGen c fun g =>
    ({ g with
      running := true, m := g.rateM, n := g.rateN, t0 := t0, j := 0, mkDelay := fld w 0 10, smk := w.extractLsb' 17 2
      starving := false, starved := 0, waiting := none, waitHit := none, lineHit := none, armedAt := none, xs := []
      jumpPend := false }.takeNext).stick 4 late
  ((s.genBegin c 0 false t0).genCommit c t0).genAfter c t0

/-- The slot size in force is set at the start; where NEXT was loaded at another size, Fetch loads it anew (R260). -/
def State.startSize (s : State) (c : Ch) : State :=
  let z := s.sizeFor c
  s.modGen c fun g =>
    let g := { g with cut := z.2 }
    if g.nextSize = z.1 then { g with size := z.1 }
    else { g with size := z.1, nextSize := z.1, nextLoaded := 0, eccNext := none }

/-- GENERATOR_START (R210). While a condition is missing, or NEXT is not ready, nothing starts (log 3). -/
def execGeneratorStart (tk : Nat) (c : Ch) (s : State) : Host.Outcome State Fault Refusal :=
  .next (s.eventAt tk fun s =>
    match (s.ch c).gen.armedAt.bind (s.startAt c) with
    | some (t, late) =>
      if !(s.ch c).genReady || !s.rgOn c || decide (s.now c < t) then s
      else
        let s := s.startSize c
        let g := (s.ch c).gen
        if !g.nextReady then s.modGen c fun g => g.stick 4 true
        else s.genStart c (max t g.readyAt) (late || decide (t < g.readyAt))
    | none => s)

/-- GENERATOR_SAMPLE (R190). -/
def execGeneratorSample (c : Ch) (s : State) : Host.Outcome State Fault Refusal :=
  .next (
    let g := (s.ch c).gen
    if g.running then s.dueAt (dieOfCh c) (g.tickOf g.j) fun s => (s.genSample c (g.tickOf g.j)).genAfter c (g.tickOf g.j) else s)

/-- Entry in a block of the first acquisition memory error that Fetch meets there. -/
def State.badEntry (s : State) (a n : Nat) : Option Nat :=
  if s.mem.bad.isEmpty then none else (List.range n).find? fun i => s.mem.bad.contains ((a + 16 * i) / 64)

/-- Fetch copies block `blk` of segment q to its place in the slot as absolute block `ab`; an entry that two reads could not
read is noted, each failed read being logged (R197-R199, R430). -/
def State.fetchBlock (s : State) (c : Ch) (q : Seg) (next : Bool) (blk ab : Nat) : State :=
  let g := (s.ch c).gen
  let z := max 1 (if next then g.nextSize else g.size)
  let n := min 256 (q.len + 1 - 256 * blk)
  let a := 16 * q.base + 4096 * blk
  let dst := slotOff c (if next then g.nextP else g.curP) z + ab * 256 % z * 16
  let bytes := memBytes s.acq a (16 * n)
  let s := s.modCl (clOf c) fun k => { k with tmem := memSetBytes k.tmem dst bytes }
  match s.badEntry a n with
  | none => s
  | some j =>
    let s := (s.logUe 2 c.1 ((a + 16 * j) / 64)).logUe 2 c.1 ((a + 16 * j) / 64)
    s.modGen c fun g =>
      let e := 256 * ab + j
      let mark := fun (o : Option Nat) => some (min e (o.getD e))
      if next then { g with eccNext := mark g.eccNext } else { g with eccAt := mark g.eccAt }

/-- Fetch has room for another block of CUR, and the stream goes on to it (R197). -/
def GenSt.wantsBlock (g : GenSt) (q : Seg) : Bool :=
  decide (g.size < q.len + 1) && decide (g.curLoaded - g.curFrom < g.size / 256)
    && (decide (g.curLoaded < g.passBase + q.blocks) || q.ends.toNat == 1)

/-- FETCH_BLOCK_ARRIVAL (R196, R197): the block that Fetch reads next for the slot; any other changes nothing (log 3). -/
def execFetchBlockArrival (tk : Nat) (c : Ch) (next : Bool) (block : Nat) (s : State) : Host.Outcome State Fault Refusal :=
  .next (s.eventAt tk fun s =>
    let g := (s.ch c).gen
    if !s.rgOn c then s
    else if next then
      match g.next with
      | some q =>
        if block = g.nextLoaded ∧ block < q.need g.nextSize then
          (s.fetchBlock c q true block block).modGen c fun g =>
            let g := { g with nextLoaded := block + 1 }
            if g.nextReady then { g with readyAt := s.now c } else g
        else s
      | none => s
    else match g.cur with
      | some q =>
        if g.wantsBlock q ∧ block = g.curLoaded % q.blocks then
          (s.fetchBlock c q false block g.curLoaded).modGen c fun g => { g with curLoaded := g.curLoaded + 1 }
        else s
      | none => s)

/-! ## Sources of lines -/

/-- MARKER_EDGE (R208): a level that the generator or MARK asked for is due. -/
def execMarkerEdge (tk : Nat) (c : Ch) (m1 level : Bool) (s : State) : Host.Outcome State Fault Refusal :=
  .next (s.eventAt tk fun s =>
    match (s.ch c).gen.mkPend.find? fun p => p.2.1 == m1 with
    | some p =>
      if p.1 ≤ s.now c ∧ p.2.2 = level then
        s.modGen c fun g => { g with mkPend := eraseFirst (fun p => p.2.1 == m1) g.mkPend }.setMk m1 level
      else s
    | none => s)

/-- TRG_EDGE (R219, R220): the comparator of a TRG pin changes. `fast` says that the phase it ends lay between two samples of
the edge counter: the counter cannot resolve it, and OVERRANGE sets. -/
def execTrgEdge (tk : Nat) (pin : Fin 16) (rising fast : Bool) (s : State) : Host.Outcome State Fault Refusal :=
  .next (s.eventAt tk fun s =>
    if bit s.trgLvl pin.1 == rising then s
    else
      let b : BitVec 16 := BitVec.ofNat 16 (2 ^ pin.1)
      let n := s.trgCnt.get pin
      let n' := if rising then (if fast then n else satAdd 0xFFFFFFFF n 1) else if fast && decide (n < 0xFFFFFFFF) then n - 1 else n
      let ovr := fast || decide (n' = 0xFFFFFFFF)
      { s with
        trgLvl := if rising then s.trgLvl ||| b else s.trgLvl &&& ~~~b
        trgCnt := s.trgCnt.set pin.1 n' pin.2
        trgCfg := if ovr then s.trgCfg.set pin.1 (s.trgCfg.get pin ||| 0x1000000) pin.2 else s.trgCfg })

/-- CLUSTER_TIMER_EXPIRY (R259): a periodic timer sets its next expiry by PERIOD as it stands, another clears EN. The level
that it raises for one tick reaches its lines by their own rows (log 16). -/
def execClusterTimerExpiry (n : Cl) (i : Fin 8) (s : State) : Host.Outcome State Fault Refusal :=
  .next (match (s.cl n).tmr.get i with
    | some e => s.dueAt (dieOfCl n) e fun s =>
      let o := 0x4080 + 8 * i.1
      let cfg := memWord (s.cl n).tmem o
      if bit cfg 30 then s.modCl n fun k => { k with tmr := k.tmr.set i.1 (some (e + s.tmrPer n i)) i.2 }
      else s.modCl n fun k => { k with
        tmr := k.tmr.set i.1 none i.2, tmem := memSetWord k.tmem o (cfg &&& ~~~(0x80000000 : Word)) }
    | none => s)

end Sys2Proof.Machine
end

