-- ==== Sys2Proof/Machine/PackEv.lean ====
section
/-! DEFINITION. The Pack bus (8.8, 1.7): probing, forming, the origin pulse that loads s.tick, keep pulses, Pack triggers, and the loss
of alignment. -/

namespace Sys2Proof.Machine

/-- Set a sticky bit of PACKSTAT (Table 8-13). -/
def State.packStick (s : State) (b : Nat) : State := { s with pack := { s.pack with sticky := s.pack.sticky ||| wd (2 ^ b) } }

/-- The hub core PLL takes PACK_CLK or REFCLK as its reference (R35, R36): while the PLLs relock, the channels of every powered region
follow R15. -/
def State.setRef (s : State) (on : Bool) : State :=
  if s.pack.onPack == on then s
  else { s with pack := { s.pack with onPack := on } }.each (List.finRange 6) fun r s => s.rgLostEvent r false

/-- PACKCTL PROBE (R240): the package drives one edge on PACK_SYNC. -/
def State.packProbe (s : State) : State := { s with pack := { s.pack with probing := true } }

/-- The least LAND that step 3 of R241 allows, over the drivers that PACKDLY names. -/
def Pack.minLand (k : Pack) : Nat := k.dly.toList.foldl (fun m d => max m (ceilDiv (d.toNat + k.rttSelf.toNat) 16)) 0 + 12

/-- PACKCTL FORM (R241): refused with FORM_ERR, or the package waits for the origin pulse. -/
def State.packForm (s : State) : State :=
  let k := s.pack
  let runs := s.clus.toList.any Cluster.busy
    || s.chan.toList.any fun h => h.gen.running || h.cap.cur.isSome || h.cap.streaming || !h.cap.marks.isEmpty
  if !k.rttValid || decide (fld k.cfg 16 8 < k.minLand) || runs then s.packStick 19
  else { s with pack := { s.pack with forming := some s.tick, loaded := false, formed := false } }

/-- Stored hub ticks after the hub count has changed by `d`; the always-on time does not jump. -/
def State.shiftHub (s : State) (d : Int) : State :=
  let fe := fun (e : EvSource) => { e with win := shO d e.win }
  let fr := fun (x : Nat × Ring) => if x.2.unsig = 0 then x else (x.1, { x.2 with unsigAt := sh d x.2.unsigAt })
  let fg := fun (g : Region) => { g with cycleAt := shO d g.cycleAt }
  let fb := fun (b : Barrier) => { b with release := shO d b.release }
  { s with
    ev := s.ev.map fe, rings := s.rings.map fr, rgn := s.rgn.map fg, bars := s.bars.map fb, clrTill := sh d s.clrTill
    genAt := s.genAt.map (sh d), hub := { s.hub with linkAt := sh d s.hub.linkAt }, fw := { s.fw with switchAt := sh d s.fw.switchAt }
    aon := { s.aon with
      wakeAt := shO d s.aon.wakeAt, entryTick := sh d s.aon.entryTick, k0 := sh d s.aon.k0, tickOff := s.aon.tickOff - d }
    mem := { s.mem with lastUse := sh d s.mem.lastUse }
    ped := { s.ped with wait := s.ped.wait.map fun p => { p with came := sh d p.came } }
    pack := { s.pack with
      forming := shO d s.pack.forming, lastTrg := s.pack.lastTrg.map (shO d), keepAt := sh d s.pack.keepAt
      trgPend := s.pack.trgPend.map fun x => (x.1, sh d x.2) } }

/-- s.tick takes a new value, and the dies whose core clock runs follow as in a realignment (R28, R241). -/
def State.loadTick (s : State) (t : Nat) : State :=
  let d : Int := (t : Int) - s.tick
  let s := { s.shiftHub d with tick := t }
  let f := fun (x : Die) (s : State) => if (s.die.get x).clkOk then s.realign x else s
  (f 0 s |> f 1)

/-- PACK_ALIGN_LOST (R36, R244, Table 1-9): the package leaves the Pack, its PLLs return to REFCLK. -/
def State.alignLost (s : State) (cause : Nat) : State :=
  let s := { s with pack := { s.pack with formed := false, loaded := false, forming := none, lost := true, trgPend := [], driven := 0 } }
  (((s.packStick 18).setRef false).latchAll 30).raiseHub 7 (wd cause)

/-- PROBE_RETURN (R240): the probe edge has come back after `rtt` eighths of a tick. -/
def execProbeReturn (tk : Nat) (rtt : BitVec 16) (s : State) : Host.Outcome State Fault Refusal :=
  .next (s.eventAt tk fun s =>
    if s.pack.probing then { s with pack := { s.pack with probing := false, rttSelf := rtt, rttValid := true } } else s)

/-- ORIGIN_PULSE (R241): s.tick takes ORIGIN in a package that has accepted FORM in the last 131,072 ticks. -/
def execOriginPulse (tk : Nat) (s : State) : Host.Outcome State Fault Refusal :=
  .next (s.eventAt tk fun s => match s.pack.forming with
    | some t =>
      if s.pack.loaded || decide (t + 131072 < s.tick) then s
      else
        let o := s.pack.origin.toNat
        let s := s.loadTick o
        { s with pack := { s.pack with loaded := true, keepAt := o } }
    | none => s)

/-- FORM_TIMEOUT (R241). -/
def execFormTimeout (tk : Nat) (s : State) : Host.Outcome State Fault Refusal :=
  .next (s.eventAt tk fun s => match s.pack.forming with
    | some t =>
      if s.pack.loaded || decide (s.tick < t + 131072) then s
      else ({ s with pack := { s.pack with forming := none } }.packStick 19).setRef false
    | none => s)

/-- PACK_TRIGGER_DRIVE (R242): the pin of a line that this package owns is driven once its tick has come; an edge less than 4 ticks
after the one before on its line is not driven. -/
def execPackTriggerDrive (tk : Nat) (n : Fin 8) (s : State) : Host.Outcome State Fault Refusal :=
  .next (s.eventAt tk fun s => match s.pack.trgPend.find? fun x => x.1 == n.1 && decide (x.2 ≤ s.tick) with
    | none => s
    | some x =>
      let s := { s with pack := { s.pack with trgPend := eraseFirst (· == x) s.pack.trgPend } }
      let near := match s.pack.lastTrg.get n with
        | some l => decide (x.2 < l + 4)
        | none => false
      if near || !bit s.pack.cfg (8 + n.1) then s
      else { s with pack := { s.pack with lastTrg := s.pack.lastTrg.set n.1 (some x.2) n.2 } })

/-- PACK_TRIGGER_LANDING (R242): an edge of line n lands in a formed Pack, and the level of the Pack trigger changes (log 17). A
package that has lost alignment takes none (R36). -/
def execPackTriggerLanding (tk : Nat) (n : Fin 8) (s : State) : Host.Outcome State Fault Refusal :=
  .next (s.eventAt tk fun s =>
    if s.pack.formed then { s with pack := { s.pack with driven := s.pack.driven ^^^ BitVec.ofNat 8 (2 ^ n.1) } } else s)

/-- PACK_KEEP_PULSE (R241, R244): a pulse within one tick of a multiple of 65,536 checks out, and the first one makes the Pack formed;
any other is misplaced. -/
def execPackKeepPulse (tk : Nat) (s : State) : Host.Outcome State Fault Refusal :=
  .next (s.eventAt tk fun s =>
    let m := s.tick % 65536
    if !s.pack.loaded then s
    else if 1 < m ∧ m < 65535 then s.alignLost 1
    else
      let was := s.pack.formed
      let s := { s with pack := { s.pack with keepAt := s.tick, formed := true, lost := false, forming := none } }
      if was then s
      else { s with aon := { s.aon with tickEst := false } }.raiseHub 6 (wd (fld s.pack.cfg 0 5)))

/-- KEEP_PULSE_MISSING (R244). -/
def execKeepPulseMissing (tk : Nat) (s : State) : Host.Outcome State Fault Refusal :=
  .next (s.eventAt tk fun s => if s.pack.loaded && decide (s.pack.keepAt + 131072 ≤ s.tick) then s.alignLost 2 else s)

/-- PACK_CLK_LOST (R244): of a package whose PLLs follow PACK_CLK. -/
def execPackClkLost (tk : Nat) (s : State) : Host.Outcome State Fault Refusal :=
  .next (s.eventAt tk fun s => if s.pack.onPack then s.alignLost 0 else s)

end Sys2Proof.Machine
end

