-- ==== Sys2Proof/Machine/MemEv.lean ====
section
/-! DEFINITION. Rows of the acquisition memory controller (17): training, refresh, the MR4 rate, the patrol scrub and the DDR clock. -/

namespace Sys2Proof.Machine

/-- Change the memory controller. -/
def State.modMem (s : State) (f : MemCtl → MemCtl) : State := { s with mem := f s.mem }

/-- Highest transfer rate that OTP gives: 0 4,800, 1 5,600, 2 6,400 MT/s (Table 17-8). -/
def MemCtl.speed (m : MemCtl) : Nat := fld m.org 10 2

/-- The rate of a margin step: steps 2 and 3 lower it, not below 4,800 (Table 17-5). -/
def MemCtl.rateOf (m : MemCtl) (step : Nat) : Nat := m.speed - (step - 1)

/-- MCCTL RETRAIN (R436). -/
def State.askRetrain (s : State) : State := s.modMem fun m => { m with retrain := true }

/-- No record or stream of the package is open and no generator runs (R436). -/
def State.memIdle (s : State) : Bool :=
  s.chan.toList.all fun h => h.cap.cur.isNone && h.cap.closing.isEmpty && !h.cap.streaming && h.cap.marks.isEmpty && !h.gen.running

/-- A C2 request is outstanding: a LOAD, MEMRD or READOUT of acquisition memory that has begun. -/
def State.c2Busy (s : State) : Bool := s.items.any fun p =>
  s.stage p == 1 && (p.hdr.type == 0x30 || ((p.hdr.type == 0x10 || p.hdr.type == 0x14) && fld p.hdr.arg0 0 2 == 3))

/-- RETRAIN_START (R436). -/
def execRetrainStart (tk : Nat) (s : State) : Host.Outcome State Fault Refusal :=
  .next (s.eventAt tk fun s =>
    if s.mem.present && s.mem.retrain && !s.mem.training && s.memIdle && !s.c2Busy then
      s.modMem fun m => { m with training := true, tryRate := none }
    else s)

/-- TRAINING_COMPLETE (R419, R420, R434, R435): a training ends with these eyes (read, write) of the four sub-channels. A sub-channel
below its minimum is trained again at the next lower rate; at 4,800 MT/s training fails. -/
def execTrainingComplete (tk : Nat) (eyes : Vector (Nat × Nat) 4) (s : State) : Host.Outcome State Fault Refusal :=
  .next (s.eventAt tk fun s =>
    if !s.mem.present then s
    else
      let r := match s.mem.tryRate with
        | some r => r
        | none => s.mem.rateOf s.mem.stepNext
      let low := (List.finRange 4).filter fun i => decide (min (eyes.get i).1 (eyes.get i).2 < minEye r)
      let s := s.modMem fun m => { m with eyes := eyes }
      match low.getLast? with
      | none =>
        let s := s.modMem fun m => { m with
          trained := true, kept := true, retrain := false, training := false, selfRef := false, ddrClk := true, lastUse := s.tick
          step := m.stepNext, rate := r, tryRate := none }
        s.raiseHub 34 (wd (at_ s.mem.step 2 + r))
      | some i =>
        if 0 < r then s.modMem fun m => { m with tryRate := some (r - 1) }
        else
          let s := s.modMem fun m => { m with
            trained := false, kept := false, retrain := false, training := false, step := m.stepNext, rate := 0, tryRate := none }
          s.raiseHub 35 (wd i.1))

/-- REFRESH_DUE (R429): `busy` says that a C0 or promoted request waits on the rank, `waiting` that any request does. -/
def execRefreshDue (tk : Nat) (rank : Fin 4) (busy waiting : Bool) (s : State) : Host.Outcome State Fault Refusal :=
  .next (s.eventAt tk fun s =>
    if !s.mem.trained || s.mem.selfRef then s
    else
      let n := s.mem.postponed.get rank
      let n' := if busy && decide (n < 4) then n + 1 else if waiting || busy then n else 0
      s.modMem fun m => { m with postponed := m.postponed.set rank.1 n' rank.2 })

/-- MR4_RATE_CHANGE (R429): a sub-channel's MR4 asks for the doubled rate, or returns to the normal one. -/
def execMr4RateChange (tk : Nat) (sub : Fin 4) (hot : Bool) (s : State) : Host.Outcome State Fault Refusal :=
  .next (s.eventAt tk fun s =>
    let b : BitVec 4 := BitVec.ofNat 4 (2 ^ sub.1)
    let was := s.mem.hot
    let s := s.modMem fun m => { m with hot := if hot then m.hot ||| b else m.hot &&& ~~~b }
    if hot && was == 0 then s.raiseHub 37 (wd sub.1) else s)

/-- A corrected error of a sub-channel is counted; at CE_THRESH × 256 MEM_CE_LIMIT is raised (R430, Table 17-7). -/
def State.countCe (s : State) (sub : Fin 4) : State :=
  let n := s.mem.ce.get sub
  let n' := satAdd 0xFFFF n 1
  let lim := fld s.mem.mccfg1 0 8 * 256
  let s := s.modMem fun m => { m with ce := m.ce.set sub.1 n' sub.2 }
  if lim ≠ 0 ∧ n' = lim ∧ n ≠ n' then s.raiseHub 33 (wd sub.1) else s

/-- Put a block among those in error. -/
def insBlock (b : Nat) : List Nat → List Nat
  | [] => [b]
  | c :: l => if b < c then b :: c :: l else if b = c then c :: l else c :: insBlock b l

/-- PATROL_SCRUB (R430, R431): the scrub reads the next block of installed memory. A block already in error reads so again. -/
def execPatrolScrub (tk : Nat) (res : ScrubRead) (s : State) : Host.Outcome State Fault Refusal :=
  .next (s.eventAt tk fun s =>
    let blocks := s.memCap / 64
    if blocks = 0 ∨ fld s.mem.mccfg1 8 8 = 0 then s
    else
      let b := s.mem.patrol % blocks
      let last := decide (b + 1 = blocks)
      let s := if res = .ue ∨ s.mem.bad.contains b then (s.modMem fun m => { m with bad := insBlock b m.bad }).logUe 7 255 b
        else if res = .ce then s.countCe (subChan (64 * b))
        else s
      s.modMem fun m => { m with
        patrol := if last then 0 else b + 1, pass := if last then (m.pass + 1) % 65536 else m.pass })

/-- DDR_CLOCK_STOP (R437, R473): in Standby, 100 µs after the last request. -/
def execDdrClockStop (tk : Nat) (s : State) : Host.Outcome State Fault Refusal :=
  .next (s.eventAt tk fun s =>
    if s.aon.pstate = .standby ∧ s.mem.ddrClk ∧ s.mem.lastUse + 100 * ticksPerUs ≤ s.tick then
      s.modMem fun m => { m with ddrClk := false, selfRef := true }
    else s)

end Sys2Proof.Machine
end

