-- ==== Sys2Proof/Machine/ResetOps.lean ====
section
/-! DEFINITION. What a package fault and a package reset do (Table 1-8, 14.7, 19.7), and the hub boot (R443). -/

namespace Sys2Proof.Machine

/-- Every thread that runs or waits halts at its next issue slot, and every channel enters stimulus freeze (R13). Table 9-12 gives no
cause for a package fault; DIE_HALT is the model's choice (log 19). -/
def State.haltAll (s : State) : State :=
  let s := s.each allChs fun c s => s.freeze c
  s.each (List.finRange 12) fun n s => s.each (thrsOf n) fun t s =>
    if (s.th t).busy then s.halt t causeDieHalt (s.issueTick t (s.thNow t)) else s

/-- What a package-level fault takes down among threads and channels (Table 1-8): Heel, Run and Held go through Draining to Parked; a
trip that is due comes first (R58). -/
def State.packageFault (s : State) : State :=
  let s := s.each allChs fun c s => s.tripFirst c
  let s := s.haltAll
  s.each allChs fun c s => s.hostPark c (s.bnd c)

/-- A hub fault with its CAUSE (R488): the hub is down until PERST_N or RESET_N. -/
def State.hubFault (s : State) (cause : Byte) : State :=
  let s := s.packageFault
  { s with hub := { s.hub with ready := false, recovery := false, fault := true, cause := cause } }

/-- A ring caught by a package reset (R372, R377). -/
def Ring.recap (g : Ring) : Ring :=
  match g.st with
  | .opened | .draining => { g with st := .recap, pend := false, unsig := 0 }
  | _ => { g with pend := false }

/-- Memory controller registers after a package reset (R423, R437, Tables 17-6 to 17-8): the ranks are in self-refresh, the training
values stay in the always-on domain, and a pending retraining stays. -/
def MemCtl.pkgReset (m : MemCtl) : MemCtl :=
  { MemCtl.reset with
    present := m.present, org := m.org, orgOtp := m.orgOtp, orgSet := m.orgSet, retrain := m.retrain, step := m.step
    stepNext := m.stepNext, rate := m.rate, eyes := m.eyes, patrol := m.patrol, bad := m.bad, kept := m.kept || m.trained }

/-- PERST_N, RESET_N and software reset (Table 19-9), with the cause of the boot that follows and LAST_RESET. The items and the posted
packets stay in the journal (R398); completions not yet written and packets in the hub are lost. -/
def State.pkgReset (s : State) (cause : Fin 5) : State :=
  let s := s.packageFault
  let fc := fun (n : Cluster) => { n with thr := Vector.replicate 9 Thread.reset, bars := Vector.replicate 4 Barrier.empty }
  let fg := fun (g : Region) => { g with szncfg := 0x003C0432, sznch := 0xFFFF }
  let fe := fun (e : EvSource) => { EvSource.reset with grp := e.grp }
  let fr := fun (x : Nat × Ring) => (x.1, x.2.recap)
  let fk := fun (k : CtxState) => { k with viol := 0 }
  { s with
    clus := s.clus.map fc, rgn := s.rgn.map fg, ev := s.ev.map fe, rings := s.rings.map fr, ctxs := s.ctxs.map fk
    bars := Vector.replicate 8 Barrier.empty, items := [], cqWait := [], evLost := 0
    trgCfg := Vector.replicate 16 0x003202A7, trgCnt := Vector.replicate 16 0, pack := Pack.reset, mem := s.mem.pkgReset
    fw := { s.fw with activating := false, switched := false, reverted := false }
    ped := { s.ped with signing := none, queue := [] }
    hub := { Hub.reset with
      cause := s.hub.cause, d3hot := s.hub.d3hot, pme := s.hub.pme, link := s.hub.link, capture := s.hub.capture, linkAt := s.hub.linkAt
      bootCause := cause, resume := s.hub.resume, ssid := s.hub.ssid, testHeld := s.hub.testHeld }
    aon := { s.aon with
      deepPend := false, supDip := 0, lastReset := BitVec.ofNat 3 (cause.1 + 1)
      tickEst := s.aon.tickEst || (s.hub.fault && s.hub.cause == 2) } }

/-- What PERST_N and RESET_N do beyond a software reset: straps, the TEST pins, the violation log; a reset wakes the package from Deep
sleep with WAKE_SRC 3 (R79, R393, R476, R502). -/
def State.pinReset (s : State) (cause : Fin 5) (straps : BitVec 2) (test : Bool) : State :=
  let asleep := s.aon.pstate == .deepSleep && !s.aon.waking
  let s := s.pkgReset cause
  { s with
    vlog := [], vlogHead := 0, vlogTotal := 0, hub := { s.hub with testHeld := test }
    aon := { s.aon with
      clrsel := straps, waking := s.aon.waking || asleep, wakeSrc := if asleep then 3 else s.aon.wakeSrc } }

/-! ## Hub boot (R443, R444) -/

/-- Supplies of the hub and PCIe domains, and of the always-on domain (Table 1-12). -/
def State.hubSupplies (s : State) : Bool :=
  s.supOk .aon && s.supOk .core && s.supOk .io && s.supOk .pcie08 && s.supOk .pcie18

/-- The image that a boot runs: the slot that SLOT names, or the other one (R443). -/
def State.bootSlot (s : State) : Option Bool :=
  if s.imgValid (s.fw.img s.fw.slot) then some s.fw.slot
  else if s.imgValid (s.fw.img (!s.fw.slot)) then some (!s.fw.slot)
  else none

/-- The trim set as TRIM_OTP covers it: the trim words of every physical channel in order (Table 12-11). -/
def State.trimSet (s : State) : List Byte :=
  s.phys.toList.flatMap fun p => (List.range 4).flatMap fun i => leBytes 4 (p.trimWord i).toNat

/-- After a rise of VDD_AON (R448, R456): the chain goes on from the non-volatile head in a new epoch with RESUME, context 0 owns
every channel, and the factory trim load is a calibration generation (R318). -/
def State.resumeChain (s : State) : State :=
  let n := s.ped
  let s := { s with
    ped := { n with
      epoch := n.nvEpoch + 1, seq := n.nvSeq, head := n.nvHead, since := 0
      entries := n.entries.filter fun e => decide (e.seq ≤ n.nvSeq) }
    owner := Vector.replicate 96 0, ctxs := (Vector.replicate 64 (CtxState.reset false)).set 0 (CtxState.reset true)
    calGen := s.calGen + 1, genAt := s.tick :: s.genAt, hub := { s.hub with resume := false } }
  let s := s.pedQueue 0x02 0 (leBytes 8 n.nvEpoch ++ leBytes 8 n.nvSeq ++ digBytes n.nvHead) .none
  s.pedQueue 0x06 0 (digBytes (sha256 s.trimSet)) .none

/-- Append entries that wait, up to n of them. -/
def State.pedAppendN : Nat → State → State
  | 0, s => s
  | n + 1, s => State.pedAppendN n s.pedAppend

/-- Capacity that OTP gives, in pages below the reserved area (R422). -/
def MemCtl.usablePages (m : MemCtl) : Nat := if m.present then (fld m.org 0 8 * 2 ^ 30 - 2 ^ 26) / 4096 else 0

/-- The memory controller as the hub boots: the organisation of OTP, window 0 over the usable area, and memory that left
self-refresh with the values kept (R418, R423, R437). -/
def MemCtl.boot (m : MemCtl) : MemCtl :=
  let m := { m with present := m.orgSet, org := m.orgOtp }
  { m with
    trained := m.present && m.kept
    winSize := (Vector.replicate 64 (0 : BitVec 25)).set 0 (BitVec.ofNat 25 m.usablePages) }

/-- Hub boot (R443, R444): a verified image runs, RESUME after a rise of VDD_AON, BOOT, READY, and BOOT_FALLBACK; or recovery. -/
def State.boot (s : State) : State :=
  let s := { s with mem := s.mem.boot, aon := { s.aon with supDip := 0 } }
  let s := s.modCtx 0 fun k => { k with isOpen := true }
  match s.bootSlot with
  | none => { s with hub := { s.hub with fault := true, cause := 1, recovery := true } }
  | some b =>
    let fell := b != s.fw.slot
    let s := { s with
      fw := { s.fw with slot := b }.setValid b true, sec := { s.sec with svn := imgSvn (s.fw.img b) }
      hub := { s.hub with fallback := fell } }
    let fresh := s.hub.resume
    let s := if fresh then s.resumeChain else s
    let s := s.pedQueue 0x03 0 (s.bootBody s.hub.bootCause.1) .none
    let s := { s with hub := { s.hub with ready := true, fault := false, recovery := false } }
    let s := s.pedAppendN s.ped.wait.length
    let s := if fresh then (s.raiseHub 69 (wd s.ped.epoch)).startCkpt 2 [] else s
    if fell then s.raiseHub 67 (wd (b1 b)) else s

end Sys2Proof.Machine
end

