-- ==== Sys2Proof/Machine/Regs.lean ====
section
/-! DEFINITION. Writes that arrive on a doorbell page (14.2-14.4, 14.6, 14.7): their capture while the hub is down, doorbells, REGWR
under the rights of Table 14-3, and CR_CTL with the recaps of R377. -/

namespace Sys2Proof.Machine

/-! ## Pages -/

/-- Page k is live: the hub runs, in recovery only page 0 (R363, R444); no page is in Deep sleep. -/
def State.pageLive (s : State) (k : Ctx) : Bool :=
  s.aon.pstate != .deepSleep && (s.hub.ready || (s.hub.recovery && k == 0))

/-- Two captured writes are doorbells of one ring and kind. -/
def sameBell : Captured → Captured → Bool
  | .bell k c b, .bell k' c' b' => k == k' && c == c' && b.ring == b'.ring && b.size8 && b'.size8 && !b.poisoned && !b'.poisoned
  | _, _ => false

/-- The always-on domain captures a write while the hub is down, keeping the latest INDEX per ring and kind; with 64 entries held it
withholds credit, and the write stays with the host (R376, R465). -/
def State.capture (s : State) (x : Captured) : State :=
  let l := s.hub.capture
  let l' := if l.any (sameBell x) then l.map fun y => if sameBell x y then x else y
    else if l.length < 64 then l ++ [x] else l
  { s with hub := { s.hub with capture := l' } }

/-- The link is active at this tick (R376). -/
def State.linkUse (s : State) : State := { s with hub := { s.hub with linkAt := s.tick, link := .l0 } }

/-- A write to the page of a context: to a closed context it is dropped and logged (R363). -/
def State.onPage (s : State) (k : Ctx) (f : State → State) : State :=
  let s := s.linkUse
  if (s.ctxs.get k).isOpen then f s else s.violBell k 0 0x16 (wd k.1) 0

/-! ## Doorbells (R364, R365) -/

/-- a lies behind b, as a signed difference modulo 2^32. -/
def behind (a b : Word) : Bool := (a - b).msb

/-- Judgement of a doorbell (Table 14-9); `kind` is false for the submission tail. -/
def State.judgeBell (s : State) (k : Ctx) (kind : Bool) (b : Bell) : State :=
  let g := s.ring k b.ring
  if b.poisoned then s.violBell k 0 0x15 0 0
  else if !b.size8 then s.violBell k 0 0x14 0 0
  else if g.st != .opened then s.violBell k b.ring 0x10 b.index 0
  else if !kind then
    if behind b.index g.sqTail then s.violBell k b.ring 0x11 b.index g.sqTail
    else if behind g.limit b.index then s.violBell k b.ring 0x12 b.index g.limit
    else s.setRing k b.ring { g with sqTail := b.index, pend := b.index != g.sqHead }
  else if behind b.index g.cqHead then s.violBell k b.ring 0x11 b.index g.cqHead
  else if behind g.cqTail b.index then s.violBell k b.ring 0x13 b.index g.cqTail
  else s.setRing k b.ring { g with cqHead := b.index }

/-! ## REGWR (R366, Table 14-3) -/

/-- A write that the table does not permit. -/
def State.regDenied (s : State) (k : Ctx) (a : Nat) : State := s.violBell k 0 0x18 (wd a) 0

/-- SWRESET with its key; without it the write is ignored and logged (Table 14-5). -/
def State.hubCtl (s : State) (k : Ctx) (w : Word) : State :=
  if !bit w 0 then s
  else if fld w 16 16 = 0xC1EA then s.pkgReset 2
  else s.regDenied k 8

/-- PACKCTL (R240): PROBE, then FORM. -/
def State.packCtl (s : State) (w : Word) : State :=
  let s := if bit w 0 then s.packProbe else s
  if bit w 1 then s.packForm else s

/-- The rings of a context's channels are checked after a write that changes its window (R423). -/
def State.checkWindow (s : State) (k : Ctx) : State :=
  s.each (allChs.filter fun c => s.owner.get c == k) fun c s => (s.checkRing c false).checkRing c true

/-- A write of MWINk: its low word BASE, its high word SIZE (Table 17-9). -/
def State.writeWindow (s : State) (k : Ctx) (high : Bool) (w : Word) : State :=
  let v : BitVec 25 := w.extractLsb' 0 25
  let old := if high then s.mem.winSize.get k else s.mem.winBase.get k
  let s := s.modMem fun m =>
    if high then { m with winSize := m.winSize.set k.1 v k.2 } else { m with winBase := m.winBase.set k.1 v k.2 }
  if old = v then s else s.checkWindow k

/-- Registers of the hub window below the event fabric: the write, if the table has it (context 0). -/
def State.regHub (s : State) (k : Ctx) (a : Nat) (w : Word) : Option State :=
  let p := s.pack
  if a = 0x8 then some (s.hubCtl k w)
  else if a = 0x10 then some { s with fw := { s.fw with reverted := s.fw.reverted && !bit w 30 } }
  else if h : 0x1000 ≤ a ∧ a < 0x1040 then
    let n : Fin 16 := ⟨(a - 0x1000) / 4, by omega⟩
    let old := s.trgCfg.get n
    some { s with trgCfg := s.trgCfg.set n.1 ((w &&& 0x00FF03FF) ||| (old &&& 0x01000000 &&& ~~~w)) n.2 }
  else if a = 0x2000 then some ({ s with pack := { p with cfg := w &&& 0x00FFFF9F } }.setRef true)
  else if a = 0x2004 then some { s with pack := { p with sticky := p.sticky &&& ~~~(w &&& 0x000C0000) } }
  else if a = 0x2008 then some (s.packCtl w)
  else if a = 0x2010 then some { s with pack := { p with origin := p.origin.extractLsb' 32 32 ++ w } }
  else if a = 0x2014 then some { s with pack := { p with origin := w ++ p.origin.extractLsb' 0 32 } }
  else if h : 0x2020 ≤ a ∧ a < 0x2044 then
    some { s with pack := { p with dly := p.dly.set ((a - 0x2020) / 4) (w.extractLsb' 0 16) (by omega) } }
  else if h : 0x2060 ≤ a ∧ a < 0x2080 then
    some { s with pack := { p with src := p.src.set ((a - 0x2060) / 4) (w.extractLsb' 0 9) (by omega) } }
  else if a = 0x30008 then some (s.modMem fun m => { m with mccfg0 := w &&& 0xFFFFFF00 })
  else if a = 0x3000C then some (s.modMem fun m => { m with mccfg1 := w &&& 0x03FFFFFF })
  else if a = 0x30010 then some (if bit w 0 then s.askRetrain else s)
  else if h : 0x30200 ≤ a ∧ a < 0x30400 then
    some (s.writeWindow ⟨(a - 0x30200) / 8, by omega⟩ (a / 4 % 2 == 1) w)
  else none

/-- A write to a word of a region's calibration or Seasoning block (Tables 12-8, 13-5), if the block has it as written. -/
def State.regRegion (s : State) (r : Rg) (szn : Bool) (o : Nat) (w : Word) : Option State :=
  let on := (s.rg r).on
  match szn, o with
  | false, 0 => some (if on then s.modRg r fun g => { g with calcfg := w &&& 0xFFF000FF } else s)
  | false, 4 => some (if on then s.modRg r fun g => { g with natgap := w.extractLsb' 0 16 } else s)
  | false, 8 => some (if bit w 31 then s.modRg r fun g => { g with xrefFault := false } else s)
  | true, 0 => some (s.modRg r fun g => { g with szncfg := w })
  | true, 4 => some (s.modRg r fun g => { g with sznch := w.extractLsb' 0 16 })
  | _, _ => none

/-- A REGWR of context k to BAR0 byte offset a, judged and applied (R362, R366, R408). -/
def State.regWrite (s : State) (k : Ctx) (a : Nat) (w : Word) : State :=
  let deny := s.regDenied k a
  if h : 0x8000 ≤ a ∧ a < 0x9000 then
    let n : Src := ⟨(a - 0x8000) / 4, by omega⟩
    let m : Word := if 912 ≤ n.1 then 0xFFFFFF80 else 0xFFFFFF00
    if s.srcOwner n = k then s.modEv n fun e => { e with cfg := w &&& m } else deny
  else if h : 0x9000 ≤ a ∧ a < 0xA000 then
    let n : Src := ⟨(a - 0x9000) / 4, by omega⟩
    if s.srcOwner n = k then (if bit w 31 then s.pendClear n else s) else deny
  else if h : 0x10000 ≤ a ∧ a < 0x16000 then
    let r : Rg := ⟨(a - 0x10000) / 0x1000, by omega⟩
    if s.rgOwner r = k then (s.regRegion r false (a % 0x1000) w).getD deny else deny
  else if h : 0x18000 ≤ a ∧ a < 0x1E000 then
    let r : Rg := ⟨(a - 0x18000) / 0x1000, by omega⟩
    if s.rgOwner r = k then (s.regRegion r true (a % 0x1000) w).getD deny else deny
  else if k = 0 then (s.regHub k a w).getD deny
  else deny

/-! ## Control ring (R377, R378) -/

/-- CR_STATE lets the CR_ words be written and ENABLE act. -/
def State.crIdle (s : State) (k : Ctx) : Bool := (s.ring k 0).st == .closed || (s.ring k 0).st == .recap

/-- A CR_ write that the state of the control ring forbids, by its offset in the page (R378). -/
def State.crBusy (s : State) (k : Ctx) (off : Nat) : State := s.violBell k 0 0x19 (wd off) (wd (s.ring k 0).st.code)

/-- A write of CR_SQBASE, CR_CQBASE, CR_TAILWB or CR_CFG (Table 14-6). -/
def State.crWord (s : State) (k : Ctx) (n : Fin 4) (d : DWord) : State :=
  if !s.crIdle k then s.crBusy k (0x18 + 8 * n.1)
  else s.modCtx k fun c => match n with
    | 0 => { c with crSq := d }
    | 1 => { c with crCq := d }
    | 2 => { c with crTail := d }
    | 3 => { c with crCfg := d.extractLsb' 0 32 &&& 0xFFFF0000 }

/-- The control ring as the CR_ words give it (R368, Table 14-6). -/
def CtxState.control (c : CtxState) : Ring :=
  openRing c.crSq c.crCq c.crTail c.crCfg (wd (at_ (fld c.crCfg 21 1) 31 + at_ (fld c.crCfg 16 5) 26)) (2 ^ fld c.crCfg 27 5 - 1)

/-- Eight bytes of a recap entry (R399). -/
def recapEntry (h : Hdr) (kind : Nat) : List Byte := leBytes 4 h.seq.toNat ++ leBytes 1 kind ++ [h.type] ++ leBytes 2 0

/-- The entries of the journal that lie on a ring: accepted and not executed, or executed with the completion lost (R398). -/
def State.recapItems (s : State) (k : Ctx) (r : RingNo) : List (Hdr × Nat) :=
  (s.journal.filter fun j => j.ctx == k && j.ring == r).map fun j => (j.hdr, if j.stage == 2 then 2 else 0)

/-- Write the RECAP packets of one ring to completion ring `to_`, up to 8,192 entries each (R399). The number bounds the packets. -/
def State.writeRecap : Nat → State → Ctx → RingNo → RingNo → List (Hdr × Nat) → Nat → Nat → State
  | 0, s, _, _, _, _, _, _ => s
  | n + 1, s, k, to_, r, l, total, left =>
    let more := decide (8192 < l.length)
    let b := (l.take 8192).flatMap fun x => recapEntry x.1 x.2
    let s := s.post { OutPkt.blank k to_ 0x83 with
      about := BitVec.ofNat 16 r.1, res0 := wd (b1 more)
      res1 := if more then 0 else BitVec.ofNat 64 (total + at_ left 32)
      pay := b ++ List.replicate ((32 - b.length % 32) % 32) 0 }
    if more then State.writeRecap n s k to_ r (l.drop 8192) total left else s

/-- What the journal and the hub keep of a ring goes. -/
def State.forget (s : State) (k : Ctx) (r : RingNo) : State :=
  { s with
    journal := s.journal.filter fun j => !(j.ctx == k && j.ring == r)
    cqWait := s.cqWait.filter fun o => !(o.ctx == k && o.ring == r) }

/-- The resume recap of a ring in Recap, on its own completion ring; posted packets are those the device reads between SQ_HEAD and
SQ_TAIL. The ring returns to Open (R377). -/
def State.resumeRing (s : State) (k : Ctx) (r : RingNo) (posted : List Hdr) : State :=
  let g := s.ring k r
  if g.st != .recap then s
  else
    let l := s.recapItems k r ++ posted.map fun h => (h, 1)
    let s := (s.forget k r).setRing k r { g with st := .opened }
    let s := State.writeRecap (l.length + 1) s k r r l l.length (g.sqTail - g.sqHead).toNat
    s.modRing k r fun g => { g with sqHead := g.sqTail, limit := g.sqTail + wd g.win }

/-- The fresh recap of a ring in Recap, on the new control ring (R377). -/
def State.freshRing (s : State) (k : Ctx) (r : RingNo) (old : Ring) (l : List (Hdr × Nat)) : State :=
  State.writeRecap (l.length + 1) s k 0 r l l.length (old.sqTail - old.sqHead).toNat

/-- The rings of a context in Recap, in ascending order. -/
def State.recapRings (s : State) (k : Ctx) : List RingNo :=
  (s.rings.filter fun g => g.1 / 4096 == k.1 && g.2.st == .recap).map fun g => ⟨g.1 % 4096, Nat.mod_lt _ (by omega)⟩

/-- CR_CTL ENABLE once its CR_ words have passed R368 (R377). -/
def State.enableCr (s : State) (k : Ctx) (fresh : Bool) (posted : List (RingNo × Hdr)) : State :=
  let rs := s.recapRings k
  let new := (s.ctxs.get k).control
  if fresh then
    let olds := rs.map fun r => (r, s.ring k r, s.recapItems k r)
    let s := s.each rs fun r s => (s.forget k r).setRing k r Ring.closed
    let s := s.setRing k 0 new
    s.each olds fun x s => s.freshRing k x.1 x.2.1 x.2.2
  else
    let s := if (s.ring k 0).st == .closed then s.setRing k 0 new else s
    s.each rs fun r s => s.resumeRing k r ((posted.filter fun x => x.1 == r).map fun x => x.2)

/-- CR_CTL (R378): ENABLE acts while the control ring is Closed or Recap. -/
def State.crEnable (s : State) (k : Ctx) (fresh : Bool) (posted : List (RingNo × Hdr)) : State :=
  let c := s.ctxs.get k
  if !s.crIdle k then s.crBusy k 0x34
  else if !ringArgs c.crSq c.crCq c.crTail c.crCfg then s
  else s.enableCr k fresh posted

/-! ## Captured writes -/

/-- A page write of the row REGISTER_WRITE is judged (R364, R366, R378). -/
def State.pageWrite (s : State) (k : Ctx) (w : PageWrite) : State :=
  match w with
  | .regwr off d => s.regWrite k (4 * off.toNat) d
  | .crWord n d => s.crWord k n d
  | .badSize off => if off.toNat / 8 < 2 then s.violBell k 0 0x14 (off.setWidth 32) 0 else s
  | .poisoned off => s.violBell k 0 0x15 (off.setWidth 32) 0
  | .other _ => s

/-- The writes captured while the hub was down are judged in their order (R365, R376). -/
def State.judgeCaptured (s : State) : State :=
  let l := s.hub.capture
  { s with hub := { s.hub with capture := [] } }.each l fun x s => match x with
    | .bell k kind b => if s.pageLive k then s.onPage k fun s => s.judgeBell k kind b else s.capture x
    | .reg k w => if s.pageLive k then s.onPage k fun s => s.pageWrite k w else s.capture x

/-- A doorbell of page k, judged or captured. -/
def State.bell (s : State) (k : Ctx) (kind : Bool) (b : Bell) : State :=
  if s.pageLive k then s.onPage k fun s => s.judgeBell k kind b else s.capture (.bell k kind b)

/-- A REGWR of page k, judged or captured. -/
def State.regwr (s : State) (k : Ctx) (a : Nat) (w : Word) : State :=
  if s.pageLive k then s.onPage k fun s => s.regWrite k a w else s.capture (.reg k (.regwr (BitVec.ofNat 18 (a / 4)) w))

/-- Any other write of page k; while the hub is down only REGWR is captured. -/
def State.otherWrite (s : State) (k : Ctx) (w : PageWrite) : State :=
  match w with
  | .regwr off d => s.regwr k (4 * off.toNat) d
  | w => if s.pageLive k then s.onPage k fun s => s.pageWrite k w else s

end Sys2Proof.Machine
end

