-- ==== Sys2Proof/Machine/LinkEv.lean ====
section
/-! DEFINITION. Rows of the host link (14): ring service, fences, descriptors, completions, messages, doorbells, register writes and
reads, and the link power states above Deep sleep. -/

namespace Sys2Proof.Machine

/-! ## Ring service (R369, R374, R375, R390, R391) -/

/-- The hub takes packets of this ring: it serves, no activation is under way, and in recovery the ring is ring 0 of context 0 (R351,
R376, R436, R444). -/
def State.takes (s : State) (k : Ctx) (r : RingNo) : Bool :=
  s.linkIssues && !s.fw.activating && (!s.hub.recovery || (k == 0 && r == 0)) && (s.ring k r).st == .opened && s.cached k r

/-- The units of a ring up to a new head are read and freed, and LIMIT follows (R369). -/
def Ring.freeTo (g : Ring) (h : Word) : Ring := { g with sqHead := h, limit := h + wd g.win, pend := h != g.sqTail }

/-- One packet at the head of a ring. The flag says that service goes on. -/
def State.serveOne (s : State) (k : Ctx) (r : RingNo) (f : Fetched) : State × Bool :=
  let g := s.ring k r
  let left := (g.sqTail - g.sqHead).toNat
  let len := f.hdr.len.toNat
  let all := s.setRing k r (g.freeTo g.sqTail)
  if left = 0 then (s, false)
  else if f.hdrErr then (all.violPkt k r f.hdr false 0x08 g.sqHead (wd left), false)
  else if 2048 < len then (all.violPkt k r f.hdr true 0x01 (wd left) g.sqTail, false)
  else if left < 1 + len then (s, false)
  else
    let s := s.setRing k r (g.freeTo (g.sqHead + wd (1 + len)))
    let p : Pkt := { tk := s.tick, ctx := k, ring := r, hdr := f.hdr, payload := f.payload }
    match s.checkPkt p, f.payErr with
    | none, some u => (s.violPkt k r f.hdr true 0x08 (g.sqHead + wd u) (wd (1 + len)), true)
    | _, _ => (s.accept p, true)

/-- The packets of one turn, in order. -/
def State.serve (s : State) (k : Ctx) (r : RingNo) : List Fetched → State
  | [] => s
  | f :: fs =>
    let x := s.serveOne k r f
    if x.2 then x.1.serve k r fs else x.1

/-- A credit update when LIMIT has risen by WIN/4 or more since the last value written and no completion waits (R369). -/
def State.credit (s : State) (k : Ctx) (r : RingNo) : State :=
  let g := s.ring k r
  if decide (g.win ≤ 4 * (g.limit - g.shown).toNat) && s.canWrite k r 1 then s.writeOut (OutPkt.blank k r 0x82) else s

/-- RING_SERVICE (R359, R374, R391): one turn of a ring, up to WEIGHT + 1 packets; a ring whose completion ring has no room is
skipped. Which ring comes next is the sender's to say (log 20). -/
def execRingService (tk : Nat) (k : Ctx) (r : RingNo) (ps : List Fetched) (s : State) : Host.Outcome State Fault Refusal :=
  .next (s.eventAt tk fun s =>
    if !s.takes k r || !s.canWrite k r 1 then s
    else
      let s := ((s.linkUse.touchCache k r).touchMem)
      (s.serve k r (ps.take ((s.ring k r).weight + 1))).credit k r)

/-- The meaning of a packet by its TYPE (Tables 15-3, 18-9, 19-5). -/
def pktExec (p : Pkt) (s : State) : Host.Outcome State Fault Refusal :=
  match p.hdr.type.toNat with
  | 0x01 => execNop p s
  | 0x02 => execRingCreate p s
  | 0x03 => execRingDestroy p s
  | 0x04 => execRingQuery p s
  | 0x10 => execLoad p s
  | 0x11 => execStart p s
  | 0x12 => execStop p s
  | 0x13 => execPoke p s
  | 0x14 => execMemrd p s
  | 0x20 => execChcmd p s
  | 0x21 => execResults p s
  | 0x30 => execReadout p s
  | 0x40 => execRefAssign p s
  | 0x41 => execPairReinstall p s
  | 0x42 => execSznReport p s
  | 0x43 => execRemap p s
  | 0x44 => execFwLoad p s
  | 0x45 => execFwActivate p s
  | 0x46 => execPwrStateStandby p s
  | 0x47 => execRegionPwrUp p s
  | 0x48 => execSclkSet p s
  | 0x49 => execChReset p s
  | 0x4A => execWakeAt p s
  | 0x50 => execIdGet p s
  | 0x51 => execQuote p s
  | 0x52 => execCheckpoint p s
  | 0x53 => execPedRead p s
  | 0x54 => execPedCfg p s
  | 0x58 => execCtxOpen p s
  | 0x59 => execCtxMove p s
  | 0x5A => execCtxClose p s
  | 0x5B => execSvnCommit p s
  | 0x5C => execProvisionXref p s
  | _ => .next s

/-- FENCE_RELEASE (R382): the fenced packet that is now the oldest of its ring executes. -/
def execFenceRelease (tk : Nat) (k : Ctx) (r : RingNo) (s : State) : Host.Outcome State Fault Refusal :=
  match s.items.find? fun p => p.ctx == k && p.ring == r with
  | some p => if bit p.hdr.flags 0 then pktExec { p with tk := tk } s else .next (s.eventAt tk fun s => s)
  | none => .next (s.eventAt tk fun s => s)

/-- A ring goes to Faulted, and its accepted packets fail with DESC_UE on the control ring (R375). -/
def State.descFault (s : State) (k : Ctx) (r : RingNo) : State :=
  let ps := s.items.filter fun p => p.ctx == k && p.ring == r
  let s := s.modRing k r fun g => { g with st := .faulted, pend := false }
  s.each ps fun p s =>
    { s with
      items := eraseFirst (samePkt p) s.items
      journal := eraseFirst (fun j => j.ctx == k && j.ring == r && j.hdr == p.hdr) s.journal }.post
      { OutPkt.blank k 0 0x80 with
        status := stFailed, seq := p.hdr.seq, tag := p.hdr.tag, code := 0x44, ptype := p.hdr.type, about := BitVec.ofNat 16 r.1 }

/-- The 64-byte block of a ring's descriptor (R368, Table 17-2). -/
def State.descBlock (s : State) (k : Ctx) (r : RingNo) : Nat := (s.memCap - 2 ^ 24) / 64 + gring k r

/-- DESCRIPTOR_FETCH (R375, Table 17-4). -/
def execDescriptorFetch (tk : Nat) (k : Ctx) (r : RingNo) (ue : Bool) (s : State) : Host.Outcome State Fault Refusal :=
  .next (s.eventAt tk fun s =>
    let g := s.ring k r
    if s.cached k r || !s.mem.trained || (g.st != .opened && g.st != .draining) then s
    else
      let s := s.touchMem
      if ue || s.mem.bad.contains (s.descBlock k r) then (s.logUe 3 255 (s.descBlock k r)).descFault k r
      else s.touchCache k r)

/-- COMPLETION_WRITE (R370): the packet that waits longest for a ring is written once there is room. -/
def execCompletionWrite (tk : Nat) (k : Ctx) (r : RingNo) (s : State) : Host.Outcome State Fault Refusal :=
  .next (s.eventAt tk fun s => match s.cqWait.find? fun o => o.ctx == k && o.ring == r with
    | none => s
    | some o =>
      if s.linkIssues && (s.ring k r).st != .recap && decide (o.units ≤ (s.ring k r).room) then
        let s := { s with cqWait := eraseFirst (fun o => o.ctx == k && o.ring == r) s.cqWait }
        (s.writeOut o).drainRing k r
      else s)

/-- MSIX_MODERATION_TIMEOUT (R371): MOD_T µs have passed since the first completion not yet signalled. -/
def execMsixModerationTimeout (tk : Nat) (k : Ctx) (r : RingNo) (s : State) : Host.Outcome State Fault Refusal :=
  .next (s.eventAt tk fun s =>
    let g := s.ring k r
    if g.irqEn && decide (0 < g.unsig) && decide (g.unsigAt + g.modT * ticksPerUs ≤ s.tick) && s.linkIssues then
      (s.setRing k r { g with unsig := 0 }).msix (32 * k.1 + g.vec.toNat)
    else s)

/-! ## Doorbells and registers -/

/-- DOORBELL_SQ_TAIL (R364, R365). -/
def execDoorbellSqTail (tk : Nat) (k : Ctx) (d : Bell) (s : State) : Host.Outcome State Fault Refusal :=
  .next (s.eventAt tk fun s => s.bell k false d)
/-- DOORBELL_CQ_HEAD (R364, R365). -/
def execDoorbellCqHead (tk : Nat) (k : Ctx) (d : Bell) (s : State) : Host.Outcome State Fault Refusal :=
  .next (s.eventAt tk fun s => s.bell k true d)
/-- REGISTER_WRITE (R362-R366, R378). -/
def execRegisterWrite (tk : Nat) (k : Ctx) (w : PageWrite) (s : State) : Host.Outcome State Fault Refusal :=
  .next (s.eventAt tk fun s => s.otherWrite k w)
/-- CR_CTL ENABLE (R377, R378); with DISABLE set as well the write is dropped. -/
def execCrCtlEnable (tk : Nat) (k : Ctx) (fresh disable : Bool) (posted : List (RingNo × Hdr)) (s : State) :
    Host.Outcome State Fault Refusal :=
  .next (s.eventAt tk fun s =>
    if !s.pageLive k then s else s.onPage k fun s => if disable then s else s.crEnable k fresh posted)
/-- CR_CTL DISABLE (R373, R378): it acts while the control ring is Open. -/
def execCrCtlDisable (tk : Nat) (k : Ctx) (s : State) : Host.Outcome State Fault Refusal :=
  .next (s.eventAt tk fun s =>
    if !s.pageLive k then s
    else s.onPage k fun s => if (s.ring k 0).st == .opened then s.disableRings k else s.crBusy k 0x34)
/-- SWRESET (R486, Table 14-5): a write of HUBCTL with SWRESET set and this KEY. -/
def execSwreset (tk : Nat) (k : Ctx) (key : BitVec 16) (s : State) : Host.Outcome State Fault Refusal :=
  .next (s.eventAt tk fun s => s.regwr k 8 (key ++ (1 : BitVec 16)))
/-- PROBE (R240): a write of PACKCTL with bit 0. -/
def execProbe (tk : Nat) (k : Ctx) (s : State) : Host.Outcome State Fault Refusal :=
  .next (s.eventAt tk fun s => s.regwr k 0x2008 1)
/-- FORM (R241): a write of PACKCTL with bit 1. -/
def execForm (tk : Nat) (k : Ctx) (s : State) : Host.Outcome State Fault Refusal :=
  .next (s.eventAt tk fun s => s.regwr k 0x2008 2)
/-- RETRAIN (R436): a write of MCCTL with bit 0. -/
def execRetrain (tk : Nat) (k : Ctx) (s : State) : Host.Outcome State Fault Refusal :=
  .next (s.eventAt tk fun s => s.regwr k 0x30010 1)
/-- EVSTAT_PEND_CLEAR (R410, R416): a write of 1 to PEND of source n. -/
def execEvstatPendClear (tk : Nat) (k : Ctx) (n : Src) (s : State) : Host.Outcome State Fault Refusal :=
  .next (s.eventAt tk fun s => s.regwr k (0x9000 + 4 * n.1) 0x80000000)

/-- REG_DIRECT_WRITE (R360): dropped, counted and logged without a context. A write inside the MSI-X Table is none of these, and in
Deep sleep no write arrives. -/
def execRegDirectWrite (tk : Nat) (off : BitVec 20) (s : State) : Host.Outcome State Fault Refusal :=
  .next (s.eventAt tk fun s =>
    if s.aon.pstate = .deepSleep ∨ (0x80000 ≤ off.toNat ∧ off.toNat < 0x88000) then s
    else
      let s := s.linkUse
      let s := { s with hub := { s.hub with directWr := satAdd 0xFF s.hub.directWr 1 } }
      s.logViol none 0 0x17 0 (off.setWidth 32))

/-- MSIX_TABLE_WRITE (R360): a word of the MSI-X Table; a vector that is pending and no longer masked is sent (PRESUMED: PCI Express,
log 18). -/
def execMsixTableWrite (tk : Nat) (off : BitVec 15) (data : Word) (s : State) : Host.Outcome State Fault Refusal :=
  .next (s.eventAt tk fun s =>
    let a := off.toNat / 4 * 4
    let v := a / 16
    let w := if a % 16 = 0 then data &&& 0xFFFFFFFC else if a % 16 = 12 then data &&& 1 else data
    let s := { s.linkUse with msixTbl := memSetWord s.msixTbl a w }
    if bit s.pba v && !s.msixMasked v then { s with pba := s.pba &&& ~~~(BitVec.ofNat 2048 (2 ^ v)) }.msix v else s)

/-- RC_FIELD_READ (R220, R361): the read returns the field and clears it, whoever reads. -/
def execRcFieldRead (tk : Nat) (f : RcField) (s : State) : Host.Outcome State Fault Refusal :=
  .next (s.eventAt tk fun s =>
    let s := s.linkUse
    match f with
    | .trgCnt n => { s with lastRead := BitVec.ofNat 64 (s.trgCnt.get n), trgCnt := s.trgCnt.set n.1 0 n.2 }
    | .preempt r => { s.modRg r fun g => { g with preempt := 0 } with lastRead := BitVec.ofNat 64 (s.rg r).preempt }
    | .evLost => { s with lastRead := BitVec.ofNat 64 s.evLost, evLost := 0 }
    | .ecc i => { s.modMem fun m => { m with ce := m.ce.set i.1 0 i.2, ue := m.ue.set i.1 0 i.2 } with
        lastRead := BitVec.ofNat 64 (s.mem.ce.get i + at_ (s.mem.ue.get i) 16) })

/-! ## Link power (R376) -/

/-- PM_D3HOT (R376): the device stops issuing requests. -/
def execPmD3hot (tk : Nat) (s : State) : Host.Outcome State Fault Refusal :=
  .next (s.eventAt tk fun s => if s.aon.pstate = .deepSleep then s else { s with hub := { s.hub with d3hot := true } })

/-- D0_ENTRY (R376): service resumes, and no state is lost. -/
def execD0Entry (tk : Nat) (s : State) : Host.Outcome State Fault Refusal :=
  .next (s.eventAt tk fun s =>
    if s.aon.pstate = .deepSleep then s else { s.linkUse with hub := { s.linkUse.hub with d3hot := false, pme := false } })

/-- L1_ENTRY (R376): after 16 µs with no ring to fetch and no completion to write. -/
def execL1Entry (tk : Nat) (s : State) : Host.Outcome State Fault Refusal :=
  .next (s.eventAt tk fun s =>
    let idle := s.cqWait.isEmpty && !(s.rings.any fun g => g.2.pend)
    if s.hub.link = .l0 ∧ idle ∧ s.hub.linkAt + 16 * ticksPerUs ≤ s.tick then { s with hub := { s.hub with link := .l1 } } else s)

end Sys2Proof.Machine
end

