-- ==== Sys2Proof/Machine/ResetEv.lean ====
section
/-! DEFINITION. Rows of resets, hub boot, hub faults, supplies and Deep sleep (19.3, 19.6, 19.7, 18.1). -/

namespace Sys2Proof.Machine

/-! ## Resets and boot -/

/-- PERST_N_ASSERT (R485, R486): the PCIe link, configuration space and the MSI-X Table reset as well, and the subsystem identifiers
written since take effect (Table 18-2). -/
def execPerstNAssert (tk : Nat) (straps : BitVec 2) (test : Bool) (s : State) : Host.Outcome State Fault Refusal :=
  .next (s.eventAt tk fun s =>
    let s := s.pinReset 0 straps test
    { s with
      msixTbl := msixReset, pba := 0
      hub := { s.hub with d3hot := false, pme := false, link := .l0, linkAt := s.tick, ssid := s.sec.ssid } })

/-- RESET_N_ASSERT (R485): a low pulse of `ns`. From 100 ns to 1 µs the manual leaves open whether it acts (log 6). -/
def execResetNAssert (tk : Nat) (ns : Nat) (straps : BitVec 2) (test : Bool) (s : State) : Host.Outcome State Fault Refusal :=
  .next (s.eventAt tk fun s =>
    if ns < 100 then s
    else if 1000 ≤ ns then s.pinReset 1 straps test
    else if s.free.getLsbD 0 then s.used.pinReset 1 straps test
    else s.used)

/-- HUB_BOOT (R443, R444): with its supplies valid and no hub fault held, the hub boots with the cause of the reset or supply rise that
came before; the writes captured meanwhile are then judged. -/
def execHubBoot (tk : Nat) (cause : Fin 5) (s : State) : Host.Outcome State Fault Refusal :=
  .next (s.eventAt tk fun s =>
    let held := s.hub.testHeld || (s.hub.fault && s.hub.cause != 1)
    if s.hub.ready || s.hub.recovery || held || !s.hubSupplies || s.aon.pstate == .deepSleep || cause != s.hub.bootCause then s
    else s.boot.judgeCaptured)

/-- REFCLK_LOST (R467, R468, R488). -/
def execRefclkLost (tk : Nat) (s : State) : Host.Outcome State Fault Refusal :=
  .next (s.eventAt tk fun s =>
    if s.aon.pstate == .deepSleep || (s.hub.fault && s.hub.cause != 1) || !s.hubSupplies then s
    else { s.hubFault 2 with aon := { s.aon with entryTick := s.tick } })

/-- HUB_FAULT (R488): causes 0x03 to 0x05. -/
def execHubFault (tk : Nat) (cause : BitVec 8) (s : State) : Host.Outcome State Fault Refusal :=
  .next (s.eventAt tk fun s =>
    if cause.toNat < 3 ∨ 5 < cause.toNat ∨ s.aon.pstate = .deepSleep ∨ (s.hub.fault ∧ s.hub.cause ≠ 1) ∨ !s.hubSupplies then s
    else s.hubFault cause)

/-! ## Supplies (R40, R482, R483) -/

/-- A supply of the hub domain falls: the hub goes down as at a package reset, and its return is a supply rise. VDD_CORE, VDD_IO and
VDD_AON take the channel dies with them: every region is Off at once (Table 1-12). -/
def State.hubDown (s : State) (dies : Bool) : State :=
  let last := s.aon.lastReset
  let s := s.pkgReset 3
  let s := { s with vlog := [], vlogHead := 0, vlogTotal := 0, cache := [], aon := { s.aon with lastReset := last } }
  if !dies then s
  else
    let s := s.each allChs fun c s => if (s.ch c).st == .off then s else s.toOff c (s.now c)
    let s := { s with rgn := s.rgn.map Region.powerDown }
    let s := { s with die := s.die.map fun _ => { linkUp := true, clkOk := false, replay := false } }
    s.pstateFollow

/-- Every powered region loses power, and a power-up under way returns to Off (R483, Table 19-4). The region in the detail of
SUPPLY_FAULT is the lowest powered one (log 21). -/
def State.rgSupplyFall (s : State) (b : Nat) : State :=
  let ons := (List.finRange 6).filter fun r => (s.rg r).on
  let s := { s with aon := { s.aon with supDip := s.aon.supDip ||| BitVec.ofNat 4 (2 ^ b) } }
  let s := s.each ons fun r s => if (s.rg r).clkOk then s.rgLostEvent r true else s.raise (rgSrc r 2) 0x210 0
  let s := s.each ons fun r s => s.each (chsOfRg r) fun c s => s.refreshGates c
  let s := s.raiseHub 100 (wd (2 ^ b + at_ ((ons.head?.map fun r => r.1).getD 0) 8))
  s.upNext.upDone

/-- VDDQ_DDR falls: memory contents are lost, the Pedigree entries with them, and training follows its return (R434, R483). -/
def State.ddrFall (s : State) : State :=
  { s with
    acq := [], aon := { s.aon with supDip := s.aon.supDip ||| 8 }, ped := { s.ped with entries := [] }
    mem := { s.mem with
      trained := false, kept := false, training := false, selfRef := true, ddrClk := false, bad := [], tryRate := none
      postponed := Vector.replicate 4 0 } }

/-- SUPPLY_FALL (R483): a supply passes its invalid threshold. -/
def execSupplyFall (tk : Nat) (u : Supply) (s : State) : Host.Outcome State Fault Refusal :=
  .next (s.eventAt tk fun s =>
    if !s.supOk u then s
    else
      let s := { s with supplies := s.supplies &&& ~~~(BitVec.ofNat 9 (2 ^ (supIdx u).1)) }
      match u with
      | .vdda => s.rgSupplyFall 0
      | .vhvP => s.rgSupplyFall 1
      | .vhvN => s.rgSupplyFall 2
      | .ddr => s.ddrFall
      | .pcie08 | .pcie18 => s.hubDown false
      | .core | .io | .aon => s.hubDown true)

/-- VDD_AON rises from off (R318, R347, R355, R448, R456, R468, R483): what OTP, the non-volatile store, the firmware slots and the DRAM
hold stays; everything else is as at the first rise. -/
def State.aonRise (s : State) : State :=
  let z := State.reset
  let fk := fun (x : Cluster × Cluster) => { x.1 with imem := x.2.imem, dmem := x.2.dmem, tmem := x.2.tmem, phase := x.2.phase }
  { z with
    pending := s.pending, freeCtr := s.freeCtr, hostOut := s.hostOut, msixSent := s.msixSent, tailWb := s.tailWb, lastRead := s.lastRead
    clus := (z.clus.zip s.clus).map fk, trgLvl := s.trgLvl, supplies := s.supplies ||| 0x100
    fw := { z.fw with imgA := s.fw.imgA, imgB := s.fw.imgB, loadPos := s.fw.loadPos }
    mem := { z.mem with orgOtp := s.mem.orgOtp, orgSet := s.mem.orgSet, bad := s.mem.bad }
    acq := s.acq, sec := { s.sec with svn := 0 }, calGen := s.calGen
    ped := { z.ped with
      entries := s.ped.entries, nvEpoch := s.ped.nvEpoch, nvSeq := s.ped.nvSeq, nvHead := s.ped.nvHead, ckptN := s.ped.ckptN
      ckpts := s.ped.ckpts, ckptLast := s.ped.ckptLast } }

/-- SUPPLY_RISE (R482): a supply becomes valid. A hub boot follows once every hub supply is valid. -/
def execSupplyRise (tk : Nat) (u : Supply) (s : State) : Host.Outcome State Fault Refusal :=
  .next (s.eventAt tk fun s =>
    if s.supOk u then s
    else if u = .aon then s.aonRise
    else
      let s := { s with supplies := s.supplies ||| BitVec.ofNat 9 (2 ^ (supIdx u).1) }
      s.each allChs fun c s => s.refreshGates c)

/-- VDD_AON_RISE (R318, R355, R448, R456). -/
def execVddAonRise (tk : Nat) (s : State) : Host.Outcome State Fault Refusal :=
  .next (s.eventAt tk fun s => s.aonRise)

/-! ## Deep sleep (R475, R476) -/

/-- Write what waits for each ring while there is room; the number bounds the packets. -/
def State.flushOut : Nat → State → State
  | 0, s => s
  | n + 1, s =>
    match s.cqWait.find? fun o => s.linkIssues && (s.ring o.ctx o.ring).st != .recap && decide (o.units ≤ (s.ring o.ctx o.ring).room)
        && (s.cqWait.find? fun q => q.ctx == o.ctx && q.ring == o.ring) == some o with
    | none => s
    | some o =>
      let s := { s with cqWait := eraseFirst (fun q => q.ctx == o.ctx && q.ring == o.ring) s.cqWait }
      State.flushOut n ((s.writeOut o).drainRing o.ctx o.ring)

/-- DEEP_SLEEP_ENTRY (R475): with DEEP_PEND set the link enters L1.2, and the package goes to Deep sleep. -/
def execDeepSleepEntry (tk : Nat) (s : State) : Host.Outcome State Fault Refusal :=
  .next (s.eventAt tk fun s =>
    if !s.aon.deepPend || s.aon.pstate != .standby then s
    else
      let s := s.flushOut s.cqWait.length
      { s with
        mem := { s.mem with selfRef := true, ddrClk := false, kept := s.mem.kept || s.mem.trained }, hub := { s.hub with link := .l12 }
        aon := { s.aon with
          deepPend := false, pstate := .deepSleep, entryTick := s.tick, k0 := s.pack.keepAt, wakeSrc := 0, waking := false } })

/-- A wake source comes in Deep sleep: WAKE_SRC keeps the first (R476). -/
def State.wakeBy (s : State) (src : BitVec 3) : State :=
  if s.aon.pstate = .deepSleep ∧ !s.aon.waking then { s with aon := { s.aon with waking := true, wakeSrc := src } } else s

/-- CLKREQ_WAKE (R376, R476). -/
def execClkreqWake (tk : Nat) (s : State) : Host.Outcome State Fault Refusal := .next (s.eventAt tk fun s => s.wakeBy 1)

/-- WAKE_AT_EXPIRY (R476, R480): the always-on timer that WAKE_AT set expires. -/
def execWakeAtExpiry (tk : Nat) (s : State) : Host.Outcome State Fault Refusal :=
  .next (s.eventAt tk fun s => match s.aon.wakeAt with
    | none => s
    | some t =>
      if s.aon.pstate ≠ .deepSleep ∧ s.tick < t then s
      else { s with aon := { s.aon with wakeAt := none } }.wakeBy 2)

/-- WAKE (R476): after `us` always-on microseconds and `pulses` keep pulses since the entry, the hub reaches Standby. s.tick comes from the
keep pulses in a formed Pack, else from the always-on clock; a gap between keep pulses loses the alignment. -/
def execWake (tk : Nat) (us : Nat) (pulses : Nat) (gap : Bool) (s : State) : Host.Outcome State Fault Refusal :=
  .next (s.eventAt tk fun s =>
    if s.aon.pstate ≠ .deepSleep ∨ !s.aon.waking then s
    else
      let inPack := s.pack.formed && !gap
      let t := if inPack then s.aon.k0 + 65536 * pulses else s.aon.entryTick + ticksPerUs * us
      let s := { s with
        tick := t, aon := { s.aon with waking := false, tickEst := s.aon.tickEst || !inPack }
        pack := { s.pack with keepAt := if inPack then t else s.pack.keepAt }
        hub := { s.hub with link := .l0, linkAt := t } }
      let s := s.setPState .standby
      let s := if s.pack.formed && gap then s.alignLost 2 else s
      (s.raiseHub 103 (s.aon.wakeSrc.setWidth 32)).judgeCaptured)

end Sys2Proof.Machine
end

