-- ==== Sys2Proof/Machine/Waits.lean ====
section
/-! DEFINITION. Waits and barriers (9.5, Table 10-14): the wait instructions and the rows in which a wait ends. -/

namespace Sys2Proof.Machine

/-- The timeout of a wait instruction: E with X = 1, where 0 means none (R304). -/
def waitTimeoutOf (w : ZWord) : Option Nat := if w.x && w.e != 0 then some w.e.toNat else none

/-- A wait instruction that completes in its own slot with a status. -/
def State.waitNow (s : State) (t : Thr) (status : Nat) : State :=
  (s.modTh t fun h => { h with waited := 0 }).setLast t status

/-- WAIT.TICK (R265, Table 10-14). A target that is not ahead completes at the issue tick. -/
def execWaitTick (t : Thr) (w : ZWord) (s : State) : Host.Outcome State Fault Refusal :=
  .next (s.issueOk t w (legalV w 0x10000) fun s =>
    let n := s.thNow t
    let v := (s.opV t w).toNat
    let rel := bit (f17 w) 16
    let d := if rel then v else (v + 2 ^ 32 - n % 2 ^ 32) % 2 ^ 32
    if !rel && decide (2 ^ 31 ≤ d) then (s.stickTh t stickLate true).waitNow t 0
    else if d = 0 then s.waitNow t 0
    else s.beginWait t (.tick (n + d) rel) none (some (n + d)))

/-- WAIT.TRIG (Table 9-11). -/
def execWaitTrig (t : Thr) (w : ZWord) (s : State) : Host.Outcome State Fault Refusal :=
  .next (s.issueOk t w (legalF w true true false 0x1F) fun s =>
    s.beginWait t (.trig ((f17 w).extractLsb' 0 5) w.rd) (waitTimeoutOf w) none)

/-- WAIT.EVT (Table 9-11): bits already set count. -/
def execWaitEvt (t : Thr) (w : ZWord) (s : State) : Host.Outcome State Fault Refusal :=
  .next (s.issueOk t w (legalWaitEvt w) fun s =>
    let m := s.g t w.ra
    let e := (s.th t).evt &&& m
    if e != 0 then (s.setG t w.rd e).waitNow t 0
    else s.beginWait t (.evt m w.rd) (waitTimeoutOf w) none)

/-- The condition of a wait with completion tick c comes no later than its timeout (R264). -/
def Wait.inTime (w : Wait) (c : Nat) : Bool :=
  match w.timeout with
  | some n => decide (c ≤ w.issued + n)
  | none => true

/-- WAIT_TICK_DONE: the target tick is reached (R264). -/
def execWaitTickDone (t : Thr) (s : State) : Host.Outcome State Fault Refusal :=
  .next (match (s.th t).wait with
    | some w => match w.kind with
      | .tick c _ => s.dueAt (dieOfCl t.cl) c fun s => (s.endWait t w c).setLast t 0
      | _ => s
    | none => s)

/-- WAIT_TRIG_DONE: an edge has arrived one tick before the completion tick; RD takes the arrival tick (Table 10-14). -/
def execWaitTrigDone (t : Thr) (s : State) : Host.Outcome State Fault Refusal :=
  .next (match (s.th t).wait with
    | some w => match w.kind, w.hit with
      | .trig _ rd, some c =>
        if w.inTime c then
          s.dueAt (dieOfCl t.cl) c fun s => ((s.endWait t w c).setG t rd (wd (c - 1))).setLast t 0
        else s
      | _, _ => s
    | none => s)

/-- WAIT_EVT_DONE: a masked bit has set; RD takes s.evt AND mask at completion (Table 10-14). -/
def execWaitEvtDone (tk : Nat) (t : Thr) (s : State) : Host.Outcome State Fault Refusal :=
  .next (s.eventAt tk fun s =>
    match (s.th t).wait with
    | some w => match w.kind, w.hit with
      | .evt m rd, some c =>
        if w.inTime c then
          let s := s.advanceDie (dieOfCl t.cl) c
          ((s.endWait t w c).setG t rd ((s.th t).evt &&& m)).setLast t 0
        else s
      | _, _ => s
    | none => s)

/-- The timeout of a wait may end it: its condition has not come in time, and for SYNC the last arrival is still to come
(R264, R266). -/
def State.mayTimeOut (s : State) (w : Wait) : Bool :=
  match w.kind with
  | .sync b _ => (s.bar b).release.isNone
  | _ => match w.hit with
    | some c => !w.inTime c
    | none => true

/-- WAIT_TIMEOUT: the wait ends with TIMEOUT (R264, Table 10-14). -/
def execWaitTimeout (t : Thr) (s : State) : Host.Outcome State Fault Refusal :=
  .next (match (s.th t).wait with
    | some w => match w.timeout with
      | some n =>
        if s.mayTimeOut w then
          s.dueAt (dieOfCl t.cl) (w.issued + n) fun s =>
            let s := (s.dropWait t).endWait t w (w.issued + n)
            let s := match w.kind with
              | .evt _ rd => s.setG t rd 0
              | _ => s
            s.setLast t 0x28
        else s
      | none => s
    | none => s)

/-! ## Barriers -/

/-- Threads that may wait at a barrier. -/
def barThreads : BarRef → List Thr
  | .cluster n _ => thrsOf n
  | .package _ => (List.finRange 12).map t8

/-- The die of a barrier's release tick: the cluster's own, or that of the first member cluster. -/
def State.barDie (s : State) : BarRef → Die
  | .cluster n _ => dieOfCl n
  | .package i => if (s.bars.get i).mask &&& 0x3F = 0 then 1 else 0

/-- L of R266. -/
def barDelay (mask : BitVec 12) : BarRef → Nat
  | .cluster _ _ => 1
  | .package _ => if mask &&& 0x3F = 0 ∨ mask &&& 0xFC0 = 0 then 2 else 10

/-- A barrier releases at tick r: each member that still waits completes OK with r in its pair, and the barrier is empty
(R266, R267). -/
def State.releaseBar (s : State) (b : BarRef) (r : Nat) : State :=
  let s := s.modBar b fun _ => .empty
  s.each (barThreads b) fun t s => match (s.th t).wait with
    | some w => match w.kind with
      | .sync x rd =>
        if x = b then
          ((s.endWait t w r).modTh t fun h => h.setPair rd (wd r) (wd (r / 2 ^ 32))).setLast t 0
        else s
      | _ => s
    | none => s

/-- A release whose tick has come. -/
def State.releaseDue (s : State) (b : BarRef) (now : Nat) : State :=
  match (s.bar b).release with
  | some r => if r ≤ now then s.releaseBar b r else s
  | none => s

/-- SYNC at barrier b with a mask (R266, R267). -/
def State.sync (s : State) (t : Thr) (w : ZWord) (b : BarRef) (mask : BitVec 12) : State :=
  let n := s.thNow t
  let s := s.releaseDue b n
  let r := s.bar b
  let me := barBit t b
  let ctx := s.groupOwner (chsOfCl t.cl)
  let denied := match b with
    | .package _ => (List.finRange 12).any fun i => bit mask i.1 && !s.ownsAll ctx (chsOfCl i)
    | _ => false
  if mask &&& me = 0 then s.waitNow t 0x29
  else if denied then s.waitNow t 0x2A
  else if r.arrived ≠ 0 ∧ r.mask ≠ mask then s.waitNow t 0x2B
  else
    let a := r.arrived ||| me
    let rel := if a = mask then some (n + barDelay mask b) else none
    (s.modBar b fun _ => { mask := mask, arrived := a, release := rel }).beginWait t (.sync b w.rd) (waitTimeoutOf w) none

/-- NUM of SYNC at a cluster barrier. -/
def fBar4 (w : ZWord) : Fin 4 := ⟨ff w 13 2, by unfold ff fld; omega⟩
/-- NUM of SYNC at a package barrier. -/
def fBar8 (w : ZWord) : Fin 8 := ⟨ff w 13 3, by unfold ff fld; omega⟩

/-- SYNC at a cluster barrier (R266). -/
def execSyncCluster (t : Thr) (w : ZWord) (s : State) : Host.Outcome State Fault Refusal :=
  .next (s.issueOk t w (legalSync false w) fun s => s.sync t w (.cluster t.cl (fBar4 w)) (BitVec.ofNat 12 (ff w 0 9)))

/-- SYNC at a package barrier (R266): a tk faults with NO_CHAN (R267). -/
def execSyncPackage (t : Thr) (w : ZWord) (s : State) : Host.Outcome State Fault Refusal :=
  .next (s.issue t w (legalSync true w) false fun s =>
    if t.k == 8 then .ok (s.sync t w (.package (fBar8 w)) (BitVec.ofNat 12 (ff w 0 12))) else .error causeNoChan)

/-- SYNC_RELEASE: the release tick comes (R266). -/
def execSyncRelease (b : BarRef) (s : State) : Host.Outcome State Fault Refusal :=
  .next (match (s.bar b).release with
    | some r => s.dueAt (s.barDie b) r fun s => s.releaseBar b r
    | none => s)

end Sys2Proof.Machine
end

