-- ==== Sys2Proof/Machine/Dispatch.lean ====
section
/-! DEFINITION. One arm per command, each one direct call of the command's meaning. -/

namespace Sys2Proof.Machine

/-- A command's effect on everything but the queue. -/
def exec (i : Instr) (s : State) : Host.Outcome State Fault Refusal :=
  match i with
  | .jmp t w => Sys2Proof.Machine.execJmp t w s
  | .brCond t w => Sys2Proof.Machine.execBrCond t w s
  | .call t w => Sys2Proof.Machine.execCall t w s
  | .ret t w => Sys2Proof.Machine.execRet t w s
  | .loop t w => Sys2Proof.Machine.execLoop t w s
  | .add t w => Sys2Proof.Machine.execAdd t w s
  | .sub t w => Sys2Proof.Machine.execSub t w s
  | .mul t w => Sys2Proof.Machine.execMul t w s
  | .shl t w => Sys2Proof.Machine.execShl t w s
  | .shr t w => Sys2Proof.Machine.execShr t w s
  | .and t w => Sys2Proof.Machine.execAnd t w s
  | .or t w => Sys2Proof.Machine.execOr t w s
  | .xor t w => Sys2Proof.Machine.execXor t w s
  | .min t w => Sys2Proof.Machine.execMin t w s
  | .max t w => Sys2Proof.Machine.execMax t w s
  | .sat t w => Sys2Proof.Machine.execSat t w s
  | .mov t w => Sys2Proof.Machine.execMov t w s
  | .ldi t w => Sys2Proof.Machine.execLdi t w s
  | .ld t w => Sys2Proof.Machine.execLd t w s
  | .st t w => Sys2Proof.Machine.execSt t w s
  | .movs t w => Sys2Proof.Machine.execMovs t w s
  | .movd t w => Sys2Proof.Machine.execMovd t w s
  | .evt t w => Sys2Proof.Machine.execEvt t w s
  | .emit t w => Sys2Proof.Machine.execEmit t w s
  | .emitCreditAvailable tk t => Sys2Proof.Machine.execEmitCreditAvailable tk t s
  | .mode t w => Sys2Proof.Machine.execMode t w s
  | .forceSetpoint t w => Sys2Proof.Machine.execForceSetpoint t w s
  | .forceBase t w => Sys2Proof.Machine.execForceBase t w s
  | .forceParkcode t w => Sys2Proof.Machine.execForceParkcode t w s
  | .forceClearcode t w => Sys2Proof.Machine.execForceClearcode t w s
  | .forceList t w => Sys2Proof.Machine.execForceList t w s
  | .limit t w => Sys2Proof.Machine.execLimit t w s
  | .range t w => Sys2Proof.Machine.execRange t w s
  | .law t w => Sys2Proof.Machine.execLaw t w s
  | .coef t w => Sys2Proof.Machine.execCoef t w s
  | .openLoop t w => Sys2Proof.Machine.execOpenLoop t w s
  | .closeLoop t w => Sys2Proof.Machine.execCloseLoop t w s
  | .heel t w => Sys2Proof.Machine.execHeel t w s
  | .park t w => Sys2Proof.Machine.execPark t w s
  | .tripclr t w => Sys2Proof.Machine.execTripclr t w s
  | .blank t w => Sys2Proof.Machine.execBlank t w s
  | .seq t w => Sys2Proof.Machine.execSeq t w s
  | .inj t w => Sys2Proof.Machine.execInj t w s
  | .avg t w => Sys2Proof.Machine.execAvg t w s
  | .read t w => Sys2Proof.Machine.execRead t w s
  | .seg t w => Sys2Proof.Machine.execSeg t w s
  | .jump t w => Sys2Proof.Machine.execJump t w s
  | .rate t w => Sys2Proof.Machine.execRate t w s
  | .mark t w => Sys2Proof.Machine.execMark t w s
  | .arm t w => Sys2Proof.Machine.execArm t w s
  | .armOff t w => Sys2Proof.Machine.execArmOff t w s
  | .stay t w => Sys2Proof.Machine.execStay t w s
  | .recSet t w => Sys2Proof.Machine.execRecSet t w s
  | .strm t w => Sys2Proof.Machine.execStrm t w s
  | .waitTick t w => Sys2Proof.Machine.execWaitTick t w s
  | .waitTickDone t => Sys2Proof.Machine.execWaitTickDone t s
  | .waitTrig t w => Sys2Proof.Machine.execWaitTrig t w s
  | .waitTrigDone t => Sys2Proof.Machine.execWaitTrigDone t s
  | .waitEvt t w => Sys2Proof.Machine.execWaitEvt t w s
  | .waitEvtDone tk t => Sys2Proof.Machine.execWaitEvtDone tk t s
  | .waitTimeout t => Sys2Proof.Machine.execWaitTimeout t s
  | .syncCluster t w => Sys2Proof.Machine.execSyncCluster t w s
  | .syncPackage t w => Sys2Proof.Machine.execSyncPackage t w s
  | .syncRelease b => Sys2Proof.Machine.execSyncRelease b s
  | .cal t w => Sys2Proof.Machine.execCal t w s
  | .calRes t w => Sys2Proof.Machine.execCalRes t w s
  | .calgap t w => Sys2Proof.Machine.execCalgap t w s
  | .syscalZero t w => Sys2Proof.Machine.execSyscalZero t w s
  | .syscalFull t w => Sys2Proof.Machine.execSyscalFull t w s
  | .syscalApply t w => Sys2Proof.Machine.execSyscalApply t w s
  | .syscalTimeout tk c => Sys2Proof.Machine.execSyscalTimeout tk c s
  | .nop p => Sys2Proof.Machine.execNop p s
  | .ringCreate p => Sys2Proof.Machine.execRingCreate p s
  | .ringDestroy p => Sys2Proof.Machine.execRingDestroy p s
  | .ringQuery p => Sys2Proof.Machine.execRingQuery p s
  | .load p => Sys2Proof.Machine.execLoad p s
  | .start p => Sys2Proof.Machine.execStart p s
  | .stop p => Sys2Proof.Machine.execStop p s
  | .poke p => Sys2Proof.Machine.execPoke p s
  | .memrd p => Sys2Proof.Machine.execMemrd p s
  | .chcmd p => Sys2Proof.Machine.execChcmd p s
  | .results p => Sys2Proof.Machine.execResults p s
  | .readout p => Sys2Proof.Machine.execReadout p s
  | .refAssign p => Sys2Proof.Machine.execRefAssign p s
  | .pairReinstall p => Sys2Proof.Machine.execPairReinstall p s
  | .sznReport p => Sys2Proof.Machine.execSznReport p s
  | .remap p => Sys2Proof.Machine.execRemap p s
  | .fwLoad p => Sys2Proof.Machine.execFwLoad p s
  | .fwActivate p => Sys2Proof.Machine.execFwActivate p s
  | .fwSwitch tk => Sys2Proof.Machine.execFwSwitch tk s
  | .fwActivated tk => Sys2Proof.Machine.execFwActivated tk s
  | .fwReverted tk => Sys2Proof.Machine.execFwReverted tk s
  | .pwrStateDeepSleep p => Sys2Proof.Machine.execPwrStateDeepSleep p s
  | .pwrStateStandby p => Sys2Proof.Machine.execPwrStateStandby p s
  | .regionPwrUp p => Sys2Proof.Machine.execRegionPwrUp p s
  | .regionPwrDown p => Sys2Proof.Machine.execRegionPwrDown p s
  | .regionUp tk r unres act => Sys2Proof.Machine.execRegionUp tk r unres act s
  | .regionDown tk r => Sys2Proof.Machine.execRegionDown tk r s
  | .sclkSet p => Sys2Proof.Machine.execSclkSet p s
  | .sclkLocked tk r => Sys2Proof.Machine.execSclkLocked tk r s
  | .chReset p => Sys2Proof.Machine.execChReset p s
  | .wakeAt p => Sys2Proof.Machine.execWakeAt p s
  | .idGet p => Sys2Proof.Machine.execIdGet p s
  | .quote p => Sys2Proof.Machine.execQuote p s
  | .checkpoint p => Sys2Proof.Machine.execCheckpoint p s
  | .pedRead p => Sys2Proof.Machine.execPedRead p s
  | .pedCfg p => Sys2Proof.Machine.execPedCfg p s
  | .ctxOpen p => Sys2Proof.Machine.execCtxOpen p s
  | .ctxMove p => Sys2Proof.Machine.execCtxMove p s
  | .ctxClose p => Sys2Proof.Machine.execCtxClose p s
  | .svnCommit p => Sys2Proof.Machine.execSvnCommit p s
  | .provisionXref p => Sys2Proof.Machine.execProvisionXref p s
  | .provisionSsid p => Sys2Proof.Machine.execProvisionSsid p s
  | .provisionMemorg p => Sys2Proof.Machine.execProvisionMemorg p s
  | .ringService tk k r ps => Sys2Proof.Machine.execRingService tk k r ps s
  | .fenceRelease tk k r => Sys2Proof.Machine.execFenceRelease tk k r s
  | .descriptorFetch tk k r ue => Sys2Proof.Machine.execDescriptorFetch tk k r ue s
  | .completionWrite tk k r => Sys2Proof.Machine.execCompletionWrite tk k r s
  | .msixModerationTimeout tk k r => Sys2Proof.Machine.execMsixModerationTimeout tk k r s
  | .doorbellSqTail tk k d => Sys2Proof.Machine.execDoorbellSqTail tk k d s
  | .doorbellCqHead tk k d => Sys2Proof.Machine.execDoorbellCqHead tk k d s
  | .registerWrite tk k w => Sys2Proof.Machine.execRegisterWrite tk k w s
  | .crCtlEnable tk k fresh disable posted => Sys2Proof.Machine.execCrCtlEnable tk k fresh disable posted s
  | .crCtlDisable tk k => Sys2Proof.Machine.execCrCtlDisable tk k s
  | .swreset tk k key => Sys2Proof.Machine.execSwreset tk k key s
  | .regDirectWrite tk off => Sys2Proof.Machine.execRegDirectWrite tk off s
  | .msixTableWrite tk off data => Sys2Proof.Machine.execMsixTableWrite tk off data s
  | .resultReadLow tk c r => Sys2Proof.Machine.execResultReadLow tk c r s
  | .resultReadHigh tk c r => Sys2Proof.Machine.execResultReadHigh tk c r s
  | .rcFieldRead tk f => Sys2Proof.Machine.execRcFieldRead tk f s
  | .probe tk k => Sys2Proof.Machine.execProbe tk k s
  | .probeReturn tk rtt => Sys2Proof.Machine.execProbeReturn tk rtt s
  | .form tk k => Sys2Proof.Machine.execForm tk k s
  | .originPulse tk => Sys2Proof.Machine.execOriginPulse tk s
  | .formTimeout tk => Sys2Proof.Machine.execFormTimeout tk s
  | .retrain tk k => Sys2Proof.Machine.execRetrain tk k s
  | .retrainStart tk => Sys2Proof.Machine.execRetrainStart tk s
  | .evstatPendClear tk k n => Sys2Proof.Machine.execEvstatPendClear tk k n s
  | .pmD3hot tk => Sys2Proof.Machine.execPmD3hot tk s
  | .l1Entry tk => Sys2Proof.Machine.execL1Entry tk s
  | .deepSleepEntry tk => Sys2Proof.Machine.execDeepSleepEntry tk s
  | .clkreqWake tk => Sys2Proof.Machine.execClkreqWake tk s
  | .wakeAtExpiry tk => Sys2Proof.Machine.execWakeAtExpiry tk s
  | .wake tk us pulses gap => Sys2Proof.Machine.execWake tk us pulses gap s
  | .perstNAssert tk straps test => Sys2Proof.Machine.execPerstNAssert tk straps test s
  | .resetNAssert tk ns straps test => Sys2Proof.Machine.execResetNAssert tk ns straps test s
  | .hubBoot tk cause => Sys2Proof.Machine.execHubBoot tk cause s
  | .refclkLost tk => Sys2Proof.Machine.execRefclkLost tk s
  | .supplyFall tk u => Sys2Proof.Machine.execSupplyFall tk u s
  | .supplyRise tk u => Sys2Proof.Machine.execSupplyRise tk u s
  | .vddAonRise tk => Sys2Proof.Machine.execVddAonRise tk s
  | .thermalSample tk r temp => Sys2Proof.Machine.execThermalSample tk r temp s
  | .clrNFall tk ns => Sys2Proof.Machine.execClrNFall tk ns s
  | .clrOverrideEnd tk c => Sys2Proof.Machine.execClrOverrideEnd tk c s
  | .trgEdge tk pin rising fast => Sys2Proof.Machine.execTrgEdge tk pin rising fast s
  | .triggerLineEdge tk cl line level te => Sys2Proof.Machine.execTriggerLineEdge tk cl line level te s
  | .quietStartupEnd tk c v => Sys2Proof.Machine.execQuietStartupEnd tk c v s
  | .packTriggerDrive tk n => Sys2Proof.Machine.execPackTriggerDrive tk n s
  | .packTriggerLanding tk n => Sys2Proof.Machine.execPackTriggerLanding tk n s
  | .packKeepPulse tk => Sys2Proof.Machine.execPackKeepPulse tk s
  | .keepPulseMissing tk => Sys2Proof.Machine.execKeepPulseMissing tk s
  | .packClkLost tk => Sys2Proof.Machine.execPackClkLost tk s
  | .loopPeriodBoundary c => Sys2Proof.Machine.execLoopPeriodBoundary c s
  | .loopCompute c => Sys2Proof.Machine.execLoopCompute c s
  | .dacUpdate tk c => Sys2Proof.Machine.execDacUpdate tk c s
  | .deglitchHoldEnd c => Sys2Proof.Machine.execDeglitchHoldEnd c s
  | .outTypeChangeoverEnd c => Sys2Proof.Machine.execOutTypeChangeoverEnd c s
  | .rangeMake c => Sys2Proof.Machine.execRangeMake c s
  | .rangeBreak c => Sys2Proof.Machine.execRangeBreak c s
  | .rangeRelease c => Sys2Proof.Machine.execRangeRelease c s
  | .drainComplete c => Sys2Proof.Machine.execDrainComplete c s
  | .comparatorActive tk c m => Sys2Proof.Machine.execComparatorActive tk c m s
  | .enterTripped tk c => Sys2Proof.Machine.execEnterTripped tk c s
  | .blankingWindowEnd c win => Sys2Proof.Machine.execBlankingWindowEnd c win s
  | .pulseEdge tk c => Sys2Proof.Machine.execPulseEdge tk c s
  | .clusterTimerExpiry cl n => Sys2Proof.Machine.execClusterTimerExpiry cl n s
  | .sampleDelivered ts c v code => Sys2Proof.Machine.execSampleDelivered ts c v code s
  | .injSequenceBegin tk c v => Sys2Proof.Machine.execInjSequenceBegin tk c v s
  | .seqTakesEffect tk c v => Sys2Proof.Machine.execSeqTakesEffect tk c v s
  | .recordEnd tk c => Sys2Proof.Machine.execRecordEnd tk c s
  | .recordFinalize tk c => Sys2Proof.Machine.execRecordFinalize tk c s
  | .chunkEnd tk c => Sys2Proof.Machine.execChunkEnd tk c s
  | .markSpanClose tk c => Sys2Proof.Machine.execMarkSpanClose tk c s
  | .sideRoomReturn tk c => Sys2Proof.Machine.execSideRoomReturn tk c s
  | .generatorStart tk c => Sys2Proof.Machine.execGeneratorStart tk c s
  | .generatorSample c => Sys2Proof.Machine.execGeneratorSample c s
  | .fetchBlockArrival tk c next block => Sys2Proof.Machine.execFetchBlockArrival tk c next block s
  | .markerEdge tk c m1 level => Sys2Proof.Machine.execMarkerEdge tk c m1 level s
  | .calStepStart tk r => Sys2Proof.Machine.execCalStepStart tk r s
  | .calStepEnd tk r m => Sys2Proof.Machine.execCalStepEnd tk r m s
  | .calAck tk c => Sys2Proof.Machine.execCalAck tk c s
  | .calTimeout tk c => Sys2Proof.Machine.execCalTimeout tk c s
  | .seasoningCycleStart tk r => Sys2Proof.Machine.execSeasoningCycleStart tk r s
  | .seasoningCycleEnd tk r => Sys2Proof.Machine.execSeasoningCycleEnd tk r s
  | .sampleClockLost tk r power => Sys2Proof.Machine.execSampleClockLost tk r power s
  | .sampleClockReturn tk r => Sys2Proof.Machine.execSampleClockReturn tk r s
  | .refFault tk r => Sys2Proof.Machine.execRefFault tk r s
  | .tickCheck tk => Sys2Proof.Machine.execTickCheck tk s
  | .dieLinkCrcFail tk d => Sys2Proof.Machine.execDieLinkCrcFail tk d s
  | .dieLinkDown tk d => Sys2Proof.Machine.execDieLinkDown tk d s
  | .dieClockLost tk d => Sys2Proof.Machine.execDieClockLost tk d s
  | .dieLinkReturn tk d => Sys2Proof.Machine.execDieLinkReturn tk d s
  | .clusterHalt tk cl cause => Sys2Proof.Machine.execClusterHalt tk cl cause s
  | .queueIntegrity tk q second => Sys2Proof.Machine.execQueueIntegrity tk q second s
  | .coalesceWindowEnd tk n => Sys2Proof.Machine.execCoalesceWindowEnd tk n s
  | .heldPacketRelease tk n => Sys2Proof.Machine.execHeldPacketRelease tk n s
  | .trainingComplete tk eyes => Sys2Proof.Machine.execTrainingComplete tk eyes s
  | .refreshDue tk rank busy waiting => Sys2Proof.Machine.execRefreshDue tk rank busy waiting s
  | .mr4RateChange tk sub hot => Sys2Proof.Machine.execMr4RateChange tk sub hot s
  | .patrolScrub tk res => Sys2Proof.Machine.execPatrolScrub tk res s
  | .ddrClockStop tk => Sys2Proof.Machine.execDdrClockStop tk s
  | .pedigreeAppend tk => Sys2Proof.Machine.execPedigreeAppend tk s
  | .signingComplete tk => Sys2Proof.Machine.execSigningComplete tk s
  | .hubFault tk cause => Sys2Proof.Machine.execHubFault tk cause s
  | .comparatorInactive tk c m => Sys2Proof.Machine.execComparatorInactive tk c m s
  | .dieCorePllLock tk d phases => Sys2Proof.Machine.execDieCorePllLock tk d phases s
  | .d0Entry tk => Sys2Proof.Machine.execD0Entry tk s

end Sys2Proof.Machine
end

