-- ==== Sys2Proof/Machine/Lathe.lean ====
section
/-! DEFINITION. What the block does while no command waits: one tick of the core clocks, in which the Lathe of each cluster
issues the instruction of the thread whose slot the tick is, from its instruction SRAM (R245-R247, R254, R277; log 2). Every other
effect of time has a row of its own. -/

namespace Sys2Proof.Machine

/-- The thread whose slot the present tick of a cluster's die is (R245). -/
def State.slotThr (s : State) (n : Cl) : Thr :=
  ⟨n, ⟨(s.dt (dieOfCl n) + 18 - (s.cl n).phase.1) % 9, Nat.mod_lt _ (by omega)⟩⟩

/-- The word and the word after it at the program counter of a thread. -/
def State.fetchZ (s : State) (t : Thr) : Word × Word :=
  let m := (s.cl t.cl).imem
  let a := 4 * (s.th t).pc
  (memWord m a, memWord m (a + 4))

/-- The slot of a cluster in the present tick: a Running thread issues what its program counter names; a reserved opcode or selector
faults with BAD_OPCODE (R277). No slot passes while the region or the die's core clock is off. -/
def State.latheSlot (s : State) (n : Cl) : Host.Outcome State Fault Refusal :=
  let t := s.slotThr n
  if (s.rg (rgOfCl n)).on && (s.die.get (dieOfCl n)).clkOk && (s.th t).st == .running && decide ((s.th t).ready ≤ s.thNow t) then
    let w := s.fetchZ t
    match zheve t w.1 w.2 with
    | some i => exec i s
    | none => .next (s.issueOk t (zword w.1 w.2) false id)
  else .next s

/-- The slots of a list of clusters, one after the other. -/
def latheSlots : List Cl → State → Host.Outcome State Fault Refusal
  | [], s => .next s
  | n :: l, s =>
    match s.latheSlot n with
    | .next s' => latheSlots l s'
    | .fault r => .fault r
    | .refused r => .refused r

/-- One tick of the core clocks with no command. In Deep sleep no count runs and nothing issues (R475). -/
def State.idleTick (s : State) : Host.Outcome State Fault Refusal :=
  if s.aon.pstate = .deepSleep then .next s else latheSlots (List.finRange 12) (s.advance (s.tick + 1))

end Sys2Proof.Machine
end

