-- ==== Sys2Proof/Safety.lean ====
section
/-! DEFINITION. What counts as a safe run, in the terms of the claims: the machine never stops, and a state in which the
fixed facts of the manual hold. -/

namespace Sys2Proof.Safety

open Sys2Proof.Machine

/-- A step that answers a next state. -/
def StepsOn (s : State) : Prop := ∃ t, step s = .next t

end Sys2Proof.Safety

namespace Sys2Proof.Machine

/-- A state without time, the package power state and what the event fabric moves (16.2): event sources, ring indexes, packets and
messages sent to the host or waiting to be sent. `u.bare = v.bare` says that u and v hold the same in everything else: every
channel, thread, cluster, region, memory and register of the part. -/
def State.bare (s : State) : State :=
  { s with
    tick := 0, dieTick := Vector.replicate 2 0, rings := [], cqWait := [], hostOut := [], msixSent := [], tailWb := []
    ev := Vector.replicate 1024 .reset, evSeq := Vector.replicate 64 0, evLost := 0, pba := 0
    hub := { s.hub with pme := false, link := .l0, linkAt := 0 }, aon := { s.aon with pstate := .standby } }

/-- An integer outside the signed 32-bit range. -/
def outS32 (x : Int) : Bool := decide (x < -2 ^ 31) || decide (2 ^ 31 ≤ x)

/-- Thread t can issue the word w of row i: it is Running, the word lies in instruction memory (R254) and breaks no rule of R277,
and a row that Table 10-21 marks tk is not t8's (R281). -/
def State.issues (s : State) (i : Instr) (t : Thr) (w : ZWord) : Prop :=
  (s.th t).st = .running ∧ (s.th t).pc + 1 + b1 w.x ≤ 16384 ∧ zlegal i = true ∧ (tkOnly i = true → t.k ≠ 8)

/-- The state in which the word that a Running thread issues next acts: its issue tick has come (R245, R247) and PC names the next
sequential instruction. -/
def State.atIssue (s : State) (t : Thr) (w : ZWord) : State :=
  let s := s.advanceDie (dieOfCl t.cl) (s.nextIssue t)
  s.modTh t fun h => { h with pc := h.pc + 1 + b1 w.x, ready := s.thNow t + 1 }

/-- Row i of thread t completes and moves, beside time and the event fabric, that thread alone: f says what becomes of the thread
once PC names the next sequential instruction. `ready`, the model's own note of the next issue tick, is not compared. -/
def State.runsTo (s : State) (i : Instr) (t : Thr) (w : ZWord) (f : Thread → Thread) : Prop :=
  ∃ u, exec i s = .next u ∧
    u.bare = (s.modTh t fun h => { f { h with pc := h.pc + 1 + b1 w.x } with ready := (u.th t).ready }).bare

/-- Row i, a channel instruction of thread t, completes: LAST takes the status, and what else it does to the state at its issue tick is
g, time and the event fabric apart. -/
def State.chRow (s : State) (i : Instr) (t : Thr) (w : ZWord) (status : Byte) (g : State → State) : Prop :=
  ∃ u, exec i s = .next u ∧ u.bare = ((g (s.atIssue t w)).modTh t fun h => { h with last := status }).bare

/-- Row i completes in a state that P describes. -/
def State.ends (s : State) (i : Instr) (P : State → Prop) : Prop := ∃ u, exec i s = .next u ∧ P u

/-- Nothing but channel c differs, time and the event fabric apart. -/
def State.onlyCh (s : State) (c : Ch) (u : State) : Prop := u.bare = (s.modCh c fun _ => u.ch c).bare

/-- Row i completes: beside time and the event fabric, the state is g of the state at its tick. -/
def State.turns (s : State) (i : Instr) (tk : Nat) (g : State → State) : Prop :=
  ∃ u, exec i s = .next u ∧ u.bare = (g (s.advance tk)).bare

/-- From address a on the bytes l stand in m', and every other byte reads as in m. -/
def putBytes (m m' : Memory) (a : Nat) (l : List Byte) : Prop :=
  ∀ b, memByte m' b = if a ≤ b ∧ b < a + l.length then l.getD (b - a) 0 else memByte m b

/-! ## Packets -/

/-- `bare`, and without the items under way and the pages whose closing waits for them. -/
def State.apart (s : State) : State :=
  { s.bare with items := [], journal := [], ctxs := s.ctxs.map fun k => { k with isOpen := false } }

/-- The packet is an accepted item of its type that executes now: it has not begun, no fence and no earlier item of its destination holds
it back (R382), its ring is not in Recap, and the die of its destination is there (R395). -/
def State.ripe (s : State) (p : Pkt) (type : Byte) : Prop :=
  s.isItem p = true ∧ (s.journal.any fun j => j.ctx == p.ctx && j.ring == p.ring && j.hdr == p.hdr) = true ∧ p.hdr.type = type
    ∧ s.stage p = 0 ∧ s.mustWait p = false ∧ (s.ring p.ctx p.ring).st ≠ .recap ∧ ∀ d, pktDie p.hdr = some d → s.dieLost d = false

/-- From s to u the part has given packet p its one completion: written to the host or waiting for room (R370, R381). -/
def State.completed (s u : State) (p : Pkt) (status code : Byte) (res0 : Word) (res1 : DWord) (pay : List Byte) : Prop :=
  u.items.length < s.items.length ∧ ∃ l m, u.hostOut = l ++ s.hostOut ∧ u.cqWait = s.cqWait ++ m ∧ ∃ o ∈ l ++ m,
    { o with limit := 0 } = { OutPkt.blank p.ctx p.ring 0x80 with
      status := status, seq := p.hdr.seq, tag := p.hdr.tag, code := code, ptype := p.hdr.type, res0 := res0, res1 := res1, pay := pay }

/-- Row i of packet p completes with this status, code, results and payload, and P describes the state after it. -/
def State.answers (s : State) (i : Instr) (p : Pkt) (status code : Byte) (res0 : Word) (res1 : DWord) (pay : List Byte)
    (P : State → Prop) : Prop :=
  ∃ u, exec i s = .next u ∧ s.completed u p status code res0 res1 pay ∧ P u

/-- u is g of the state at tick tk, time, the event fabric, the items and their pages apart. -/
def State.became (s : State) (tk : Nat) (g : State → State) (u : State) : Prop := u.apart = (g (s.advance tk)).apart

/-- Every byte of memory is in canonical form: acquisition memory, the SRAMs of every cluster, the MSI-X Table and both firmware slots. -/
def State.memOk (s : State) : Prop :=
  Memory.wf s.acq = true ∧ Memory.wf s.msixTbl = true ∧ Memory.wf s.fw.imgA = true ∧ Memory.wf s.fw.imgB = true
    ∧ ∀ n, Memory.wf (s.cl n).imem = true ∧ Memory.wf (s.cl n).dmem = true ∧ Memory.wf (s.cl n).tmem = true

/-- In every cluster each thread has a physical channel of its own (R354). -/
def State.mapOk (s : State) : Prop := ∀ n : Cl, (s.aon.remap.get n).toList.Nodup

/-! ## Faults, resets and rest -/

/-- The power state has nothing to follow (R472). -/
def State.settled (s : State) : Prop := s.settle = s

/-- The threads that f picks have halted or stand still, and every powered channel that g picks is in stimulus freeze (R13). -/
def State.halted (u : State) (f : Thr → Prop) (g : Ch → Prop) : Prop :=
  (∀ t, f t → (u.th t).busy = false) ∧ ∀ c, g c → (u.ch c).st ≠ .off → (u.ch c).frozen = true

/-- A channel drains where it was in Heel, Run or Held, and else stays as it was (T8). -/
def State.drains (s u : State) : Prop := ∀ c, (s.ch c).trip.pend = false →
  (u.ch c).st = if (s.ch c).st = .heel ∨ (s.ch c).st = .run ∨ (s.ch c).st = .held then .draining else (s.ch c).st

/-- What every package reset leaves (Table 19-9, R377, R398): the hub down until its boot with this cause, threads Idle, no item, event
sources and hub registers at reset, Open and Draining rings in Recap, and the SRAMs of the clusters as they were. -/
def State.afterReset (s u : State) (cause : Fin 5) : Prop :=
  u.hub.ready = false ∧ u.hub.recovery = false ∧ u.hub.fault = false ∧ u.hub.bootCause = cause ∧ u.items = [] ∧ u.cqWait = []
    ∧ (∀ n, (u.cl n).thr = Vector.replicate 9 Thread.reset ∧ (u.cl n).imem = (s.cl n).imem ∧ (u.cl n).dmem = (s.cl n).dmem)
    ∧ (∀ n, (u.ev.get n).cfg = 0 ∧ (u.ev.get n).pend = false)
    ∧ u.trgCfg = Vector.replicate 16 0x003202A7 ∧ u.trgCnt = Vector.replicate 16 0 ∧ u.pack = Pack.reset
    ∧ (∀ k r, (u.ring k r).st = match (s.ring k r).st with
      | .opened | .draining => .recap
      | x => x)
    ∧ s.drains u

/-- The log holds a new violation of context k with this cause, value and detail (R393). -/
def State.logged (s u : State) (k : Ctx) (cause : Byte) (value detail : Word) : Prop :=
  u.vlogTotal = min 0xFFFFFFFF (s.vlogTotal + 1) ∧ ∃ e ∈ u.vlog,
    e.cause = cause ∧ e.ctx = .ofNat 7 k.1 ∧ e.value = value ∧ e.detail = detail

end Sys2Proof.Machine
end

