-- ==== Sys2Proof/Certificates/Slice0/Obligations.lean ====
section
/-! DEFINITION. The statements about the model, from the numbered rules of the manual. `bare`, `issues`, `atIssue` and `runsTo` stand
in Sys2Proof/Safety.lean. -/

open Sys2Proof Sys2Proof.Machine

/-! ## The machine -/

/-- Step takes the command at the front of the queue and runs it with the queue's rest (the model's form of a block: log 2). -/
def Obligations.StepRunsTheFrontCommand : Prop :=
  ∀ (c : Instr) (cs : List Instr) (s : State), step { s with pending := c :: cs } = exec c { s with pending := cs }

/-- On an empty queue one tick of the core clocks passes (the model's choice: log 2), in which the Lathe of each cluster in turn issues the
instruction of the thread whose slot the tick is (R245, R246), where its region is on and that thread is Running and free to issue; in Deep
sleep none does. No step of the machine stops. -/
def Obligations.IdleTick : Prop := ∀ (s : State) (n : Cl) (i : Instr), Safety.StepsOn s ∧ (s.pending = [] →
  let s1 := s.advance (s.tick + 1)
  let slot := fun (n : Cl) => (s.rg (rgOfCl n)).on = true ∧ (s.die.get (dieOfCl n)).clkOk = true
    ∧ (s.th (s1.slotThr n)).st = .running ∧ (s.th (s1.slotThr n)).ready ≤ s1.dt (dieOfCl n)
  let t := s1.slotThr n
  let a := 4 * (s.th t).pc
  (s.aon.pstate = .deepSleep → step s = .next s)
  ∧ (s.aon.pstate ≠ .deepSleep → (∀ m, ¬ slot m) → step s = .next s1)
  ∧ (s.aon.pstate ≠ .deepSleep → (∀ m, m < n → ¬ slot m) → slot n → zheve t (memWord (s.cl n).imem a) (memWord (s.cl n).imem (a + 4)) = some i →
      ∃ u, exec i s1 = .next u ∧ step s = latheSlots ((List.finRange 12).drop (n.1 + 1)) u))

/-! ## Threads -/

/-- R285 with Table 10-5: the result, modulo 2^32, and OVF of the ten three-operand rows; nothing else of the thread but PC moves. -/
def Obligations.ArithmeticResults : Prop := ∀ (s : State) (t : Thr) (w : ZWord),
  let a := s.g t w.ra
  let b := s.opB t w
  let row := fun (i : Instr) (v : Word) (ovf : Bool) =>
    s.issues i t w → s.runsTo i t w fun h => { h.setG w.rd v with sticky := if ovf then h.sticky ||| 0x10 else h.sticky }
  row (.add t w) (.ofInt 32 (a.toInt + b.toInt)) (outS32 (a.toInt + b.toInt))
  ∧ row (.sub t w) (.ofInt 32 (a.toInt - b.toInt)) (outS32 (a.toInt - b.toInt))
  ∧ row (.mul t w) (.ofInt 32 (a.toInt * b.toInt)) (outS32 (a.toInt * b.toInt))
  ∧ row (.shl t w) (.ofInt 32 (a.toInt * 2 ^ b.toNat)) (outS32 (a.toInt * 2 ^ b.toNat))
  ∧ row (.shr t w) (if bit w.f13 0 then .ofNat 32 (a.toNat / 2 ^ b.toNat) else .ofInt 32 (a.toInt / 2 ^ b.toNat)) false
  ∧ row (.and t w) (.ofNat 32 (a.toNat &&& b.toNat)) false
  ∧ row (.or t w) (.ofNat 32 (a.toNat ||| b.toNat)) false
  ∧ row (.xor t w) (.ofNat 32 (a.toNat ^^^ b.toNat)) false
  ∧ row (.min t w) (if bit w.f13 0 then .ofNat 32 (min a.toNat b.toNat) else .ofInt 32 (min a.toInt b.toInt)) false
  ∧ row (.max t w) (if bit w.f13 0 then .ofNat 32 (max a.toNat b.toNat) else .ofInt 32 (max a.toInt b.toInt)) false

/-- SAT of R285 clamps to the signed or unsigned range of NM1 + 1 bits; MOV and LDI of R286 copy. -/
def Obligations.SatAndMoveResults : Prop := ∀ (s : State) (t : Thr) (w : ZWord),
  let a := (s.g t w.ra).toInt
  let n := fld w.f13 0 5 + 1
  let put := fun (i : Instr) (v : Word) => s.issues i t w → s.runsTo i t w fun h => h.setG w.rd v
  put (.sat t w) (.ofInt 32 (if bit w.f13 5 then max 0 (min a (2 ^ n - 1)) else max (-(2 ^ (n - 1))) (min a (2 ^ (n - 1) - 1))))
  ∧ put (.mov t w) (s.g t w.ra)
  ∧ put (.ldi t w) (if w.x then w.e else .ofInt 32 (sfld (f17 w) 0 17))

/-- R249, R279: g0 reads zero and a write to it is discarded; a write to another register changes that register alone. A word written to a
memory is read back at its address, no other byte moves, and a canonical memory stays canonical. -/
def Obligations.RegistersAndBytes : Prop :=
  (∀ (h : Thread) (r q : BitVec 4) (v : Word), h.gr 0 = 0 ∧ h.setG 0 v = h ∧ (r ≠ 0 → (h.setG r v).gr r = v)
    ∧ (q ≠ r → (h.setG r v).gr q = h.gr q))
  ∧ ∀ (m : Memory) (a b : Nat) (v : Word), memWord (memSetWord m a v) a = v
    ∧ (b < a ∨ a + 4 ≤ b → memByte (memSetWord m a v) b = memByte m b) ∧ (m.wf = true → (memSetWord m a v).wf = true)

/-- R282 to R284 with Tables 10-3 and 10-4: where PC goes, and the return stack. -/
def Obligations.FlowRows : Prop := ∀ (s : State) (t : Thr) (w : ZWord),
  let a := s.g t w.ra
  let h0 := s.th t
  let next := h0.pc + 1
  let target := if bit (f17 w) 16 then a.toNat else ff w 0 14
  let cond := match ff w 14 3 with
    | 0 => a = 0
    | 1 => a ≠ 0
    | 2 => a.toInt < 0
    | 3 => 0 ≤ a.toInt
    | 4 => 0 < a.toInt
    | 5 => a.toInt ≤ 0
    | 6 => h0.last = 0
    | _ => h0.last ≠ 0
  (s.issues (.jmp t w) t w → target < 16384 → s.runsTo (.jmp t w) t w fun h => { h with pc := target })
  ∧ (s.issues (.brCond t w) t w → (cond → s.runsTo (.brCond t w) t w fun h => { h with pc := ff w 0 14 })
      ∧ (¬ cond → s.runsTo (.brCond t w) t w id))
  ∧ (s.issues (.call t w) t w → h0.stack.length < 8 → target < 16384 →
      s.runsTo (.call t w) t w fun h => { h with pc := target, stack := next :: h.stack })
  ∧ (∀ r l, s.issues (.ret t w) t w → h0.stack = r :: l → s.runsTo (.ret t w) t w fun h => { h with pc := r, stack := l })
  ∧ (s.issues (.ret t w) t w → h0.stack = [] → s.runsTo (.ret t w) t w fun h => { h with st := .ended })
  ∧ (s.issues (.loop t w) t w → (a = 0 → s.runsTo (.loop t w) t w id)
      ∧ (a = 1 → s.runsTo (.loop t w) t w fun h => h.setG w.ra 0)
      ∧ (1 < a.toNat → s.runsTo (.loop t w) t w fun h => { h.setG w.ra (a - 1) with pc := ff w 0 14 }))

/-- R286 with Tables 10-6 and 10-7, R137, R306: what the reading rows put into RD. A word of data SRAM comes from the cluster's memory; the
words of the table address space, the special registers, a result register and the outcome word are read at the issue tick. -/
def Obligations.ReadingRows : Prop := ∀ (s : State) (t : Thr) (w : ZWord),
  let s1 := s.atIssue t w
  let a := (s.g t w.ra + if w.x then w.e else .ofInt 32 (sfld (f17 w) 0 17)).toNat
  let sel := ff w 0 3
  (s.issues (.ld t w) t w → a % 4 = 0 →
      (a < 0x8000 → s.runsTo (.ld t w) t w fun h => h.setG w.rd (memWord (s.cl t.cl).dmem a))
      ∧ (0x100000 ≤ a → a < 0x180000 → s.runsTo (.ld t w) t w fun h => h.setG w.rd (s1.readTable t.cl (a - 0x100000))))
  ∧ (s.issues (.movs t w) t w →
      (sel = 0 → s.runsTo (.movs t w) t w fun h =>
        (h.setG w.rd (.ofNat 32 (s1.thNow t))).setG (w.rd + 1) (.ofNat 32 (s1.thNow t / 2 ^ 32)))
      ∧ (sel ≠ 0 → s.runsTo (.movs t w) t w fun h => h.setG w.rd (s1.readSpec t sel).1))
  ∧ (∀ c, thCh t = some c → s.issues (.read t w) t w → s.runsTo (.read t w) t w fun h =>
      (h.setG w.rd ((s.ch c).resReg (ff w 0 6)).res).setG (w.rd + 1) ((s.ch c).resReg (ff w 0 6)).tstamp)
  ∧ (∀ c, thCh t = some c → s.issues (.calRes t w) t w → s.runsTo (.calRes t w) t w fun h => h.setG w.rd (s.ch c).cal.word)

/-- R286, R262 with Table 9-10, R250 with Tables 9-2 and 9-4: what ST and MOVD write. A store to data SRAM or to the slot area of table SRAM
writes the four bytes at its address and nothing else; a store to a control area or the cluster block has the register's own effect. -/
def Obligations.WritingRows : Prop := ∀ (s : State) (t : Thr) (w : ZWord),
  let s1 := s.atIssue t w
  let a := (s.g t w.ra + if w.x then w.e else .ofInt 32 (sfld (f17 w) 0 17)).toNat
  let v := s.g t w.rd
  let o := a - 0x100000
  let sel := ff w 0 3
  let x := s.g t w.ra
  (s.issues (.st t w) t w → a % 4 = 0 →
      (a < 0x1400 ∨ (0x1400 + 0xC00 * t.k.1 ≤ a ∧ a < 0x2000 + 0xC00 * t.k.1) → ∃ u, exec (.st t w) s = .next u ∧
        u.bare = (s1.modCl t.cl fun k => { k with dmem := memSetWord k.dmem a v }).bare)
      ∧ (0x104400 ≤ a → a < 0x110000 → ∃ u, exec (.st t w) s = .next u ∧
        u.bare = (s1.modCl t.cl fun k => { k with tmem := memSetWord k.tmem o v }).bare)
      ∧ (0x100000 + 0x800 * t.k.1 ≤ a → a < 0x100800 + 0x800 * t.k.1 → t.k ≠ 8 → ∃ u, exec (.st t w) s = .next u ∧
        u.bare = (s1.writeTable t.cl o v (s1.thNow t)).bare)
      ∧ (0x104000 ≤ a → a < 0x104400 → t.k = 8 → ∃ u, exec (.st t w) s = .next u ∧
        u.bare = (s1.writeTable t.cl o v (s1.thNow t)).bare))
  ∧ (s.issues (.movd t w) t w →
      (sel = 3 → s.runsTo (.movd t w) t w fun h => { h with sticky := h.sticky &&& ~~~(x &&& 0x1D) })
      ∧ (sel = 6 → s.runsTo (.movd t w) t w fun h => { h with evt := h.evt &&& ~~~x })
      ∧ (sel < 3 → s.runsTo (.movd t w) t w id)
      ∧ (∀ c, thCh t = some c → sel = 4 → ∃ u, exec (.movd t w) s = .next u ∧
        u.bare = (s1.modCh c fun h => { h with rSticky := h.rSticky &&& ~~~(x &&& 0xC000) }).bare)
      ∧ (∀ c, thCh t = some c → sel = 5 → ∃ u, exec (.movd t w) s = .next u ∧
        u.bare = (s1.modCh c fun h => { h with
          convA := { h.convA with drop := fld x 0 16 }, convB := { h.convB with drop := fld x 16 16 } }).bare)
      ∧ (thCh t = none → sel = 4 ∨ sel = 5 → s.runsTo (.movd t w) t w id))

/-- Table 10-18, R312, R388, R33: EVT moves no register and marks its source, while that is enabled and its die link is up; EMIT sends
g(RA) to g(RA+7) while its ring has credit, and else waits; a waiting EMIT is sent when credit has come and the thread runs on. -/
def Obligations.EventRows : Prop := ∀ (s : State) (t : Thr) (w : ZWord) (tk : Nat),
  let s1 := s.atIssue t w
  let n : Src := match thCh t with
    | some c => chSrc c 7
    | none => clSrc t.cl 1
  let tag : Word := (f17 w).setWidth 16 |>.setWidth 32
  let lch := match thCh t with
    | some c => c.1
    | none => 127
  let sent := fun (u : State) (ra : BitVec 4) (tag : Word) => ∃ o ∈ u.hostOut, o.type = 0x85 ∧ some (o.ctx, o.ring) = (s.th t).from_ ∧
    o.tag = tag ∧ o.res0 = .ofNat 32 (256 * lch + 16 * t.k.1 + t.cl.1) ∧
    o.pay = (List.range 8).flatMap fun i => leBytes 4 (s.g t (ra + .ofNat 4 i)).toNat
  (s.issues (.evt t w) t w → s.runsTo (.evt t w) t w id ∧
      (bit (s.ev.get n).cfg 31 = true → (s.die.get (dieOfCl t.cl)).linkUp = true → ∃ u, exec (.evt t w) s = .next u ∧
        (u.ev.get n).pend = true ∧ (u.ev.get n).occ = min 0xFFFF ((s.ev.get n).occ + 1)))
  ∧ (s.issues (.emit t w) t w → s.emitRoom t = true →
      (s.runsTo (.emit t w) t w fun h => { h with waited := 0 }) ∧ ∃ u, exec (.emit t w) s = .next u ∧ sent u w.ra tag)
  ∧ (s.issues (.emit t w) t w → s.emitRoom t = false → s.runsTo (.emit t w) t w fun h =>
      { h with
        st := .waiting, sticky := h.sticky ||| 8
        wait := some { kind := .emit w.ra ((f17 w).setWidth 16), issued := s1.thNow t, timeout := none, hit := none } })
  ∧ (∀ i lim hit ra tg, (s.th t).wait = some { kind := .emit ra tg, issued := i, timeout := lim, hit := hit } → s.emitRoom t = true →
      ∃ u, exec (.emitCreditAvailable tk t) s = .next u ∧ sent u ra (tg.setWidth 32) ∧ (u.th t).st = .running ∧ (u.th t).wait = none ∧
        u.bare = (s.modTh t fun h => { h with
          st := .running, wait := none, ready := (u.th t).ready, waited := (u.th t).waited }).bare)

/-- R254, R277, R281 with R272: of a Running thread, a word that reaches past instruction memory halts it with FETCH_RANGE, else a word that
breaks the rules of its row with BAD_OPCODE, else a tk row of t8 with NO_CHAN. -/
def Obligations.WordFaults : Prop := ∀ (s : State) (i : Instr) (t : Thr) (w : ZWord),
  zparts i = some (t, w) → (s.th t).st = .running →
  let n := (s.th t).pc + 1 + b1 w.x
  let halts := fun (cause : Byte) => ∃ u, exec i s = .next u ∧ (u.th t).st = .halted ∧ (u.th t).cause = cause ∧ (u.th t).pc = (s.th t).pc
  (16384 < n → halts 0x02)
  ∧ (n ≤ 16384 → zlegal i = false → halts 0x01)
  ∧ (n ≤ 16384 → zlegal i = true → tkOnly i = true → t.k = 8 → halts 0x06)

/-- R255, R262, R284, R267: the faults of an operation that has issued. -/
def Obligations.OperationFaults : Prop := ∀ (s : State) (t : Thr) (w : ZWord),
  let a := (s.g t w.ra + if w.x then w.e else .ofInt 32 (sfld (f17 w) 0 17)).toNat
  let inside := a < 0x8000 ∨ (0x100000 ≤ a ∧ a < 0x180000)
  let halts := fun (i : Instr) (cause : Byte) =>
    s.issues i t w → ∃ u, exec i s = .next u ∧ (u.th t).st = .halted ∧ (u.th t).cause = cause ∧ (u.th t).g = (s.th t).g
      ∧ ∀ n, (u.cl n).dmem = (s.cl n).dmem
  (¬ inside → halts (.ld t w) 0x03 ∧ halts (.st t w) 0x03)
  ∧ (inside → a % 4 ≠ 0 → halts (.ld t w) 0x04 ∧ halts (.st t w) 0x04)
  ∧ (inside → a % 4 = 0 → 0x1400 ≤ a → a < 0x8000 → ¬ (0x1400 + 0xC00 * t.k.1 ≤ a ∧ a < 0x2000 + 0xC00 * t.k.1) → halts (.st t w) 0x05)
  ∧ (inside → a % 4 = 0 → 0x110000 ≤ a → halts (.st t w) 0x05)
  ∧ (bit (f17 w) 16 = true → 16384 ≤ (s.g t w.ra).toNat → halts (.jmp t w) 0x02)
  ∧ ((s.th t).stack.length ≥ 8 → halts (.call t w) 0x07)
  ∧ (t.k ≠ 8 → halts (.syncPackage t w) 0x06)

/-! ## Channel instructions

A channel instruction of thread t is judged at its issue tick after a trip that takes effect at the boundary that follows (R58): in
`(s.atIssue t w).tripFirst c`. -/

/-- Table 2-7 with R299: in Off every channel instruction but MODE, READ and CAL RES = 1 completes with CH_OFF and does nothing else. -/
def Obligations.OffChannelRefuses : Prop := ∀ (s : State) (i : Instr) (t : Thr) (w : ZWord) (c : Ch),
  zparts i = some (t, w) → tkOnly i = true → (∀ t w, i ≠ .mode t w ∧ i ≠ .read t w ∧ i ≠ .calRes t w) → thCh t = some c →
  (s.ch c).st = .off → (s.ch c).trip.pend = false → s.issues i t w → s.chRow i t w 0x01 id

/-- R292, R224, R78 with Table 10-9: outside Off each row writes its own value, whatever the state, and completes OK; FORCE PARKCODE also
abandons a calibration step on the output (Table 12-6) and ends POWERUP_OUT (R85). -/
def Obligations.ChannelValueRows : Prop := ∀ (s : State) (t : Thr) (w : ZWord) (c : Ch), thCh t = some c →
  let v := s.opV t w
  let s2 := (s.atIssue t w).tripFirst c
  let put := fun (i : Instr) (g : State) => s.issues i t w → (s2.ch c).st ≠ .off → s.chRow i t w 0 fun _ => g
  put (.forceSetpoint t w) (s2.modCh c fun h => { h with setpoint := sx 24 v.toNat })
  ∧ put (.forceBase t w) (s2.modCh c fun h => { h with base := sx 24 v.toNat })
  ∧ put (.forceClearcode t w) (s2.modCh c fun h => { h with clearCode := v.setWidth 18 })
  ∧ put (.forceParkcode t w) ((s2.stepDisturb c).modCh c fun h => { h with parkCode := v.setWidth 18, powerupOut := false })
  ∧ put (.stay t w) (s2.modCh c fun h => { h with
      cap := { h.cap with stay := (if bit (f17 w) 16 then 0x80000000 else 0) + (v &&& 0x7FFFFFFF) } })

/-- R288: LIMIT writes one limit and the threshold codes follow (R168, R170), unless it would cross the other limit of the quantity:
then it fails with BAD_LIMIT (0x0D) and writes nothing. -/
def Obligations.LimitRow : Prop := ∀ (s : State) (t : Thr) (w : ZWord) (c : Ch), thCh t = some c →
  let s2 := (s.atIssue t w).tripFirst c
  let h := s2.ch c
  let x := sx 24 (s.opV t w).toNat
  let which := ff w 0 2
  let hiV := if which = 0 then x else h.vlimH
  let loV := if which = 1 then x else h.vlimL
  let hiI := if which = 2 then x else h.ilimH
  let loI := if which = 3 then x else h.ilimL
  let ok := if which < 2 then loV ≤ hiV else loI ≤ hiI
  s.issues (.limit t w) t w → h.st ≠ .off →
    (ok → s.chRow (.limit t w) t w 0 fun _ =>
      (s2.modCh c fun h => { h with vlimH := hiV, vlimL := loV, ilimH := hiI, ilimL := loI }).recalcThr c h.scaleEntry)
    ∧ (¬ ok → s.chRow (.limit t w) t w 0x0D fun _ => s2)

/-- R168: the four threshold codes that follow the limits, the floors and the guards: up and down to the 12-bit grid, moved outward by
the greater of guard and floor, and kept in 12 signed bits. -/
def Obligations.ThresholdCodes : Prop := ∀ (s : State) (c : Ch) (e : RangeEntry),
  let h := s.ch c
  let w := s.ctl c 0x410
  let gV : Int := max (fld w 16 6) h.floorV
  let gI : Int := max (fld w 24 6) h.floorI
  let clamp := fun (x : Int) => max (-2048) (min x 2047)
  let p := ((s.recalcThr c e).ch c).trip
  (∀ k : Int, 4096 * (k - 1) < e.scaleComp true h.vlimH → e.scaleComp true h.vlimH ≤ 4096 * k → p.thr.get 0 = clamp (k + gV))
  ∧ (∀ k : Int, 4096 * k ≤ e.scaleComp true h.vlimL → e.scaleComp true h.vlimL < 4096 * (k + 1) → p.thr.get 1 = clamp (k - gV))
  ∧ (∀ k : Int, 4096 * (k - 1) < e.scaleComp false h.ilimH → e.scaleComp false h.ilimH ≤ 4096 * k → p.thr.get 2 = clamp (k + gI))
  ∧ (∀ k : Int, 4096 * k ≤ e.scaleComp false h.ilimL → e.scaleComp false h.ilimL < 4096 * (k + 1) → p.thr.get 3 = clamp (k - gI))
  ∧ { p with thr := h.trip.thr } = h.trip

/-- R60, R62, R290 with Table 2-7: MODE in every state. -/
def Obligations.ModeRow : Prop := ∀ (s : State) (t : Thr) (w : ZWord) (c : Ch), thCh t = some c →
  let s2 := (s.atIssue t w).tripFirst c
  let h := s2.ch c
  let m : BitVec 8 := (s.opV t w).setWidth 8
  let same := m = h.mode ∧ h.modePend = none
  let forced := (h.st = .heel ∨ h.st = .run) ∧ m &&& 3 ≠ h.mode &&& 3
  s.issues (.mode t w) t w →
    (h.st = .off → s.chRow (.mode t w) t w 0 fun _ => s2.modCh c fun h => { h with modeStored := some m })
    ∧ (h.st = .draining → s.ends (.mode t w) fun u => (u.ch c).defMode = some m ∧ (u.th t).last = 0x06 ∧ (u.ch c).mode = h.mode)
    ∧ (h.st ≠ .off → h.st ≠ .draining →
      (same → s.chRow (.mode t w) t w 0 fun _ => s2)
      ∧ (¬ same → forced → s.chRow (.mode t w) t w 0x02 fun _ => s2.modCh c fun h => { h with
          loop := { h.loop with rejCount := min 0xFFFF (h.loop.rejCount + 1) } })
      ∧ (¬ same → ¬ forced → s.chRow (.mode t w) t w 0 fun _ => s2.modCh c fun h => { h with modePend := some m }))

/-- Table 2-7 with R58, R62, R82, R163, R182, R289: the state and the status after OPEN, CLOSE, HEEL, PARK and TRIPCLR in every state of the
channel; a HEEL that completes OK writes setpoint and slew, a PARK its drain slew, and what Draining defers is held. -/
def Obligations.TransitionRows : Prop := ∀ (s : State) (t : Thr) (w : ZWord) (c : Ch), thCh t = some c →
  let s2 := (s.atIssue t w).tripFirst c
  let h := s2.ch c
  let force := mForce h.mode
  let v := sx 24 (s.opV t w).toNat
  let slew := fld (s.g t w.rb) 0 24
  let drain := if bit (f17 w) 0 then h.drainSlew else fld (s.opV t w) 0 18
  let still := h.trip.active &&& ~~~h.trip.unres ≠ 0
  let go := fun (i : Instr) (r : ChSt × Byte) (P : Channel → Prop) =>
    s.issues i t w → s.ends i fun u => (u.ch c).st = r.1 ∧ (u.th t).last = r.2 ∧ P (u.ch c)
  go (.openLoop t w) (match h.st with
      | .off => (.off, 0x01)
      | .heel => (.held, 0)
      | .run => if force then (.held, 0) else (.run, 0x03)
      | .held => (.held, 0)
      | .draining => (.draining, 0x07)
      | x => (x, 0x03)) (fun _ => True)
  ∧ go (.closeLoop t w) (match h.st with
      | .off => (.off, 0x01)
      | .parked => if !s2.clrHigh then (.parked, 0x0A) else if force then (.heel, 0) else (.run, 0)
      | .held => (.run, 0)
      | .tripped => (.tripped, 0x05)
      | .draining => (.draining, 0x06)
      | x => (x, 0)) (fun x => h.st = .draining → x.defMove = some .close)
  ∧ go (.heel t w) (match h.st with
      | .off => (.off, 0x01)
      | .parked => if !s2.clrHigh then (.parked, 0x0A) else if force then (.heel, 0) else (.parked, 0x04)
      | .heel => (.heel, 0)
      | .tripped => (.tripped, 0x05)
      | .draining => (.draining, 0x06)
      | x => if force then (.heel, 0) else (x, 0x04))
      (fun x => (h.st = .draining → x.defMove = some (.heel v slew)) ∧
        (h.st = .heel ∨ (force = true ∧ (h.st = .run ∨ h.st = .held ∨ (h.st = .parked ∧ s2.clrHigh = true))) →
          x.setpoint = v ∧ x.loop.heelSlew = slew))
  ∧ go (.park t w) (match h.st with
      | .off => (.off, 0x01)
      | .parked => (.parked, 0)
      | .tripped => (.tripped, 0x05)
      | _ => (.draining, 0)) (fun x => (h.st ≠ .off → x.drainSlew = drain) ∧ (h.st = .draining → x.defMode = none ∧ x.defMove = none))
  ∧ go (.tripclr t w) (match h.st with
      | .off => (.off, 0x01)
      | .tripped => if still then (.tripped, 0x09) else (.parked, 0)
      | x => (x, 0x08)) (fun x => h.st = .tripped → ¬ still → x.trip.latch = 0)

/-- Table 3-9, R97: RANGE starts a change from the first sample boundary S0 on (make one sample period later, break MBB_DELAY ticks after
that), or is refused by the state of the channel. -/
def Obligations.RangeRow : Prop := ∀ (s : State) (t : Thr) (w : ZWord) (c : Ch), thCh t = some c →
  let s1 := s.atIssue t w
  let s2 := s1.tripFirst c
  let h := s2.ch c
  let e := s1.readRange c (ff w 0 3)
  let busy := ∃ r, h.rchg = some r ∧ r.dead = false
  let refused := fun (code : Byte) => s.chRow (.range t w) t w code fun _ => s2
  s.issues (.range t w) t w →
    (h.st = .off → refused 0x01) ∧ (h.st = .tripped → refused 0x05) ∧ (h.st = .draining → refused 0x07)
    ∧ (h.st ∉ [.off, .tripped, .draining] →
      (busy → refused 0x0B)
      ∧ (¬ busy → e.outType ≠ h.outType → h.closed = true → s.chRow (.range t w) t w 0x02 fun _ => s2.modCh c fun h => { h with
          loop := { h.loop with rejCount := min 0xFFFF (h.loop.rejCount + 1) } })
      ∧ (¬ busy → (e.outType = h.outType ∨ h.closed = false) → s2.rangeBad c (ff w 0 3) = true → refused 0x0C)
      ∧ (¬ busy → (e.outType = h.outType ∨ h.closed = false) → s2.rangeBad c (ff w 0 3) = false →
        s.ends (.range t w) fun u => (u.th t).last = 0 ∧ (u.ch c).st = h.st ∧ (u.ch c).tgt.1 = ff w 0 3 ∧ (u.ch c).act = h.act
          ∧ (u.ch c).powerupOut = false ∧ ∃ r, (u.ch c).rchg = some r ∧ r.target.1 = ff w 0 3 ∧ r.entry = e ∧ r.s0 = s2.bnd c
          ∧ r.makeAt = s2.nextB c (s2.bnd c) ∧ r.breakAt = r.makeAt + e.mbbDelay ∧ r.closes = h.closed ∧ r.dead = false))

/-- R159 with Tables 5-3 to 5-5, R293: COEF and LAW write one loop parameter of an open loop, FORCE LIST selects a list or, while a list
runs, the next one; each refuses what its table refuses. -/
def Obligations.LoopParameterRows : Prop := ∀ (s : State) (t : Thr) (w : ZWord) (c : Ch), thCh t = some c →
  let s2 := (s.atIssue t w).tripFirst c
  let h := s2.ch c
  let v := s.opV t w
  let i := ff w 0 7
  let closed := h.closed = true ∨ ∃ r, h.rchg = some r ∧ r.closes = true
  let row := fun (j : Instr) (band : Bool) => s.issues j t w → h.st ≠ .off →
    (closed → s.chRow j t w 0x02 fun _ => s2.modCh c fun h => { h with
        loop := { h.loop with rejCount := min 0xFFFF (h.loop.rejCount + 1) } })
    ∧ (¬ closed → coefOk band i v.toInt = false → s.chRow j t w 0x13 fun _ => s2)
    ∧ (¬ closed → coefOk band i v.toInt = true → s.ends j fun u => (u.th t).last = 0
        ∧ (∀ k : Fin 67, (u.ch c).coef.get k = if k.1 = i then v.toInt else h.coef.get k)
        ∧ (i ≠ 0x40 → u.bare = ((s2.modCh c fun h => { h with coef := (u.ch c).coef }).modTh t fun h => { h with last := 0 }).bare))
  row (.coef t w) false ∧ row (.law t w) true
  ∧ (s.issues (.forceList t w) t w → h.st ≠ .off →
      (s2.listOk c v.toNat = false → s.chRow (.forceList t w) t w 0x0E fun _ => s2)
      ∧ (s2.listOk c v.toNat = true → mLIST h.mode = true ∧ h.listRun = true →
        s.chRow (.forceList t w) t w 0 fun _ => s2.modCh c fun h => { h with listNext := some v.toNat })
      ∧ (s2.listOk c v.toNat = true → ¬ (mLIST h.mode = true ∧ h.listRun = true) →
        s.chRow (.forceList t w) t w 0 fun _ => s2.modCh c fun h => { h with listSel := some v.toNat, listNext := none }))

/-- R179, R113, R114, R120, R131 with Tables 10-11 and 10-18: BLANK replaces the program window, SEQ schedules the configuration of the converters
it names, INJ asks for the injected sequence of a converter, AVG writes one averaging exponent. -/
def Obligations.MeasureRows : Prop := ∀ (s : State) (t : Thr) (w : ZWord) (c : Ch), thCh t = some c →
  let s1 := s.atIssue t w
  let s2 := s1.tripFirst c
  let h := s2.ch c
  let len := min 65535 (s.opV t w).toNat
  let ga := s1.readCfg c .a
  let gb := s1.readCfg c .b
  let na := bit (f17 w) 0
  let nb := bit (f17 w) 1
  let aNow := h.convA.seqPend.getD h.convA.cfg
  let aAfter := if na then ga else aNow
  let takesB := !(na && ga.ilv) && (nb || (na && aNow.ilv))
  let bad := (na = true ∧ ga.entsOk = false) ∨ (takesB = true ∧ gb.entsOk = false) ∨ (aAfter.ilv = true ∧ ilvOk aAfter gb.mcfg = false)
  let v := if bit (f17 w) 0 then Conv.b else Conv.a
  let iv := if h.ilv then Conv.a else v
  let x := h.conv v
  let y := h.conv iv
  let k := ff w 5 5
  let e := fAvgEntry w
  let o := (match v with | .a => 0x110 | .b => 0x160) + 4 * e.1
  (s.issues (.blank t w) t w → (s1.ch c).st ≠ .off → s.ends (.blank t w) fun u => (u.th t).last = 0 ∧
      (u.ch c).trip.win.get 4 = { till := s1.now c + 1 + len, mask := if len = 0 then 0 else .ofNat 4 (ff w 0 4) })
  ∧ (s.issues (.seq t w) t w → h.st ≠ .off →
      (bad → s.chRow (.seq t w) t w 0x10 fun _ => s2)
      ∧ (¬ bad → na = false → aNow.ilv = true → s.chRow (.seq t w) t w 0 fun _ => s2)
      ∧ (¬ bad → na = true ∨ aNow.ilv = false → s.ends (.seq t w) fun u => (u.th t).last = 0
        ∧ (na = true → (u.ch c).convA.seqPend = some ga ∧ (u.ch c).convA.seqDue = s2.bnd c ∧ (u.ch c).convA.rdrop = 0)
        ∧ (na = false → (u.ch c).convA = h.convA)
        ∧ (takesB = true → (u.ch c).convB.seqPend = some gb ∧ (u.ch c).convB.seqDue = s2.bnd c)
        ∧ (na = true → ga.ilv = true → (u.ch c).convB.seqPend = some h.convB.cfg ∧ (u.ch c).convB.seqDue = s2.bnd c)
        ∧ (takesB = false → (na = true ∧ ga.ilv = true) ∨ (u.ch c).convB = h.convB)))
  ∧ (s.issues (.inj t w) t w → h.st ≠ .off →
      (y.cfg.styleB = true → s.chRow (.inj t w) t w 0x11 fun _ => s2)
      ∧ (y.cfg.styleB = false → y.busyAt (s2.now c) = true → s.ends (.inj t w) fun u =>
        (u.th t).last = 0x12 ∧ ((u.ch c).conv iv).drop = min 0xFFFF (y.drop + 1) ∧ ((u.ch c).conv iv).injPend = y.injPend)
      ∧ (y.cfg.styleB = false → y.busyAt (s2.now c) = false → s.ends (.inj t w) fun u =>
        (u.th t).last = 0 ∧ ((u.ch c).conv iv).injPend = true ∧ ((u.ch c).conv iv).drop = y.drop))
  ∧ (s.issues (.avg t w) t w → h.st ≠ .off →
      (16 < k → s.chRow (.avg t w) t w 0x10 fun _ => s2)
      ∧ (k ≤ 16 → s.ends (.avg t w) fun u => (u.th t).last = 0 ∧ ((u.ch c).conv v).knext.get e = k
        ∧ (∀ j, j ≠ e → ((u.ch c).conv v).knext.get j = x.knext.get j) ∧ ((u.ch c).conv v).iv = x.iv
        ∧ fld (u.ctl c o) 17 5 = k ∧ fld (u.ctl c o) 0 17 = fld (s2.ctl c o) 0 17 ∧ fld (u.ctl c o) 22 10 = fld (s2.ctl c o) 22 10))

/-- R189, R196, R201, R202, R300 with Table 7-4: SEG takes its descriptor into NEXT, JUMP asks for NEXT, RATE sets M and N of the next start,
MARK writes the routing of one marker; each refuses by the generator's state or its operand. -/
def Obligations.GeneratorRows : Prop := ∀ (s : State) (t : Thr) (w : ZWord) (c : Ch), thCh t = some c →
  let s1 := s.atIssue t w
  let h := s1.ch c
  let q := s1.readSeg c (fSegD w)
  let m := (s.g t w.ra).toNat
  let n := (s.g t w.rb).toNat
  let v := s.opV t w
  let pin := fld v 10 5
  let m1 := bit (f17 w) 16
  let taken := ∃ d b, (d, b) ≠ (c, m1) ∧ s1.drivesPin d b pin = true
  let lo := if m1 then 16 else 0
  (s.issues (.seg t w) t w → h.st ≠ .off →
      (s1.segOk c q = false → s.chRow (.seg t w) t w 0x18 fun _ => s1)
      ∧ (s1.segOk c q = true → h.gen.follower = .next → s.chRow (.seg t w) t w 0x19 fun _ => s1)
      ∧ (s1.segOk c q = true → h.gen.follower ≠ .next → s.ends (.seg t w) fun u => (u.th t).last = 0 ∧ (u.ch c).gen.next = some q
        ∧ (u.ch c).gen.nextLoaded = 0 ∧ (u.ch c).gen.cur = h.gen.cur ∧ (u.ch c).gen.running = h.gen.running))
  ∧ (s.issues (.jump t w) t w → h.st ≠ .off →
      (h.gen.running = false → s.chRow (.jump t w) t w 0x1A fun _ => s1)
      ∧ (h.gen.running = true → h.gen.jumpPend = true → s.chRow (.jump t w) t w 0x1B fun _ => s1)
      ∧ (h.gen.running = true → h.gen.jumpPend = false → s.ends (.jump t w) fun u => (u.th t).last = 0 ∧ (u.ch c).gen.jumpPend = true
        ∧ (u.ch c).gen.follower = h.gen.follower ∧ (bit (u.ch c).gen.sticky 1 = (bit h.gen.sticky 1 || h.gen.follower != .undecided))))
  ∧ (s.issues (.rate t w) t w → h.st ≠ .off →
      (1 ≤ m → m ≤ n → n ≤ 4096 → s.chRow (.rate t w) t w 0 fun s => s.modCh c fun h => { h with gen := { h.gen with rateM := m, rateN := n } })
      ∧ (¬ (1 ≤ m ∧ m ≤ n ∧ n ≤ 4096) → s.chRow (.rate t w) t w 0x1C fun s => s))
  ∧ (s.issues (.mark t w) t w → h.st ≠ .off →
      (bit v 15 = true → 24 ≤ pin ∨ pin / 12 ≠ (dieOfCh c).1 → s.chRow (.mark t w) t w 0x1D fun _ => s1)
      ∧ (bit v 15 = true → pin < 24 → pin / 12 = (dieOfCh c).1 → taken → s.chRow (.mark t w) t w 0x1E fun _ => s1)
      ∧ (bit v 15 = false ∨ (pin < 24 ∧ pin / 12 = (dieOfCh c).1 ∧ ¬ taken) → s.ends (.mark t w) fun u => (u.th t).last = 0
        ∧ fld (u.ch c).gen.mkcfg lo 16 = fld v 2 14 * 4 ∧ fld (u.ch c).gen.mkcfg (16 - lo) 16 = fld h.gen.mkcfg (16 - lo) 16))

/-- R224, R225, R226, R303 with Table 8-7: ARM, ARM off, REC and STRM. -/
def Obligations.AcquisitionRows : Prop := ∀ (s : State) (t : Thr) (w : ZWord) (c : Ch), thCh t = some c →
  let s2 := (s.atIssue t w).tripFirst c
  let h := s2.ch c
  let pre := (s.g t w.ra).toNat
  let l := s.g t (w.ra + 1)
  let len := if l = 0 then 2 ^ 32 else l.toNat
  let n := (s.g t (w.ra + 2)).toNat
  let chunk := if s.opV t w = 0 then 2 ^ 32 else (s.opV t w).toNat
  (s.issues (.arm t w) t w → h.st ≠ .off →
      (h.st = .parked → s.chRow (.arm t w) t w 0x20 fun _ => s2)
      ∧ (h.st ≠ .parked → mCAPT h.mode = false → s.chRow (.arm t w) t w 0x21 fun _ => s2)
      ∧ (h.st ≠ .parked → mCAPT h.mode = true → s.ends (.arm t w) fun u => (u.th t).last = 0 ∧ (u.ch c).cap.armed = true
        ∧ (u.ch c).cap.line.toNat = ff w 0 5 ∧ (u.ch c).cap.opened = 0 ∧ (u.ch c).cap.accSince = false
        ∧ (h.cap.cur = none → h.cap.marks = [] → (u.ch c).cap.fill = s2.bnd c) ∧ (u.ch c).cap.cur = h.cap.cur))
  ∧ (s.issues (.armOff t w) t w → h.st ≠ .off → s.ends (.armOff t w) fun u => (u.th t).last = 0 ∧ (u.ch c).cap.armed = false
      ∧ (u.ch c).cap.cur = h.cap.cur)
  ∧ (s.issues (.recSet t w) t w → h.st ≠ .off →
      (len ≤ pre ∨ (s2.dring c).2 < maxArea len → s.chRow (.recSet t w) t w 0x22 fun _ => s2)
      ∧ (pre < len → maxArea len ≤ (s2.dring c).2 → h.cap.armed = true → s.chRow (.recSet t w) t w 0x23 fun _ => s2)
      ∧ (pre < len → maxArea len ≤ (s2.dring c).2 → h.cap.armed = false → s.chRow (.recSet t w) t w 0 fun _ => s2.modCh c fun h =>
        { h with cap := { h.cap with pre := pre, lenm1 := len - 1, count := n } }))
  ∧ (s.issues (.strm t w) t w → h.st ≠ .off →
      (h.cap.streaming = true → s.chRow (.strm t w) t w 0x23 fun _ => s2)
      ∧ (h.cap.streaming = false → (s2.dring c).2 < maxArea chunk → s.chRow (.strm t w) t w 0x22 fun _ => s2)
      ∧ (h.cap.streaming = false → maxArea chunk ≤ (s2.dring c).2 → s.chRow (.strm t w) t w 0 fun _ => s2.modCh c fun h =>
        { h with cap := { h.cap with chunkm1 := chunk - 1 } }))

/-- R306 to R310 with R325: CAL joins its region's queue, CALGAP sets the windows of the converters it names, SYSCAL.ZERO and SYSCAL.FULL begin
a measurement, SYSCAL.APPLY installs the pair of the two measurements under a new calibration generation. -/
def Obligations.CalibrationRows : Prop := ∀ (s : State) (t : Thr) (w : ZWord) (c : Ch), thCh t = some c →
  let s1 := s.atIssue t w
  let s2 := s1.tripFirst c
  let h := s2.ch c
  let busy := h.cal.req = true ∨ h.cal.meas.isSome = true
  let target := ff w 0 4
  let v := s.opV t w
  let len := min 65535 v.toNat
  let b := s2.bnd c
  let gap := fun (on : Bool) (x : ConvSt) => x.gapFrom = (if on ∧ 0 < len then b else 0) ∧
    x.gapTill = if on ∧ 0 < len then s2.sTick c (s2.idxAt c b + len) else 0
  let conv := if bit (f17 w) 2 then Conv.b else Conv.a
  let isI := bit (f17 w) 3
  let k := ff w 4 5
  let i := tripleIdx (bit (f17 w) 2) isI (.ofNat 3 h.act.1)
  let began := fun (u : State) (full : Bool) (f : Int) => ∃ m, (u.ch c).cal.meas = some m ∧ m.full = full ∧ m.conv = conv ∧ m.isI = isI ∧
    m.k = k ∧ m.n = 0 ∧ m.acc = 0 ∧ m.f = f ∧ m.rc.toNat = h.act.1
  (s.issues (.cal t w) t w → h.st ≠ .off →
      (busy → s.chRow (.cal t w) t w 0x30 fun _ => s2)
      ∧ (¬ busy → target = 4 → h.st ≠ .parked → s.chRow (.cal t w) t w 0x31 fun _ => s2)
      ∧ (¬ busy → target ≠ 4 ∨ h.st = .parked → s.ends (.cal t w) fun u => (u.th t).last = 0 ∧ (u.ch c).cal.req = true
        ∧ ∃ q, (u.rg (rgOf c)).queue = (s2.rg (rgOf c)).queue ++ [q] ∧ q.slot = c.1 % 16 ∧ q.target = target))
  ∧ (s.issues (.calgap t w) t w → h.st ≠ .off → s.ends (.calgap t w) fun u => (u.th t).last = 0
      ∧ gap (bit (f17 w) 0) (u.ch c).convA ∧ gap (bit (f17 w) 1) (u.ch c).convB)
  ∧ (s.issues (.syscalZero t w) t w → h.st ≠ .off → (busy → s.chRow (.syscalZero t w) t w 0x30 fun _ => s2)
      ∧ (¬ busy → s.ends (.syscalZero t w) fun u => (u.th t).last = 0 ∧ began u false 0))
  ∧ (s.issues (.syscalFull t w) t w → h.st ≠ .off → (busy → s.chRow (.syscalFull t w) t w 0x30 fun _ => s2)
      ∧ (¬ busy → s.ends (.syscalFull t w) fun u => (u.th t).last = 0 ∧ began u true (sx 24 v.toNat)))
  ∧ (s.issues (.syscalApply t w) t w → h.st ≠ .off →
      (lookupNat h.cal.zero i.1 = none ∨ lookupNat h.cal.full i.1 = none → s.chRow (.syscalApply t w) t w 0x33 fun _ => s2)
      ∧ (∀ z f, lookupNat h.cal.zero i.1 = some z → lookupNat h.cal.full i.1 = some f →
        let d := |f.1 - z.1|
        let g := (2 * (if f.1 < z.1 then -f.2 else f.2) * 2 ^ 30 + d) / (2 * d)
        (d = 0 ∨ g < 0 ∨ 2 ^ 32 ≤ g → s.chRow (.syscalApply t w) t w 0x34 fun _ => s2)
        ∧ (d ≠ 0 → 0 ≤ g → g < 2 ^ 32 → s.ends (.syscalApply t w) fun u => (u.th t).last = 0
          ∧ (u.ph c).pairs.get i = (z.1, g.toNat) ∧ u.calGen = s2.calGen + 1 ∧ lookupNat (u.ch c).cal.zero i.1 = none)))

/-! ## Waits and barriers -/

/-- R264, R265, R304 with Tables 9-11 and 10-14: a wait whose condition holds at the issue tick completes in its own slot; else the thread
waits, with the timeout E of X = 1 (none where E is 0). Times are ticks of the thread's die; WAIT.TICK compares modulo 2^32. -/
def Obligations.WaitRows : Prop := ∀ (s : State) (t : Thr) (w : ZWord),
  let s1 := s.atIssue t w
  let now := s1.thNow t
  let v := (s.opV t w).toNat
  let rel := bit (f17 w) 16
  let ahead := if rel then v else (v + 2 ^ 32 - now % 2 ^ 32) % 2 ^ 32
  let lim := if w.x = true ∧ w.e ≠ 0 then some w.e.toNat else none
  let mask := s.g t w.ra
  let set := (s.th t).evt &&& mask
  let waits := fun (k : WaitKind) (lim hit : Option Nat) (h : Thread) =>
    { h with st := ThSt.waiting, wait := some { kind := k, issued := now, timeout := lim, hit := hit } }
  (s.issues (.waitTick t w) t w →
      (ahead = 0 → s.runsTo (.waitTick t w) t w fun h => { h with waited := 0, last := 0 })
      ∧ (rel = false → 2 ^ 31 ≤ ahead → s.runsTo (.waitTick t w) t w fun h =>
        { h with sticky := h.sticky ||| 1, waited := 0, last := 0 })
      ∧ (0 < ahead → rel = true ∨ ahead < 2 ^ 31 →
        s.runsTo (.waitTick t w) t w (waits (.tick (now + ahead) rel) none (some (now + ahead)))))
  ∧ (s.issues (.waitTrig t w) t w → s.runsTo (.waitTrig t w) t w (waits (.trig ((f17 w).setWidth 5) w.rd) lim none))
  ∧ (s.issues (.waitEvt t w) t w →
      (set ≠ 0 → s.runsTo (.waitEvt t w) t w fun h => { h.setG w.rd set with waited := 0, last := 0 })
      ∧ (set = 0 → s.runsTo (.waitEvt t w) t w (waits (.evt mask w.rd) lim none)))

/-- R264 with Table 10-14: what ends a wait. The thread runs on, LAST takes the status, RD what its wait gives: the arrival tick of the edge,
or the masked bits of s.evt, 0 on a timeout. Nothing else moves. -/
def Obligations.WaitEnds : Prop := ∀ (s : State) (t : Thr) (wt : Wait) (tk : Nat), (s.th t).wait = some wt →
  let done := fun (i : Instr) (status : Byte) (f : State → Thread → Thread) => s.ends i fun u => u.bare = (s.modTh t fun h =>
    { f u h with st := .running, wait := none, last := status, ready := (u.th t).ready, waited := (u.th t).waited }).bare
  let inTime := fun (c : Nat) => ∀ n, wt.timeout = some n → c ≤ wt.issued + n
  (∀ n rel, wt.kind = .tick n rel → done (.waitTickDone t) 0 fun _ h => h)
  ∧ (∀ line rd c, wt.kind = .trig line rd → wt.hit = some c → inTime c →
      done (.waitTrigDone t) 0 fun _ h => h.setG rd (.ofNat 32 (c - 1)))
  ∧ (∀ m rd c, wt.kind = .evt m rd → wt.hit = some c → inTime c →
      done (.waitEvtDone tk t) 0 fun _ h => h.setG rd (h.evt &&& m))
  ∧ (∀ n, wt.timeout = some n → (∀ c, wt.hit = some c → ¬ c ≤ wt.issued + n) → (∀ b rd, wt.kind ≠ .sync b rd) →
      done (.waitTimeout t) 0x28 fun _ h => match wt.kind with
        | .evt _ rd => h.setG rd 0
        | _ => h)
  ∧ (∀ n b rd, wt.timeout = some n → wt.kind = .sync b rd → (s.bar b).release = none → s.ends (.waitTimeout t) fun u =>
      (u.th t).st = .running ∧ (u.th t).wait = none ∧ (u.th t).last = 0x28 ∧ (u.th t).g = (s.th t).g
      ∧ (u.bar b).arrived = (s.bar b).arrived &&& ~~~barBit t b ∧ (u.bar b).release = none)

/-- R266, R267 with Table 10-14: an arrival at a barrier. A mask without the arriving thread, a mask that names clusters of another owner, and a
mask that differs from the waiting members' complete at once with their codes; else the thread waits, and the last arrival sets the release
tick: 1 tick on at a cluster barrier, 2 or across the dies 10 at a package barrier. At its release
tick a barrier is empty and every member that waits at it runs on with LAST = OK and the tick in its pair. -/
def Obligations.BarrierRows : Prop := ∀ (s : State) (t : Thr) (w : ZWord),
  let s1 := s.atIssue t w
  let now := s1.thNow t
  let row := fun (i : Instr) (b : BarRef) (mask : BitVec 12) (delay : Nat) (denied : Prop) =>
    let me : BitVec 12 := barBit t b
    let r := s.bar b
    let a := r.arrived ||| me
    s.issues i t w → (∀ n, r.release = some n → now < n) →
      (mask &&& me = 0 → s.runsTo i t w fun h => { h with waited := 0, last := 0x29 })
      ∧ (mask &&& me ≠ 0 → denied → s.runsTo i t w fun h => { h with waited := 0, last := 0x2A })
      ∧ (mask &&& me ≠ 0 → ¬ denied → r.arrived ≠ 0 → r.mask ≠ mask → s.runsTo i t w fun h => { h with waited := 0, last := 0x2B })
      ∧ (mask &&& me ≠ 0 → ¬ denied → r.arrived = 0 ∨ r.mask = mask → s.ends i fun u =>
        (u.th t).st = .waiting ∧ (u.bar b).mask = mask ∧ (u.bar b).arrived = a
        ∧ (u.bar b).release = if a = mask then some (now + delay) else none)
  let mine := s.groupOwner (chsOfCl t.cl)
  let m8 : BitVec 12 := .ofNat 12 (ff w 0 12)
  row (.syncCluster t w) (.cluster t.cl (fBar4 w)) (.ofNat 12 (ff w 0 9)) 1 False
  ∧ (t.k = 8 → row (.syncPackage t w) (.package (fBar8 w)) m8 (if m8 &&& 0x3F = 0 ∨ m8 &&& 0xFC0 = 0 then 2 else 10)
      (∃ n : Cl, bit m8 n.1 = true ∧ s.ownsAll mine (chsOfCl n) = false))
  ∧ ∀ (b : BarRef) (r : Nat), (s.bar b).release = some r → s.ends (.syncRelease b) fun u => u.bar b = Barrier.empty
    ∧ ∀ t ∈ barThreads b, ∀ wt rd, (s.th t).wait = some wt → wt.kind = .sync b rd →
      (u.th t).st = .running ∧ (u.th t).wait = none ∧ (u.th t).last = 0 ∧ (u.th t).pc = (s.th t).pc
      ∧ (u.th t).g = (((s.th t).setG rd (.ofNat 32 r)).setG (rd + 1) (.ofNat 32 (r / 2 ^ 32))).g

/-! ## Loop engine, DAC and range changes -/

/-- R41, R60, R143: the next loop-period boundary of a clocked channel with no trip under way and no drain. A pending mode word takes effect, or
is discarded and counted where it would change the force flags of a closed channel in Heel or Run. -/
def Obligations.LoopBoundary : Prop := ∀ (s : State) (c : Ch), s.clocked c = true → (s.ch c).trip.pend = false → (s.ch c).st ≠ .draining →
  let h := s.ch c
  let clash := fun (m : BitVec 8) => (h.st = .heel ∨ h.st = .run) ∧ m &&& 3 ≠ h.mode &&& 3
  s.ends (.loopPeriodBoundary c) fun u => (u.ch c).loop.lastB = s.loopFrom c (max (h.loop.lastB + 1) (s.now c))
    ∧ (u.ch c).modePend = none ∧ (u.ch c).st = h.st
    ∧ (h.modePend = none → (u.ch c).mode = h.mode)
    ∧ (∀ m, h.modePend = some m → ¬ clash m → (u.ch c).mode = m ∧ (u.ch c).loop.rejCount = h.loop.rejCount)
    ∧ (∀ m, h.modePend = some m → clash m → (u.ch c).mode = h.mode ∧ (u.ch c).loop.rejCount = min 0xFFFF (h.loop.rejCount + 1))

/-- R144, R148, R157: the oldest loop period under way is computed. A period of an open loop leaves no code; a period with a quantity that
has no sample repeats the last output and sets LOOP_GAP, and any other writes one code within the two output limits. -/
def Obligations.LoopCompute : Prop := ∀ (s : State) (c : Ch) (p : Period) (rest : List Period), (s.ch c).loop.flight = p :: rest →
  let h := s.ch c
  let due := s.advanceDie (dieOfCh c) (s.sTick c (s.sIdx c p.tick + 18) + 6)
  let lo := h.coef.get 66
  let hi := h.coef.get 65
  let wrote := fun (u : State) (x : Int) => (u.ch c).queue = (h.queue ++ [(due.now c, outCode x)]).take 16
  ((p.live = false ∨ h.loop.running = false) → s.ends (.loopCompute c) fun u =>
      s.onlyCh c u ∧ (u.ch c).queue = h.queue ∧ (u.ch c).loop.flight = rest)
  ∧ (p.live = true → h.loop.running = true → isGap p.mode (h.loop.measured p.tick) = true → s.ends (.loopCompute c) fun u =>
      s.onlyCh c u ∧ wrote u (if h.loop.entering then h.lastOut else h.loop.last) ∧ bit (u.ch c).loop.sticky 10 = true
      ∧ (u.ch c).loop.flight = rest)
  ∧ (p.live = true → h.loop.running = true → h.st ≠ .heel ∨ h.trip.pend = false → isGap p.mode (h.loop.measured p.tick) = false → lo ≤ hi →
      s.ends (.loopCompute c) fun u => (∃ x, lo ≤ x ∧ x ≤ hi ∧ wrote u x ∧ (u.ch c).loop.last = x) ∧ (u.ch c).loop.flight = rest)

/-- R66, R68, R72, R75, R101, R401: the DAC takes at an update boundary what Table 3-13 selects: a code, or the front of the sample queue if it
was written before that tick, else the last code again (an underrun while a writer is active); FOUT follows at the end of a hold; a
change-over ends at the park code in the new output type. -/
def Obligations.DacRows : Prop := ∀ (s : State) (c : Ch) (tk : Nat),
  let s1 := s.advance tk
  let n := s1.now c
  let h := s1.ch c
  (s1.clocked c = true → s1.isUpdate c n = true →
      (∀ v, s1.foutSrc c = .code v → s.ends (.dacUpdate tk c) fun u => (u.ch c).dac = v)
      ∧ (∀ w v l, s1.foutSrc c = .queue → h.queue = (w, v) :: l → w < n → s.ends (.dacUpdate tk c) fun u =>
        (u.ch c).dac = v ∧ (u.ch c).queue = l)
      ∧ (∀ w v l, s1.foutSrc c = .queue → h.queue = [] ∨ (h.queue = (w, v) :: l ∧ n ≤ w) → s.ends (.dacUpdate tk c) fun u =>
        s.onlyCh c u ∧ (u.ch c).dac = h.dac ∧ (u.ch c).queue = h.queue
        ∧ (u.ch c).rSticky = if h.queueFed n then h.rSticky ||| 0x4000 else h.rSticky))
  ∧ (∀ e, (s.ch c).hold = some e → s.ends (.deglitchHoldEnd c) fun u =>
      u.bare = (s.modCh c fun h => { h with fout := h.dac, hold := none }).bare)
  ∧ (∀ e, (s.ch c).chgOver = some e → s.ends (.outTypeChangeoverEnd c) fun u =>
      (u.ch c).chgOver = none ∧ (u.ch c).outType = (s.ch c).scaleEntry.outType ∧ (u.ch c).held = (s.ch c).parkCode)

/-- R97, R99 with Table 3-10: make joins the two patterns, break leaves the target's and ends a change that was cut short, and the release puts
the target entry in force and closes the loop that the change opened. -/
def Obligations.RangeSteps : Prop := ∀ (s : State) (c : Ch) (r : RangeChange), (s.ch c).rchg = some r →
  (r.made = false → s.ends (.rangeMake c) fun u => s.onlyCh c u ∧ (u.ch c).rchg = some { r with made := true }
      ∧ (u.ch c).pattern = if r.broken then r.entry.pat r.forced else r.oldPat ||| r.entry.pat r.forced)
  ∧ (r.broken = false → s.ends (.rangeBreak c) fun u => s.onlyCh c u ∧
      (u.ch c).rchg = if r.dead then none else some { r with made := true, broken := true })
  ∧ (r.dead = false → (s.ch c).trip.pend = false → s.ends (.rangeRelease c) fun u => (u.ch c).rchg = none ∧ (u.ch c).act = r.target
      ∧ (u.ch c).work = r.entry ∧ (u.ch c).st = (s.ch c).st
      ∧ (r.closes = true → (u.ch c).loop.running = true ∧ (u.ch c).loop.entering = true))

/-- R57, R59, R174: a drain ends in Parked with its latches clear, or in Off where the region goes down; a latch under way takes the channel to
Tripped at the next boundary, with the loop open and the DAC queue empty. -/
def Obligations.DrainAndTrip : Prop := ∀ (s : State) (c : Ch) (tk : Nat),
  let h := s.ch c
  (h.st = .draining → h.safeStep = true → h.trip.pend = false → h.defMode = none → h.defMove = none →
      s.ends (.drainComplete c) fun u => (u.ch c).st = (if h.goOff then .off else .parked)
        ∧ (h.pulse = none → h.pulseAct = false → (u.ch c).trip.latch = 0)
        ∧ (u.ch c).loop.running = false ∧ (u.ch c).queue = [])
  ∧ (h.trip.pend = true → (s.advance tk).clocked c = true → s.ends (.enterTripped tk c) fun u =>
      (u.ch c).st = (if h.goOff then .off else .tripped) ∧ (u.ch c).loop.running = false ∧ (u.ch c).queue = []
      ∧ (u.ch c).trip.pend = false)

/-- R91, R166, R171 to R173, R177, R178, R180, R184: comparator m goes active in a powered channel. With a trip level and no window over it its latch sets,
the first latch gives FIRST and TRIP_TS, TRIP_COUNT rises and the channel is to trip; under a window only BLK_HIT sets. It goes inactive:
ACTIVE and UNRES clear and the latch stays. At the end of a window a comparator that is active, resolved, has a trip level and lies under no
other window latches. A pulse edge that is due turns the pulse gate over. -/
def Obligations.TripRows : Prop := ∀ (s : State) (c : Ch) (m : Cmp) (k : Fin 5) (tk : Nat),
  let s1 := s.advance tk
  let p := (s.ch c).trip
  let b : BitVec 4 := .ofNat 4 (2 ^ m.1)
  let h := s.ch c
  let e := (h.trip.win.get k).till
  (h.st ≠ .off → s.ends (.comparatorActive tk c m) fun u =>
      let q := (u.ch c).trip
      q.active = p.active ||| b ∧ q.unres = p.unres &&& ~~~b
      ∧ (p.blanked m.1 (s1.now c) = true → q.latch = p.latch ∧ q.count = p.count ∧ bit q.sticky (16 + m.1) = true)
      ∧ (p.blanked m.1 (s1.now c) = false → s.hasLevel c m = true → q.latch = p.latch ||| b
        ∧ (p.latch = 0 → q.first.toNat = m.1 ∧ q.tripTs = .ofNat 32 (s1.now c))
        ∧ (bit p.latch m.1 = false → q.count = min 0xFFFF (p.count + 1) ∧ ((s.ch c).st ≠ .tripped → q.pend = true)))
      ∧ (p.blanked m.1 (s1.now c) = false → s.hasLevel c m = false → q.latch = p.latch ∧ bit q.watch m.1 = true))
  ∧ (h.st ≠ .off → s.ends (.comparatorInactive tk c m) fun u => s.onlyCh c u ∧ (u.ch c).trip.active = p.active &&& ~~~b
      ∧ (u.ch c).trip.unres = p.unres &&& ~~~b ∧ (u.ch c).trip.latch = p.latch ∧ (u.ch c).trip.count = p.count)
  ∧ (e ≠ 0 → h.st ≠ .off → bit h.trip.active m.1 = true → bit h.trip.unres m.1 = false → s.hasLevel c m = true →
      h.trip.blanked m.1 e = false → s.ends (.blankingWindowEnd c k) fun u => bit (u.ch c).trip.latch m.1 = true)
  ∧ (∀ r n, h.pulse = some r → r.edge h.pulseAct = some n → n ≤ s1.now c → s.ends (.pulseEdge tk c) fun u =>
      (u.ch c).pulseAct = !h.pulseAct ∧ (h.pulseAct = false → ∃ r', (u.ch c).pulse = some r' ∧ r'.t0 = n))

/-- R80, R81, R83: CLR_N low for at least 20 ns puts every powered channel under the clear override until it is high again; a shorter low than
5 ns does nothing. The override of a channel that does not drain ends once CLR_N is high. -/
def Obligations.ClrRows : Prop := ∀ (s : State) (tk ns : Nat) (c : Ch),
  (20 ≤ ns → s.ends (.clrNFall tk ns) fun u => u.clrTill = max s.clrTill ((s.advance tk).tick + (ns + 1) / 2)
      ∧ ∀ d : Ch, (s.ch d).st ≠ .off → s.rgOn d = true → (u.ch d).clrActive = true ∧ (u.ch d).defMode = none ∧ (u.ch d).defMove = none
        ∧ (u.ch d).st ∉ [.heel, .run, .held])
  ∧ (ns < 5 → s.ends (.clrNFall tk ns) fun u => u.bare = s.bare)
  ∧ ((s.ch c).clrActive = true → (s.advance tk).clrHigh = true → (s.ch c).st ≠ .draining → (s.advance tk).clocked c = true →
      s.ends (.clrOverrideEnd tk c) fun u => (u.ch c).clrActive = false ∧ (u.ch c).st = (s.ch c).st)

/-! ## Samples, records, lines and generators -/

/-- R102, R127, R128, R135: the code of a regular entry, its converter not interleaved and no range change in its samples, is corrected and
enters the entry's interval. The sample that fills the interval of 2^k samples commits the rounded mean and its tick to the entry's result
register; any other leaves every result register as it was. -/
def Obligations.SampleRow : Prop := ∀ (s : State) (c : Ch) (v : Conv) (ts d : Nat) (code : BitVec 16),
  let h := s.ch c
  let x := h.conv v
  let e := x.entry
  let i := x.iv.get e
  let rc : BitVec 3 := .ofNat 3 h.act.1
  let k := s.correct c v code (x.wcfg.ents.get e) h.work rc
  let n := if i.n = 0 then x.knext.get e else i.k
  let acc := i.acc + k.2.1
  let m : Int := i.n + 1
  let sat := i.satf || k.2.2
  let r := regOf v e.1
  s.clocked c = true → s.deliverAt c v ts = some d → x.wts < ts → s.samplesAt c v ts = true →
  h.convA.ops = [] → h.convB.ops = [] → x.wcal = false → x.winj = none → h.convA.wcfg.ilv = false → h.rhist = [] →
  s.ends (.sampleDelivered ts c v code) fun u => ((u.ch c).conv v).wts = ts
    ∧ (∀ j, j ≠ r → (u.ch c).res.get j = h.res.get j)
    ∧ (i.n + 1 = 2 ^ n → ((u.ch c).res.get r).res = resWord ((2 * acc + m).fdiv (2 * m)) rc false sat false false
        ∧ ((u.ch c).res.get r).tstamp = .ofNat 32 ts ∧ ((u.ch c).conv v).iv.get e = .reset)
    ∧ (i.n + 1 ≠ 2 ^ n → (u.ch c).res.get r = h.res.get r
        ∧ ((u.ch c).conv v).iv.get e = { k := n, acc := acc, n := i.n + 1, satf := sat, ts := ts, rc := rc })

/-- R114, R116, R125, R136: an injected sequence begins at its boundary, a SEQ takes effect on a free converter, a quiet converter begins
its pass; the low half of a result register is read with its snapshot or its overwrite report, the high half gives the snapshot once. -/
def Obligations.ConverterRows : Prop := ∀ (s : State) (tk : Nat) (c : Ch) (v : Conv) (r : Fin 40),
  let h := s.ch c
  let x := h.conv v
  let now := (s.advance tk).now c
  let b := s.bndAt c now
  let g := h.res.get r
  let conv := fun (i : Instr) (P : ConvSt → Prop) => s.ends i fun u => s.onlyCh c u ∧ P ((u.ch c).conv v)
    ∧ { u.ch c with convA := h.convA, convB := h.convB } = h
  let read := fun (i : Instr) (q : ResReg) (w : Word) => s.turns i tk fun s =>
    { s.modCh c fun h => { h with res := h.res.set r.1 q r.2 } with lastRead := w.setWidth 64 }
  (x.injPend = true → s.clocked c = true → x.injFrom ≤ now → x.inCal = false → conv (.injSequenceBegin tk c v) fun y =>
      y.injPend = false ∧ y.ops = x.ops ++ [.inj b (if h.ilv then s.nextB c b else b)] ∧ y.wcfg = x.wcfg)
  ∧ (∀ q, x.seqPend = some q → s.clocked c = true → x.seqDue ≤ now → x.seqFree now = true → x.seqJoint = false →
      h.cap.cur = none → h.cap.streaming = false → conv (.seqTakesEffect tk c v) fun y =>
      y.cfg = q ∧ y.mark = s.idxAt c b ∧ y.seqPend = none ∧ y.knext = (q.ents.map fun e => fld e 17 5) ∧ y.ops = x.ops ++ [.seq b q])
  ∧ (∀ t, x.starting = some t → t ≤ now → s.clocked c = true → conv (.quietStartupEnd tk c v) fun y =>
      y.starting = none ∧ y.passTill = s.sTick c (x.cfg.instant x.mark (s.idxAt c b) x.cfg.total))
  ∧ (g.ovr = 0 → read (.resultReadLow tk c r) { g with snap := g.tstamp, flag := true } g.res)
  ∧ (0 < g.ovr → read (.resultReadLow tk c r) { g with ovr := 0 } (.ofNat 32 (256 * g.ovr + 2)))
  ∧ read (.resultReadHigh tk c r) { g with flag := false } (if g.flag then g.snap else g.tstamp)

/-- R225, R231, R233, R237, R238: a record that has reached its last boundary waits for its final header; with it, the record's entry waits for
the Pedigree; a stream goes from chunk to chunk; a mark closes; the count of lost side items is written once there is room. -/
def Obligations.CaptureEnds : Prop := ∀ (s : State) (tk : Nat) (c : Ch),
  let k := (s.ch c).cap
  let now := (s.advance tk).now c
  let seqs := fun (l : List Rec) => l.map fun r => r.seq
  (∀ r, k.cur = some r → r.stream = false → r.last ≤ now → s.turns (.recordEnd tk c) tk fun u => u.modCap c fun k =>
      { k with cur := none, closing := k.closing ++ [r], latest := some r.last, fill := s.nextB c r.last })
  ∧ (∀ r rest, k.closing = r :: rest → s.hubServes = true → s.hub.recovery = false →
      r.len = 0 ∨ s.lastDelivery c r.last r.cfgA r.cfgB ≤ now → s.ends (.recordFinalize tk c) fun u =>
      seqs (u.ch c).cap.closing = seqs rest ∧ ∃ e ∈ u.ped.wait, e.kind = 0x10 ∧ e.lch = c.1 ∧ e.after = .record c r.seq)
  ∧ (k.streaming = true → k.chunkLast ≤ now → s.ends (.chunkEnd tk c) fun u =>
      let k' := (u.ch c).cap
      k'.streaming = true ∧ k'.chunkNo = k.chunkNo + 1 ∧ k'.chunkLast = s.sTick c (s.idxAt c k.chunkLast + 1 + k.chunkm1)
      ∧ seqs k'.closing = seqs k.closing ++ seqs k.cur.toList)
  ∧ (∀ m rest, k.marks = m :: rest → s.lastDelivery c m.last (s.ch c).convA.cfg (s.ch c).convB.cfg ≤ now →
      s.ends (.markSpanClose tk c) fun u =>
      let k' := (u.ch c).cap
      k'.marks = rest ∧ k'.latest = some m.last ∧ k'.fill = s.nextB c m.last ∧ (k.doneMark = m.no → bit k'.sticky 17 = true))
  ∧ (0 < k.sideLost → 16 ≤ s.sideRoom c → s.ends (.sideRoomReturn tk c) fun u =>
      (u.ch c).cap.sideLost = 0 ∧ (u.ch c).cap.swTot = k.swTot + 16)

/-- R208, R215, R219, R220, R259, R264: a marker takes the level that was asked for; a TRG pin its level, and its rising edges count; a
timer expires, a periodic one to expire again, another to stop; a trigger line takes a level, and an edge that SENSE counts meets the
WAIT.TRIG on its line. -/
def Obligations.LineRows : Prop := ∀ (s : State) (tk : Nat) (c : Ch) (n : Cl) (i : Fin 32) (j : Fin 8) (pin : Fin 16) (m1 level fast : Bool)
    (te : Nat),
  let g := (s.ch c).gen
  let cnt := s.trgCnt.get pin
  let o := 0x4080 + 8 * j.1
  let cfg := memWord (s.cl n).tmem o
  let near := (s.advance tk).now c
  (∀ t, (g.mkPend.find? fun p => p.2.1 == m1) = some (t, m1, level) → t ≤ near → s.ends (.markerEdge tk c m1 level) fun u => s.onlyCh c u
      ∧ bit (u.ch c).gen.mkLvl (b1 m1) = level ∧ bit (u.ch c).gen.mkLvl (1 - b1 m1) = bit g.mkLvl (1 - b1 m1)
      ∧ (u.ch c).gen.mkPend.length + 1 = g.mkPend.length)
  ∧ (bit s.trgLvl pin.1 ≠ level → s.ends (.trgEdge tk pin level fast) fun u =>
      u.bare = ({ s with trgLvl := u.trgLvl, trgCnt := u.trgCnt, trgCfg := u.trgCfg }).bare
      ∧ (∀ k : Fin 16, bit u.trgLvl k.1 = if k = pin then level else bit s.trgLvl k.1)
      ∧ (∀ k, k ≠ pin → u.trgCnt.get k = s.trgCnt.get k ∧ u.trgCfg.get k = s.trgCfg.get k)
      ∧ (fast = false → u.trgCnt.get pin = if level then min 0xFFFFFFFF (cnt + 1) else cnt)
      ∧ (fast = false → cnt + 1 < 0xFFFFFFFF → u.trgCfg.get pin = s.trgCfg.get pin)
      ∧ (fast = true → bit (u.trgCfg.get pin) 24 = true))
  ∧ (∀ t, (s.cl n).tmr.get j = some t → s.ends (.clusterTimerExpiry n j) fun u => u.bare = (s.modCl n fun k =>
      if bit cfg 30 then { k with tmr := k.tmr.set j.1 (some (t + s.tmrPer n j.1)) j.2 }
      else { k with tmr := k.tmr.set j.1 none j.2, tmem := memSetWord k.tmem o (cfg &&& 0x7FFFFFFF) }).bare)
  ∧ ((s.rg (rgOfCl n)).on = true → s.lineDriven n i.1 = true → bit (s.cl n).lines i.1 ≠ level →
      s.ends (.triggerLineEdge tk n i level te) fun u => bit (u.cl n).lines i.1 = level
        ∧ (senseTakes (s.tline n i.1) level = false → u.bare = (s.modCl n fun k => { k with lines := (u.cl n).lines }).bare)
        ∧ (senseTakes (s.tline n i.1) level = true → ∀ t w rd l, t.cl = n → (s.th t).wait = some w → w.kind = .trig l rd → l.toNat = i.1 →
          w.hit = none → (u.th t).wait = some { w with hit := some ((s.advance tk).thNow t + 1) }))

/-- R190 to R192, R194, R196, R197, R203, R210: a generator whose start condition has come takes NEXT and plays sample 0; a sample inside an
entry advances the phase by FTW; after an entry's last sample the next entry begins, or the generator starves; Fetch copies the block
that it reads next to its slot. -/
def Obligations.GeneratorEvents : Prop := ∀ (s : State) (tk : Nat) (c : Ch) (block : Nat),
  let g := (s.ch c).gen
  let now := (s.advance tk).now c
  let th := (g.theta + g.entry.ftw) % 2 ^ 48
  let e := g.ent + 1
  let x := s.slotEntry c e
  let row := fun (P : GenSt → Prop) => s.ends (.generatorSample c) fun u => P (u.ch c).gen
  (∀ a t, g.armedAt = some a → s.startAt c a = some (t, false) → t ≤ now → (s.ch c).genReady = true → s.rgOn c = true →
      g.nextSize = (s.sizeFor c).1 → g.nextReady = true → s.ends (.generatorStart tk c) fun u =>
      let g' := (u.ch c).gen
      g'.running = true ∧ g'.cur = g.next ∧ g'.next = none ∧ g'.t0 = max t g.readyAt ∧ g'.m = g.rateM ∧ g'.n = g.rateN ∧ g'.j = 1
      ∧ g'.curSlot = !g.curSlot)
  ∧ (g.running = true → g.cur.isSome = true → g.starving = false → 0 < g.left → row fun g' =>
      g'.j = g.j + 1 ∧ g'.left = g.left - 1 ∧ g'.theta = th ∧ g'.entry = g.entry ∧ g'.ent = g.ent
      ∧ g'.xs.head? = some (genShape g.entry th).1)
  ∧ (∀ q, g.running = true → g.cur = some q → g.starving = false → g.left = 0 → g.entry.waitt = false → g.entry.le = false → e ≤ q.len →
      (g.resident e = true → row fun g' => g'.j = g.j + 1 ∧ g'.ent = e ∧ g'.entry = x ∧ g'.left = max 1 x.dur - 1
        ∧ g'.theta = x.phase * 2 ^ 32 ∧ g'.xs.head? = some (genShape x (x.phase * 2 ^ 32)).1)
      ∧ (g.resident e = false → row fun g' => g'.j = g.j + 1 ∧ g'.starving = true ∧ bit g'.sticky 2 = true ∧ g'.ent = e))
  ∧ (∀ q, g.next = some q → s.rgOn c = true → block = g.nextLoaded → block < q.need g.nextSize →
      s.ends (.fetchBlockArrival tk c true block) fun u => (u.ch c).gen.nextLoaded = block + 1
        ∧ putBytes (s.cl (clOf c)).tmem (u.cl (clOf c)).tmem
          (slotOff c g.nextP (max 1 g.nextSize) + block * 256 % max 1 g.nextSize * 16)
          (memBytes s.acq (16 * q.base + 4096 * block) (16 * min 256 (q.len + 1 - 256 * block))))
  ∧ (∀ q, g.cur = some q → s.rgOn c = true → g.wantsBlock q = true → block = g.curLoaded % q.blocks →
      s.ends (.fetchBlockArrival tk c false block) fun u => (u.ch c).gen.curLoaded = g.curLoaded + 1
        ∧ putBytes (s.cl (clOf c)).tmem (u.cl (clOf c)).tmem
          (slotOff c g.curP (max 1 g.size) + g.curLoaded * 256 % max 1 g.size * 16)
          (memBytes s.acq (16 * q.base + 4096 * block) (16 * min 256 (q.len + 1 - 256 * block))))

/-! ## Calibration and Seasoning -/

/-- R309, R322, R325, R327, R330, R337, R338: the engine takes the first step that can be placed; at its end its converter and the output are free
and the measurement stands with its request; the hub acknowledges a result under the next generation with its Pedigree entry; a request
that has not ended in time finishes with TIMEOUT, and so does a system calibration measurement,
which stores nothing; a Seasoning cycle begins and ends. -/
def Obligations.CalibrationEvents : Prop := ∀ (s : State) (tk : Nat) (r : Rg) (c : Ch) (m : StepMeas) (q : EngReq),
  let s1 := s.advance tk
  let g := s.rg r
  let h := slotCh r q.slot
  let here := q.slot = slotOf16 c ∧ q.szn = false ∧ rgOf c = r
  (∀ rest st b e, g.on = true → g.clkOk = true → g.refOk = true → g.busy = false → g.fwPend = false → g.queue = q :: rest →
      q.next? = some st → s1.placeStep r q st = some (b, e) → s.ends (.calStepStart tk r) fun u =>
      (u.rg r).busy = true ∧ (u.rg r).kind = st.kind ∧ (u.rg r).stepSlot = q.slot ∧ (u.rg r).stepEnd = e ∧ (u.rg r).queue = g.queue
      ∧ (st.out = true → (u.ch h).calBus = true) ∧ (∀ v, st.conv = some v → ((u.ch h).conv v).inCal = true))
  ∧ (g.busy = true → g.stepEnd ≤ s1.dt (dieOfRg r) → s.ends (.calStepEnd tk r m) fun u =>
      (u.rg r).busy = false
      ∧ (g.stepSlot = q.slot → q.slot < 16 → (u.ch h).calBus = false ∧ (u.ch h).convA.inCal = false ∧ (u.ch h).convB.inCal = false)
      ∧ (g.queue = [q] → g.stepSlot = q.slot → q.szn = false → g.kind < 3 → q.run < 2 → q.idx + 1 < q.steps.length →
        g.fwPend = false → (u.rg r).queue =
        [{ q with meas := q.meas ++ [m], refs := q.refs ++ [g.stepRef], idx := q.idx + 1 }]))
  ∧ (∀ codes resid x es rest, g.queue = q :: rest → here → q.result = some (codes, resid, x, es) → q.acked = false →
      (s.die.get (dieOfCh c)).linkUp = true → s.hub.ready = true → s.hub.paused = false → s.pedOpen = true →
      s.ends (.calAck tk c) fun u => u.calGen = s.calGen + 1 ∧ u.ped.seq = s.ped.seq + 1
        ∧ (∃ e, u.ped.entries = s.ped.entries ++ [e] ∧ e.kind = 7 ∧ e.calGen = s.calGen + 1)
        ∧ (u.rg r).queue.head? = some { q with acked := true }
        ∧ (q.target ≠ 4 → ∀ i, (u.ph c).target.get i = codes.getD i.1 ((s.ph c).trims.get i)))
  ∧ (∀ rest, g.queue = q :: rest → here → q.acked = false → q.target < 8 →
      q.t0 + max 1 (fld g.calcfg 20 12) * 2 ^ 20 ≤ s1.now c → s.ends (.calTimeout tk c) fun u =>
      (u.rg r).queue = (rest.filter fun x => !(x.slot == q.slot && !x.szn)) ∧ (u.ch c).cal.req = false
      ∧ fld (u.ch c).cal.outcome 24 8 = 0x28 ∧ (u.ph c).trims = (s.ph c).trims)
  ∧ (g.on = true → g.cycleOn = false → g.cycleAt = none → s.turns (.seasoningCycleStart tk r) tk fun u => u.modRg r fun g => { g with
      cycleOn := true, cycleAt := some s1.tick, cycCfg := g.szncfg, cycCh := g.sznch, fresh := []
      queue := g.queue ++ (((List.range 16).filter fun k => bit g.sznch k).map fun k => sznReq k (s1.dt (dieOfRg r)))
        ++ [sznReq 16 (s1.dt (dieOfRg r))] })
  ∧ (g.cycleOn = true → (∀ x ∈ g.queue, x.szn = false) → s.ends (.seasoningCycleEnd tk r) fun u =>
      (u.rg r).cycleOn = false ∧ (u.rg r).cycle = (g.cycle + 1) % 65536 ∧ (u.rg r).queue = g.queue)
  ∧ (∀ x, (s.ch c).cal.meas = some x → x.until_ ≤ s1.now c → s.ends (.syscalTimeout tk c) fun u =>
      (u.ch c).cal.meas = none ∧ fld (u.ch c).cal.outcome 24 8 = 0x28 ∧ (u.ch c).cal.zero = (s.ch c).cal.zero
      ∧ (u.ch c).cal.full = (s.ch c).cal.full ∧ u.bare.chan = (s.modCh c fun h => { h with cal := (u.ch c).cal }).chan)

/-! ## Packets

Every packet row below is one of an item that executes now (`ripe`, R381, R382). -/

/-- R368, R372, R373, R384: NOP, and the ring packets. -/
def Obligations.RingPackets : Prop := ∀ (s : State) (p : Pkt),
  let k := p.ctx
  let r := argRing p
  let g := s.ring k r
  let cfg := pay32 p 24
  let irq := pay32 p 28
  let win := fld cfg 0 22
  let good := ringArgs (pay64 p 0) (pay64 p 8) (pay64 p 16) cfg = true ∧ 2049 ≤ win ∧ fld irq 0 6 = 0
  let fails := fun (i : Instr) (code : Byte) => s.answers i p 1 code 0 0 [] (s.became p.tk id)
  let left := (s.items.any fun q => q.ctx == k && q.ring == r) || s.cqWait.any fun o => o.ctx == k && o.ring == r
  (s.ripe p 0x01 → s.answers (.nop p) p 0 0 0 0 [] (s.became p.tk id))
  ∧ (s.ripe p 0x04 → s.answers (.ringQuery p) p 0 0 0 0 g.bytes (s.became p.tk id))
  ∧ (s.ripe p 0x02 →
      (s.mem.trained = false ∨ ¬ good → fails (.ringCreate p) 0x45)
      ∧ (s.mem.trained = true → good → g.st ≠ .closed → fails (.ringCreate p) 0x46)
      ∧ (s.mem.trained = true → good → g.st = .closed → p.ring ≠ r → s.answers (.ringCreate p) p 0 0 0 0 [] fun u =>
        s.became p.tk (fun s => s.touchCache k r) u ∧ let n := u.ring k r
        n.st = .opened ∧ n.sqBase = pay64 p 0 ∧ n.cqBase = pay64 p 8 ∧ n.tailWb = pay64 p 16 ∧ n.sqLog = fld cfg 27 5
        ∧ n.cqLog = fld cfg 22 5 ∧ n.win = win ∧ n.limit = .ofNat 32 win ∧ n.sqTail = 0 ∧ n.sqHead = 0 ∧ n.cqHead = 0
        ∧ n.irqEn = bit irq 31 ∧ n.vec = irq.extractLsb' 26 5 ∧ n.modCnt = fld irq 18 8 ∧ n.modT = fld irq 10 8 ∧ n.weight = fld irq 6 4))
  ∧ (s.ripe p 0x03 →
      (r = 0 ∨ g.st = .closed → fails (.ringDestroy p) 0x45)
      ∧ (r ≠ 0 → p.ring ≠ r → g.st = .opened → left = false → s.answers (.ringDestroy p) p 0 0 (g.sqTail - g.sqHead) 0 [] fun u =>
        s.became p.tk id u ∧ u.ring k r = Ring.closed)
      ∧ (r ≠ 0 → p.ring ≠ r → g.st = .faulted → s.answers (.ringDestroy p) p 0 0 (g.sqTail - g.sqHead) 0 [] fun u =>
        s.became p.tk id u ∧ u.ring k r = Ring.closed)
      ∧ (r ≠ 0 → g.st = .opened → left = true → s.ends (.ringDestroy p) fun u =>
        (u.ring k r).st = .draining ∧ u.items = s.items ∧ u.cqWait = s.cqWait))

/-- R268, R384, R386, R396, R424: LOAD writes its payload to the memory that it names, MEMRD and RESULTS return what stands there, and READOUT
returns a range of a ring and frees up to its end; a range outside the space or the written part of the ring fails and does nothing. -/
def Obligations.MemoryPackets : Prop := ∀ (s : State) (p : Pkt),
  let s1 := s.advance p.tk
  let n := destCl p.hdr
  let sp := fld p.hdr.arg0 0 2
  let o := fld p.hdr.arg0 32 32
  let base := (s.window p.ctx).1 + o
  let len := p.hdr.arg1.toNat
  let gives := fun (pay : List Byte) (f : State → State) => s.answers (.memrd p) p 0 0 0 0 pay (s.became p.tk f)
  let c := destCh p.hdr
  let side := bit p.hdr.arg0 32
  let d := if side then s.sring c else s.dring c
  let cap := (s.ch c).cap
  let f := if side then cap.sfTot else cap.fTot
  let w := if side then cap.swTot else cap.wTot
  let a := p.hdr.arg1.toNat
  let m := fld p.hdr.arg0 0 17
  let rel := (a + d.2 - f % d.2) % d.2
  (s.ripe p 0x10 →
      (s.spaceOk p p.payload.length true = false → s.answers (.load p) p 1 0x41 0 0 [] (s.became p.tk id))
      ∧ (s.spaceOk p p.payload.length true = true →
        (sp = 0 → s.answers (.load p) p 0 0 0 0 [] fun u => putBytes (s.cl n).imem (u.cl n).imem o p.payload
          ∧ s.became p.tk (fun s => s.modCl n fun k => { k with imem := (u.cl n).imem }) u)
        ∧ (sp = 1 → s.answers (.load p) p 0 0 0 0 [] fun u => putBytes (s.cl n).dmem (u.cl n).dmem o p.payload
          ∧ s.became p.tk (fun s => s.modCl n fun k => { k with dmem := (u.cl n).dmem }) u)
        ∧ (sp = 2 → s.answers (.load p) p 0 0 0 0 [] (s.became p.tk fun s => s.loadTable n o (s1.dt (dieOfCl n)) p.payload))
        ∧ (sp = 3 → s.mem.bad = [] → base + p.payload.length ≤ 2 ^ 37 → s.answers (.load p) p 0 0 0 0 [] fun u =>
          putBytes s.acq u.acq base p.payload ∧ s.became p.tk (fun s => { s.touchMem with acq := u.acq }) u)))
  ∧ (s.ripe p 0x14 →
      (len % 32 ≠ 0 ∨ len < 32 ∨ 65536 < len ∨ s.spaceOk p len false = false →
        s.answers (.memrd p) p 1 0x41 0 0 [] (s.became p.tk id))
      ∧ (len % 32 = 0 → 32 ≤ len → len ≤ 65536 → s.spaceOk p len false = true →
        (sp = 0 → gives (memBytes (s.cl n).imem o len) id) ∧ (sp = 1 → gives (memBytes (s.cl n).dmem o len) id)
        ∧ (sp = 2 → gives (s1.tableBytes n o (len / 4)) id)
        ∧ (sp = 3 → s.mem.bad = [] → gives (memBytes s.acq base len) State.touchMem)))
  ∧ (s.ripe p 0x21 → s.answers (.results p) p 0 0 0 0
      ((s.ch c).res.toList.flatMap fun r => leBytes 4 r.res.toNat ++ leBytes 4 r.tstamp.toNat) (s.became p.tk id))
  ∧ (s.ripe p 0x30 → 0 < d.2 →
      (m % 32 ≠ 0 ∨ 65536 < m ∨ a % 32 ≠ 0 ∨ d.2 ≤ a ∨ (0 < m ∧ w < f + rel + m) →
        s.answers (.readout p) p 1 0x42 (.ofNat 32 (f % d.2)) (.ofNat 64 (w % d.2)) [] (s.became p.tk id))
      ∧ (m % 32 = 0 → m ≤ 65536 → a % 32 = 0 → a < d.2 → m = 0 ∨ f + rel + m ≤ w → s.mem.bad = [] →
        let f' := if bit p.hdr.arg0 33 ∧ f + rel + m ≤ w then f + rel + m else f
        s.answers (.readout p) p 0 0 (.ofNat 32 (f' % d.2)) (.ofNat 64 (w % d.2))
          ((List.range m).map fun i => memByte s.acq (d.1 + (f + rel + i) % d.2))
          (s.became p.tk fun s => (if 0 < m then s.touchMem else s).modCap c fun k => if side then { k with sfTot := f' } else { k with fTot := f' })))

/-- R269, R271, R384, R385: START starts the threads that it names, STOP halts them, POKE sets HOST_POKE; a CHCMD has the effect and the status
of the channel instruction that it carries, and no other word. -/
def Obligations.ThreadPackets : Prop := ∀ (s : State) (p : Pkt),
  let s1 := s.advance p.tk
  let n := destCl p.hdr
  let named := fun (t : Thr) => t.cl = n ∧ bit p.hdr.arg0 t.k.1 = true
  let busy := fun (t : Thr) => (s.th t).busy = true
  let bits := fun (f : Thr → Bool) => (thrsOf n).foldl (fun a t => a + if bit p.hdr.arg0 t.k.1 && f t then 2 ^ t.k.1 else 0) 0
  let runs := bits fun t => (s.th t).busy
  let new := bits fun t => !(s.th t).busy
  let c := destCh p.hdr
  let z := zword (p.hdr.arg0.extractLsb' 0 32) 0
  let v := p.hdr.arg0.extractLsb' 32 32
  let s2 := s1.tripFirst c
  let cmd := fun (g : State → State) => s.answers (.chcmd p) p 0 0 0 0 [] fun u => u.apart = (g s2).apart
  (s.ripe p 0x11 → (s.rg (rgOfCl n)).on = true →
      s.answers (.start p) p (if runs = 0 then 0 else 1) (if runs = 0 then 0 else 0x47) (.ofNat 32 (new + 65536 * runs)) 0 [] fun u =>
      (∀ t, named t → ¬ busy t → (u.th t).st = .running ∧ (u.th t).pc = fld (pay32 p (8 * t.k.1)) 0 14
        ∧ (u.th t).gr 1 = pay32 p (8 * t.k.1 + 4) ∧ (∀ q : BitVec 4, q ≠ 1 → (u.th t).gr q = 0) ∧ (u.th t).stack = [] ∧ (u.th t).last = 0
        ∧ (u.th t).cause = 0 ∧ (u.th t).wait = none ∧ (u.th t).from_ = some (p.ctx, p.ring)
        ∧ s1.thNow t + 9 ≤ (u.th t).ready ∧ ∀ c, thCh t = some c → (u.ch c).frozen = false)
      ∧ (∀ t, t.cl = n → ¬ (named t ∧ ¬ busy t) → u.th t = s.th t) ∧ ∀ n', n' ≠ n → u.cl n' = s.cl n')
  ∧ (s.ripe p 0x12 → s.answers (.stop p) p 0 0 0 0 [] fun u =>
      (∀ t, named t → busy t → (u.th t).st = .halted ∧ (u.th t).cause = 0x10 ∧ (u.th t).wait = none
        ∧ (u.th t).g = (s.th t).g ∧ (u.th t).pc = (s.th t).pc ∧ ∀ c, thCh t = some c → (s.ch c).st ≠ .off → (u.ch c).frozen = true)
      ∧ ∀ t, ¬ (named t ∧ busy t) → u.th t = s.th t)
  ∧ (s.ripe p 0x13 → s.answers (.poke p) p 0 0 0 0 [] fun u =>
      (∀ t, named t → (u.th t).evt = (s.th t).evt ||| 0x1000000 ∧ (u.th t).g = (s.th t).g ∧ (u.th t).st = (s.th t).st)
      ∧ ∀ t, ¬ named t → u.th t = s.th t)
  ∧ (s.ripe p 0x20 →
      (chcmdInstr c (p.hdr.arg0.extractLsb' 0 32) = none → s.answers (.chcmd p) p 1 0x40 0 0 [] (s.became p.tk id))
      ∧ (∀ i, chcmdInstr c (p.hdr.arg0.extractLsb' 0 32) = some i →
        ((∃ t w, i = .forceSetpoint t w) → (s2.ch c).st ≠ .off →
          cmd fun s => s.modCh c fun h => { h with setpoint := sx 24 v.toNat })
        ∧ ((∃ t w, i = .forceClearcode t w) → (s2.ch c).st ≠ .off →
          cmd fun s => s.modCh c fun h => { h with clearCode := v.setWidth 18 })
        ∧ ((∃ t w, i = .forceBase t w) → (s2.ch c).st ≠ .off →
          cmd fun s => s.modCh c fun h => { h with base := sx 24 v.toNat })
        ∧ ((∃ t w, i = .calRes t w) → s.answers (.chcmd p) p 0 0 (s.ch c).cal.word 0 [] (s.became p.tk id))
        ∧ ((∃ t w, i = .read t w) → s.answers (.chcmd p) p 0 0 0
          (((s.ch c).resReg (ff z 0 6)).tstamp ++ ((s.ch c).resReg (ff z 0 6)).res) [] (s.became p.tk id))))

/-- R320, R336, R348, R354: REF_ASSIGN, PAIR_REINSTALL, SZN_REPORT and REMAP, with the Pedigree entries that they call for. -/
def Obligations.CalibrationPackets : Prop := ∀ (s : State) (p : Pkt),
  let r := destRg p.hdr
  let c := destCh p.hdr
  let v := sfld p.hdr.arg0 0 24
  let item := p.payload.take 32
  let triple := leNat ((item.drop 1).take 1)
  let i := tripleIdx (triple % 2 == 1) (triple / 2 % 2 == 1) (.ofNat 3 (triple / 4))
  let pair := (sx 32 (pay32 p 4).toNat, (pay32 p 8).toNat)
  let good := item.drop 16 = pairTag (item.take 16) ∧ leNat (item.take 1) = (s.physOf c).1
  let a := fld p.hdr.arg0 0 7
  let b := fld p.hdr.arg0 8 7
  let from_ := fun (u : State) (kind : Byte) => ∃ e ∈ u.ped.wait, e.kind = kind ∧ e.tick = (s.advance p.tk).tick
  (s.ripe p 0x40 → s.answers (.refAssign p) p 0 0 0 0 [] fun u => from_ u 0x0A ∧
      s.became p.tk (fun s => { s.modRg r fun g => { g with refAssign := v } with ped := { s.ped with wait := u.ped.wait } }) u)
  ∧ (s.ripe p 0x41 →
      (¬ good → s.answers (.pairReinstall p) p 1 0x4E 0 0 [] (s.became p.tk id))
      ∧ (good → s.answers (.pairReinstall p) p 0 0 0 0 [] fun u => from_ u 0x09 ∧ u.calGen = s.calGen ∧
        s.became p.tk (fun s => { s.modPh c fun h => { h with
          pairs := h.pairs.set i.1 pair, copies := h.copies.set i.1 (some (pair.1, pair.2, (pay32 p 12).toNat)) } with
          ped := { s.ped with wait := u.ped.wait } }) u))
  ∧ (s.ripe p 0x42 → s.answers (.sznReport p) p 0 0 0 0
      ((s.reportPaths p.ctx (if fld p.hdr.dest 16 8 = 255 then none else some r)).flatMap fun x =>
        (s.advance p.tk).reportEntry x.1 x.2.1 x.2.2) (s.became p.tk id))
  ∧ (s.ripe p 0x43 → ∀ (ha : a < 96) (hb : b < 96), let x : Ch := ⟨a, ha⟩
      let y : Ch := ⟨b, hb⟩
      let tripped := (s.ch x).st = .tripped ∨ (s.ch y).st = .tripped
      let rest := (s.th (thOf x)).busy = false ∧ (s.th (thOf y)).busy = false ∧ (s.ch x).st = .parked ∧ (s.ch y).st = .parked
      (clOf x ≠ clOf y → s.answers (.remap p) p 1 0x48 0 0 [] (s.became p.tk id))
      ∧ (clOf x = clOf y → tripped → s.answers (.remap p) p 1 0x4A 0 0 [] (s.became p.tk id))
      ∧ (clOf x = clOf y → ¬ tripped → ¬ rest → s.answers (.remap p) p 1 0x49 0 0 [] (s.became p.tk id))
      ∧ (clOf x = clOf y → rest → s.answers (.remap p) p 0 0 0 0 [] fun u => from_ u 0x0E
        ∧ u.physOf x = s.physOf y ∧ u.physOf y = s.physOf x ∧ (∀ c, c ≠ x → c ≠ y → u.physOf c = s.physOf c)
        ∧ (u.ch x).trip.active = (s.ch y).trip.active ∧ (u.ch y).trip.active = (s.ch x).trip.active
        ∧ (u.ph x).planPend = true ∧ (u.ph y).planPend = true))

/-- R350, R351, R352: a part of an image goes to the slot that does not run, and the last part is judged with the whole image; the other slot is
activated, switched to, and kept when its firmware serves again, or given up after 200 ms. -/
def Obligations.FirmwareRows : Prop := ∀ (s : State) (p : Pkt) (tk : Nat),
  let b := !s.fw.slot
  let o := fld p.hdr.arg0 0 32
  let l := p.payload.take (8388608 - o)
  let m := memSetBytes (s.fw.img b) o l
  let good := s.imgValid m = true ∧ fld p.hdr.arg1 32 32 = imgBytes m
  let a := bit p.hdr.arg0 0
  let loaded := fun (u : State) => putBytes (s.fw.img b) (u.fw.img b) o l ∧ u.fw.img (!b) = s.fw.img (!b)
    ∧ u.fw.valid (!b) = s.fw.valid (!b) ∧ s.became p.tk (fun s => { s with fw := { s.fw with
      imgA := u.fw.imgA, imgB := u.fw.imgB, validA := u.fw.validA, validB := u.fw.validB, loadPos := o + p.payload.length } }) u
  let bars := (a = s.fw.slot ∧ s.hub.recovery = false) ∨ s.fw.valid a = false
  let now := (s.advance tk).tick
  (s.ripe p 0x44 →
      (bit p.hdr.arg1 0 = false → s.answers (.fwLoad p) p 0 0 0 0 [] fun u => loaded u ∧ u.fw.valid b = if o = 0 then false else s.fw.valid b)
      ∧ (bit p.hdr.arg1 0 = true → good → s.answers (.fwLoad p) p 0 0 0 0 [] fun u => loaded u ∧ u.fw.valid b = true)
      ∧ (bit p.hdr.arg1 0 = true → ¬ good → s.answers (.fwLoad p) p 1 0x4D 0 0 [] fun u =>
        loaded u ∧ u.fw.valid b = if o = 0 then false else s.fw.valid b))
  ∧ (s.ripe p 0x45 →
      (bars → s.answers (.fwActivate p) p 1 0x4B 0 0 [] (s.became p.tk id))
      ∧ (¬ bars → s.fw.activating = true → s.answers (.fwActivate p) p 1 0x4C 0 0 [] (s.became p.tk id))
      ∧ (¬ bars → s.fw.activating = false → s.hub.recovery = false → s.answers (.fwActivate p) p 0 0 0 0 []
        (s.became p.tk fun s => { s with fw := { s.fw with activating := true, switched := false } }))
      ∧ (¬ bars → s.fw.activating = false → s.hub.recovery = true → s.answers (.fwActivate p) p 0 0 0 0 []
        (s.became p.tk fun s => { s with fw := { s.fw with slot := a }, hub := { s.hub with recovery := false, bootCause := 4 } })))
  ∧ (s.fw.activating = true → s.fw.switched = false → s.hub.ready = true → s.items = [] → s.turns (.fwSwitch tk) tk fun s => { s with
      fw := { s.fw with slot := b, switched := true, switchAt := now }, sec := { s.sec with svn := imgSvn (s.fw.img b) }
      hub := { s.hub with paused := true } })
  ∧ (s.fw.activating = true → s.fw.switched = true → s.pedOpen = true → 1 < s.pedFree → s.ends (.fwActivated tk) fun u =>
      u.fw = { s.fw with gen := (s.fw.gen + 1) % 2 ^ 32, activating := false, switched := false } ∧ u.hub.paused = false
      ∧ ∃ es e, u.ped.entries = s.ped.entries ++ es ++ [e] ∧ e.kind = 4 ∧ e.fwGen = (s.fw.gen + 1) % 2 ^ 32
        ∧ es.length = if s.hub.paused then 1 else 0)
  ∧ (s.fw.switched = true → s.hub.paused = true → s.fw.switchAt + 100000000 ≤ now → s.ends (.fwReverted tk) fun u =>
      (∃ e ∈ u.ped.wait, e.kind = 5) ∧ u.bare = ({ s with
        fw := { s.fw with slot := b, activating := false, switched := false, reverted := true }
        sec := { s.sec with svn := imgSvn (s.fw.img b) }, hub := { s.hub with paused := false }
        ped := { s.ped with wait := u.ped.wait } }).bare)

/-- R469, R470, R475, R477, R478, R480, R484, with Table 19-4: the power and clock packets, with their security results in RES0, and R63:
the per-channel reset. -/
def Obligations.PowerPackets : Prop := ∀ (s : State) (p : Pkt) (i : Instr),
  let s1 := s.advance p.tk
  let target := fld p.hdr.arg0 0 2
  let result := fun (i : Instr) (n : Word) => s.answers i p 0 0 n 0 [] (s.became p.tk id)
  let goes := fun (u : State) (r : Rg) => (s.rg r).on = true → (u.rg r).seqDown = true ∧ ∀ c ∈ chsOfRg r,
    (u.ch c).st = .off ∨ ((u.ch c).st = .draining ∧ (u.ch c).goOff = true)
  let all := List.finRange 6
  let up := regionsOf (fld p.hdr.arg0 0 6)
  let down := regionsOf (fld p.hdr.arg0 8 6)
  let both := ∃ r, r ∈ up ∧ r ∈ down
  let new := up.filter fun r => !(s.rg r).on
  let r := destRg p.hdr
  let x := (fld p.hdr.arg0 0 16, fld p.hdr.arg0 16 16)
  let above := clkAbove x ((s.rg r).maxP, (s.rg r).maxQ) = true
  let idle := (s.rg r).seqDown = false ∧ (s.rg r).relock = none ∧ s.rgBusy [r] = false
    ∧ ∀ c ∈ chsOfRg r, (s.ch c).st = .parked ∨ (s.ch c).st = .tripped
  let c := destCh p.hdr
  let h := (s1.tripFirst c).ch c
  let ms := fld p.hdr.arg0 0 32
  (s.ripe p 0x46 → i = .pwrStateDeepSleep p ∨ i = .pwrStateStandby p →
      (target < 2 → s.seqRuns = true → result i 1)
      ∧ (target = 0 → s.seqRuns = false → s.aon.pstate ≠ .standby → result i 3)
      ∧ (target = 0 → s.seqRuns = false → s.aon.pstate = .standby → s.answers i p 0 0 0 0 []
        (s.became p.tk fun s => { s with aon := { s.aon with deepPend := true } }))
      ∧ (target = 1 → s.seqRuns = false → s.rgBusy all = true → result i 1)
      ∧ (target = 1 → s.seqRuns = false → s.rgBusy all = false → s.answers i p 0 0 0 0 [] fun u => ∀ r, goes u r)
      ∧ (2 ≤ target → result i 4))
  ∧ (s.ripe p 0x47 → i = .regionPwrUp p ∨ i = .regionPwrDown p →
      (both → result i 4)
      ∧ (¬ both → s.seqRuns = true → result i 1)
      ∧ (¬ both → s.seqRuns = false → s.hotLock = true → new ≠ [] → result i 5)
      ∧ (¬ both → s.seqRuns = false → s.hotLock = false ∨ new = [] → s.rgBusy down = true → result i 1)
      ∧ (¬ both → s.seqRuns = false → s.rgBusy down = false → new = [] → s.answers i p 0 0 0 0 [] fun u => ∀ r ∈ down, goes u r)
      ∧ (¬ both → s.seqRuns = false → s.rgBusy down = false → new ≠ [] → s.hotLock = false → s.rgSupBad = 0 → s.ends i fun u =>
        u.items = s.items ∧ (∀ r ∈ new, (u.rg r).seqUp = true) ∧ (∀ r ∈ down, goes u r) ∧ ∀ r, (u.rg r).on = (s.rg r).on))
  ∧ (s.ripe p 0x48 →
      (clockOk x.1 x.2 = false → result (.sclkSet p) 2)
      ∧ (clockOk x.1 x.2 = true → above → s.answers (.sclkSet p) p 1 0x50 0 0 [] (s.became p.tk id))
      ∧ (clockOk x.1 x.2 = true → ¬ above → (s.rg r).on = false → result (.sclkSet p) 3)
      ∧ (clockOk x.1 x.2 = true → ¬ above → (s.rg r).on = true → ¬ idle → result (.sclkSet p) 1)
      ∧ (clockOk x.1 x.2 = true → ¬ above → (s.rg r).on = true → idle → s.ends (.sclkSet p) fun u => u.items = s.items
        ∧ (u.rg r).relock = some x ∧ (u.rg r).clkOk = false ∧ ∀ c, (u.ch c).st = (s.ch c).st))
  ∧ (s.ripe p 0x49 → s.answers (.chReset p) p 0 0 0 0 [] fun u =>
      (h.st = .off → (u.ch c).modeStored = none ∧ (u.ch c).st = .off)
      ∧ (h.st ≠ .off → (u.ch c).mode = 0 ∧ (u.ch c).modePend = none ∧ (u.ch c).defMode = none ∧ (u.ch c).defMove = none
        ∧ (∀ k : Fin 67, (u.ch c).coef.get k = coefReset k.1) ∧ (u.ch c).loop.heelSlew = 16 ∧ (u.ch c).frozen = false
        ∧ (u.ch c).setpoint = h.setpoint
        ∧ (u.ch c).st = if h.st = .heel ∨ h.st = .run ∨ h.st = .held then .draining else h.st))
  ∧ (s.ripe p 0x4A → s.answers (.wakeAt p) p 0 0 0 0 [] (s.became p.tk fun s => { s with aon := { s.aon with
      wakeAt := if ms = 0 then none else some (s.tick + ms * 500000) } }))

/-- R15, R24, R470, R477, R478, R484: a region comes up with its channels Parked at their reset values, goes down with its threads Idle, takes a
new sample clock, loses its clock or its reference with its channels in Held, finds its clock again, and follows its thermal sensor. -/
def Obligations.RegionEvents : Prop := ∀ (s : State) (tk : Nat) (r : Rg) (unres act : BitVec 64) (power : Bool) (temp : Int),
  let g := s.rg r
  let held := fun (u : State) => ∀ c ∈ chsOfRg r,
    (u.ch c).st = if (s.ch c).st = .off ∨ (s.ch c).st = .tripped then (s.ch c).st else .held
  let x := s.upClock r
  (s.upFirst = some r → s.rgSupBad = 0 → s.hotLock = false → s.ends (.regionUp tk r unres act) fun u =>
      (u.rg r).on = true ∧ (u.rg r).seqUp = false ∧ (u.rg r).clkOk = true ∧ (u.rg r).refOk = true ∧ ((u.rg r).p, (u.rg r).q) = x
      ∧ u.aon.sclk.get r = x ∧ ∀ c ∈ chsOfRg r, (u.ch c).st = .parked ∧ (u.ch c).mode = ((s.ch c).modeStored.getD 0)
        ∧ (u.ch c).coef = Channel.reset.coef ∧ (u.ch c).setpoint = 0 ∧ (u.ch c).vlimH = 8388607 ∧ (u.ch c).vlimL = -8388608
        ∧ (u.ch c).trip.latch = 0 ∧ (u.ph c).trims = (s.ph c).aonTrims)
  ∧ (g.seqDown = true → (∀ c ∈ chsOfRg r, (s.ch c).st = .off) → s.ends (.regionDown tk r) fun u =>
      (u.rg r).on = false ∧ (u.rg r).clkOk = false ∧ (u.rg r).seqDown = false
      ∧ ∀ n ∈ clsOfRg r, (∀ k, (u.cl n).thr.get k = Thread.reset) ∧ (u.cl n).imem = (s.cl n).imem ∧ (u.cl n).dmem = (s.cl n).dmem)
  ∧ (∀ y, g.relock = some y → s.ends (.sclkLocked tk r) fun u =>
      ((u.rg r).p, (u.rg r).q) = y ∧ (u.rg r).clkOk = true ∧ (u.rg r).relock = none ∧ u.aon.sclk.get r = y
      ∧ ∀ p ∈ s.items, p.hdr.type = 0x48 → destRg p.hdr = r → s.stage p = 1 → s.completed u p 0 0 0 0 [])
  ∧ (g.on = true → g.clkOk = true → s.ends (.sampleClockLost tk r power) fun u => (u.rg r).clkOk = false ∧ held u)
  ∧ (g.on = true → g.clkOk = false → g.relock = none → s.rgSupBad = 0 → g.seqDown = false → s.ends (.sampleClockReturn tk r) fun u =>
      (u.rg r).clkOk = true ∧ ∀ c, (u.ch c).st = (s.ch c).st)
  ∧ (g.on = true → g.refOk = true → s.ends (.refFault tk r) fun u => (u.rg r).refOk = false ∧ held u)
  ∧ (g.on = true → s.hotLock = false → temp < 120 → s.turns (.thermalSample tk r temp) tk fun s => s.modRg r fun g => { g with
      temp := temp, warned := decide (105 ≤ temp), cool := g.cool || decide (temp < 95) })
  ∧ (g.on = true → g.seqDown = false → 120 ≤ temp → s.ends (.thermalSample tk r temp) fun u =>
      u.hotLock = true ∧ (∀ x, (s.rg x).on = true → (u.rg x).seqDown = true) ∧ ∀ t, (u.th t).busy = false)
  ∧ (s.hotLock = true → temp < 95 → (∀ x, x ≠ r → (s.rg x).cool = true) → s.ends (.thermalSample tk r temp) fun u => u.hotLock = false)

/-- R446, R455, R457 to R459, R461, R462: identity, quotes, checkpoints and the reading of the Pedigree. -/
def Obligations.SecurityPackets : Prop := ∀ (s : State) (p : Pkt),
  let s1 := s.advance p.tk
  let n := fld p.hdr.arg0 0 32
  let free := s.ped.signing = none ∧ s.ped.queue = []
  let count := fld p.hdr.arg1 0 10
  let from_ := s.ped.entries.dropWhile fun e => !(e.seq == fld p.hdr.arg0 0 48 && e.epoch == fld p.hdr.arg0 48 16)
  let es := from_.take count
  let old : DWord := .ofNat 64 s.pedOldest
  let signs := fun (i : Instr) (j : SignJob) (body : List Byte) => s.ends i fun u =>
    u.items = s.items ∧ u.ped.signing = some (j, body, s.ped.seq, s.ped.head) ∧ u.ped.queue = [] ∧ u.ped.entries = s.ped.entries
  (s.ripe p 0x50 → s.answers (.idGet p) p 0 0 0 (.ofNat 64 Config.certificate.length) Config.certificate (s.became p.tk id))
  ∧ (s.ripe p 0x51 → free → signs (.quote p) (.quote p) (s1.quoteBody p))
  ∧ (s.ripe p 0x51 → s.ped.signing ≠ none → s.ends (.quote p) fun u => u.items = s.items ∧ u.ped.signing = s.ped.signing
      ∧ u.ped.queue = s.ped.queue ++ [.quote p])
  ∧ (s.ripe p 0x52 →
      (n = 0xFFFFFFFF → free → signs (.checkpoint p) (.ckpt 1 [p]) (s1.ckptBody 1))
      ∧ (n ≠ 0xFFFFFFFF → ∀ k, (s.ped.ckpts.find? fun k => k.number == n) = some k →
        s.answers (.checkpoint p) p 0 0 0 0 k.bytes (s.became p.tk id))
      ∧ (n ≠ 0xFFFFFFFF → (∀ k ∈ s.ped.ckpts, k.number ≠ n) → s.answers (.checkpoint p) p 0 0 6 0 [] (s.became p.tk id)))
  ∧ (s.ripe p 0x53 →
      (count = 0 ∨ 512 < count → s.answers (.pedRead p) p 0 0 5 old [] (s.became p.tk id))
      ∧ (0 < count → count ≤ 512 → es.length < count → s.answers (.pedRead p) p 0 0 6 old [] (s.became p.tk id))
      ∧ (0 < count → count ≤ 512 → es.length = count → s.mem.bad = [] → ∃ u, exec (.pedRead p) s = .next u
        ∧ s.completed u p 0 0 0 (.ofNat 64 u.pedOldest) (es.flatMap PedEntry.bytes)
        ∧ u.ped.entries = (if bit p.hdr.arg1 32 then from_.drop count else s.ped.entries)
        ∧ s.became p.tk (fun s => { s.touchMem with ped := { s.ped with entries := u.ped.entries, low := u.ped.low } }) u))
  ∧ (s.ripe p 0x54 → s.answers (.pedCfg p) p 0 0 0 0 []
      (s.became p.tk fun s => { s with ped := { s.ped with ckptN := fld p.hdr.arg0 0 16 } }))

/-- R442, R447, R451, R454, R458, R459, R461: the security version and the OTP fields; the entry of the event that waits longest joins the
chain; the signer ends with a quote or a checkpoint. -/
def Obligations.ChainAndOtp : Prop := ∀ (s : State) (p : Pkt) (tk : Nat) (i : Instr),
  let field := fld p.hdr.arg0 0 2
  let v := fld p.hdr.arg1 0 32
  let new := max s.sec.svnMin s.sec.svn
  let b := !s.fw.slot
  let result := fun (i : Instr) (n : Word) (g : State → State) => s.answers i p 0 0 n 0 [] (s.became p.tk g)
  let s1 := s.advance tk
  (s.ripe p 0x5B → s.answers (.svnCommit p) p 0 0 0 0 [] fun u => (∃ e ∈ u.ped.wait, e.kind = 0x13) ∧ u.sec = { s.sec with svnMin := new }
      ∧ u.fw = (if imgSvn (s.fw.img b) < new then s.fw.setValid b false else s.fw))
  ∧ (s.ripe p 0x5C → i = .provisionXref p ∨ i = .provisionSsid p ∨ i = .provisionMemorg p →
      (field = 3 → result i 5 id)
      ∧ (field = 0 → s.sec.xrefSet = true → result i 4 id)
      ∧ (field = 0 → s.sec.xrefSet = false → v < 9000000 ∨ 11000000 < v → result i 5 id)
      ∧ (field = 0 → s.sec.xrefSet = false → 9000000 ≤ v → v ≤ 11000000 → s.answers i p 0 0 0 0 [] fun u =>
        (∃ e ∈ u.ped.wait, e.kind = 0x0B) ∧ s.became p.tk (fun s => { s with
          sec := { s.sec with xref := v, xrefSet := true }, ped := { s.ped with wait := u.ped.wait } }) u)
      ∧ (field = 1 → s.sec.ssidSet = true → result i 4 id)
      ∧ (field = 1 → s.sec.ssidSet = false → result i 0 fun s => { s with sec := { s.sec with ssid := .ofNat 32 v, ssidSet := true } })
      ∧ (field = 2 → s.mem.orgSet = true → result i 4 id)
      ∧ (field = 2 → s.mem.orgSet = false → memorgOk (v % 4096) = false → result i 5 id)
      ∧ (field = 2 → s.mem.orgSet = false → memorgOk (v % 4096) = true → result i 0 fun s => { s with
        mem := { s.mem with orgOtp := .ofNat 12 v, orgSet := true } }))
  ∧ (∀ e rest, s.ped.wait = e :: rest → 0 < s.pedFree → s.hub.recovery = false → s.ends (.pedigreeAppend tk) fun u =>
      let x : PedEntry := { kind := e.kind, epoch := s.ped.epoch, seq := s.ped.seq + 1, tick := e.tick, calGen := e.calGen, fwGen := e.fwGen,
                            body := e.body }
      u.ped.wait = rest ∧ u.ped.seq = s.ped.seq + 1 ∧ u.ped.entries = s.ped.entries ++ [x]
      ∧ u.ped.head = sha256 (digBytes s.ped.head ++ x.bytes))
  ∧ (∀ body seq head, s.isItem p = true →
      (s.ped.signing = some (.quote p, body, seq, head) → s.ends (.signingComplete tk) fun u =>
        s.completed u p 0 0 0 0 (body ++ sigBytes s.freeCtr body) ∧ u.ped.nvSeq = s.ped.nvSeq)
      ∧ (∀ cause, s.ped.signing = some (.ckpt cause [p], body, seq, head) → s.ends (.signingComplete tk) fun u =>
        let k := s.ped.ckptLast + 1
        s.completed u p 0 0 0 0 (body ++ sigBytes s.freeCtr body) ∧ u.ped.ckptLast = k ∧ u.ped.nvEpoch = s.ped.epoch
        ∧ u.ped.nvSeq = seq ∧ u.ped.nvHead = head ∧ (∃ e ∈ u.ped.wait, e.kind = 0x12 ∧ e.tick = s1.tick)
        ∧ ∃ x, u.ped.ckpts.head? = some x ∧ x.number = k ∧ x.bytes = body ++ sigBytes s.freeCtr body))

/-- R449, R450, R462, Table 18-3: what the context packets refuse, and whom the channels belong to after one that is done. -/
def Obligations.ContextPackets : Prop := ∀ (s : State) (p : Pkt),
  let a := argCtx p 0
  let b := argCtx p 8
  let cs := maskChs p
  let mine := allChs.filter fun c => s.owner.get c == a
  let isOpen := fun (k : Ctx) => (s.ctxs.get k).isOpen = true
  let refused := fun (i : Instr) (n : Word) => s.answers i p 0 0 n 0 [] (s.became p.tk id)
  let moved := fun (u : State) (to_ : Ctx) (l : List Ch) => (∀ c, u.owner.get c = if c ∈ l then to_ else s.owner.get c)
    ∧ (∃ e ∈ u.ped.wait, e.kind = 0x0F) ∧ u.chan = s.chan
  (s.ring p.ctx p.ring).st = .opened →
    (s.ripe p 0x58 →
      (a = 0 ∨ isOpen a → refused (.ctxOpen p) 1)
      ∧ (¬ (a = 0 ∨ isOpen a) → s.ownsAll 0 cs = false → refused (.ctxOpen p) 2)
      ∧ (¬ (a = 0 ∨ isOpen a) → s.ownsAll 0 cs = true → s.chBusy cs = true → refused (.ctxOpen p) 3)
      ∧ (¬ (a = 0 ∨ isOpen a) → s.ownsAll 0 cs = true → s.chBusy cs = false → s.answers (.ctxOpen p) p 0 0 0 0 [] fun u =>
        moved u a cs ∧ ∀ k, (u.ctxs.get k).isOpen = if k = a then true else (s.ctxs.get k).isOpen))
    ∧ (s.ripe p 0x59 →
      (a = b ∨ ¬ isOpen a ∨ ¬ isOpen b → refused (.ctxMove p) 1)
      ∧ (¬ (a = b ∨ ¬ isOpen a ∨ ¬ isOpen b) → s.ownsAll a cs = false → refused (.ctxMove p) 2)
      ∧ (¬ (a = b ∨ ¬ isOpen a ∨ ¬ isOpen b) → s.ownsAll a cs = true → s.chBusy cs = true → refused (.ctxMove p) 3)
      ∧ (¬ (a = b ∨ ¬ isOpen a ∨ ¬ isOpen b) → s.ownsAll a cs = true → s.chBusy cs = false →
        s.answers (.ctxMove p) p 0 0 0 0 [] fun u => moved u b cs))
    ∧ (s.ripe p 0x5A →
      (a = 0 ∨ ¬ isOpen a → refused (.ctxClose p) 1)
      ∧ (a ≠ 0 → isOpen a → s.chBusy mine = true → refused (.ctxClose p) 3)
      ∧ (a ≠ 0 → isOpen a → s.chBusy mine = false → s.ends (.ctxClose p) fun u => moved u 0 mine
        ∧ (p.ctx ≠ a → ∀ r, (u.ring a r).st ≠ .opened))
      ∧ (a ≠ 0 → isOpen a → s.chBusy mine = false → p.ctx ≠ a → (∀ r, (s.ring a r).st = .closed) →
        s.answers (.ctxClose p) p 0 0 0 0 [] fun u => (u.ctxs.get a).isOpen = false))

/-! ## Rings, pages and registers -/

/-- R359, R369 to R371, R374, R375, R381, R382, R390, R413, R414: a packet that is read becomes an item or a violation, its units are freed
and LIMIT follows; a fenced packet runs as its own row; a descriptor is cached or its ring faults; what waits for a ring is written, a message
that is due is sent, a coalescing window ends, a held event packet finds room. -/
def Obligations.RingEvents : Prop := ∀ (s : State) (tk : Nat) (k : Ctx) (r : RingNo) (f : Fetched) (n : Src),
  let s1 := s.advance tk
  let g := s.ring k r
  let len := f.hdr.len.toNat
  let p : Pkt := { tk := s1.tick, ctx := k, ring := r, hdr := f.hdr, payload := f.payload }
  let head := g.sqHead + .ofNat 32 (1 + len)
  let fits := 1 + len ≤ (g.sqTail - g.sqHead).toNat ∧ len ≤ 2048 ∧ f.hdrErr = false ∧ f.payErr = none
  let v := 32 * k.1 + g.vec.toNat
  let e := s.ev.get n
  let wrote := fun (u : State) (o : OutPkt) => ∃ l, u.hostOut = l ++ { o with limit := (s.ring o.ctx o.ring).limit } :: s.hostOut
  let rows : List (Byte × (Pkt → Instr)) := [(0x01, .nop), (0x02, .ringCreate), (0x03, .ringDestroy), (0x04, .ringQuery), (0x10, .load),
    (0x11, .start), (0x12, .stop), (0x13, .poke), (0x14, .memrd), (0x20, .chcmd), (0x21, .results), (0x30, .readout), (0x40, .refAssign),
    (0x41, .pairReinstall), (0x42, .sznReport), (0x43, .remap), (0x44, .fwLoad), (0x45, .fwActivate), (0x46, .pwrStateStandby),
    (0x47, .regionPwrUp), (0x48, .sclkSet), (0x49, .chReset), (0x4A, .wakeAt), (0x50, .idGet), (0x51, .quote), (0x52, .checkpoint),
    (0x53, .pedRead), (0x54, .pedCfg), (0x58, .ctxOpen), (0x59, .ctxMove), (0x5A, .ctxClose), (0x5B, .svnCommit), (0x5C, .provisionXref)]
  (s.takes k r = true → s.canWrite k r 1 = true → fits → s.ends (.ringService tk k r [f]) fun u =>
      (u.ring k r).sqHead = head ∧ (u.ring k r).limit = head + .ofNat 32 g.win ∧ (u.ring k r).sqTail = g.sqTail
      ∧ (s1.checkPkt p = none → u.items = s.items ++ [p] ∧ u.vlogTotal = s.vlogTotal)
      ∧ (∀ x, s1.checkPkt p = some x → u.items = s.items ∧ s.logged u k x.1 (.ofNat 32 x.2.2) f.hdr.seq
        ∧ ∃ o ∈ u.hostOut ++ u.cqWait, o.type = 0x81 ∧ o.ctx = k ∧ o.ring = r ∧ o.seq = f.hdr.seq ∧ o.tag = f.hdr.tag ∧ o.code = x.1))
  ∧ (∀ q, (s.items.find? fun p => p.ctx == k && p.ring == r) = some q → bit q.hdr.flags 0 = true → s.ripe q 0x01 →
      s.answers (.fenceRelease tk k r) { q with tk := tk } 0 0 0 0 [] (s.became tk id))
  ∧ (∀ q, (s.items.find? fun p => p.ctx == k && p.ring == r) = some q → bit q.hdr.flags 0 = true → ∀ x ∈ rows, q.hdr.type = x.1 →
      exec (.fenceRelease tk k r) s = exec (x.2 { q with tk := tk }) s)
  ∧ (s.cached k r = false → s.mem.trained = true → g.st = .opened ∨ g.st = .draining →
      (s.mem.bad = [] → s.ends (.descriptorFetch tk k r false) fun u => u.cached k r = true ∧ (u.ring k r).st = g.st ∧ u.items = s.items)
      ∧ s.ends (.descriptorFetch tk k r true) fun u => (u.ring k r).st = .faulted ∧ (∀ q ∈ u.items, ¬ (q.ctx = k ∧ q.ring = r))
        ∧ ∀ q ∈ s.items, q.ctx = k → q.ring = r → ∃ o ∈ u.hostOut ++ u.cqWait,
          o.type = 0x80 ∧ o.ctx = k ∧ o.ring = 0 ∧ o.status = 1 ∧ o.code = 0x44 ∧ o.seq = q.hdr.seq)
  ∧ (∀ o, (s.cqWait.find? fun o => o.ctx == k && o.ring == r) = some o → s.linkIssues = true → g.st ≠ .recap → o.units ≤ g.room →
      s.ends (.completionWrite tk k r) fun u => wrote u o ∧ u.apart = s.apart
        ∧ ∃ l, u.cqWait = eraseFirst (fun o => o.ctx == k && o.ring == r) s.cqWait ++ l)
  ∧ (g.irqEn = true → 0 < g.unsig → g.unsigAt + g.modT * 500 ≤ s1.tick → s.linkIssues = true →
      s.ends (.msixModerationTimeout tk k r) fun u => u.bare = s.bare
        ∧ (s.msixMasked v = false → ∃ l, u.msixSent = l ++ v :: s.msixSent) ∧ (s.msixMasked v = true → v < 2048 → bit u.pba v = true))
  ∧ (∀ w, n.1 < 912 → e.win = some w → w ≤ s1.tick →
      (e.fold = none → s.ends (.coalesceWindowEnd tk n) fun u => u.bare = s.bare ∧ u.ev.get n = { e with win := none })
      ∧ (∀ x, e.fold = some x → bit e.cfg 30 = true →
        let h : HeldEv := { ctx := s.srcOwner n, ring := ⟨fld e.cfg 12 12, by unfold fld; omega⟩, fold := x, coal := true, msi := false }
        (s.ring h.ctx h.ring).st = .opened → s.canWrite h.ctx h.ring 2 = true → s.ends (.coalesceWindowEnd tk n) fun u =>
          u.bare = s.bare ∧ wrote u (s.evPkt n h)))
  ∧ (∀ h, n.1 < 912 → e.held = [h] → (s.ring h.ctx h.ring).st = .opened → s.canWrite h.ctx h.ring (if h.coal then 2 else 1) = true →
      s.ends (.heldPacketRelease tk n) fun u => u.bare = s.bare ∧ wrote u (s.evPkt n h) ∧ (u.ev.get n).held = [])

/-- R362 to R366, R373, R376 to R378, R410, R416, R423, R436, R486, with Tables 14-3, 14-5, 14-6 and 14-9: the writes of a live page. A doorbell
moves its index or is a violation; REGWR writes a register that the context may write; CR_CTL opens or closes the control ring; PACKCTL, MCCTL,
HUBCTL and EVSTAT act by their bits. -/
def Obligations.PageRows : Prop := ∀ (s : State) (tk : Nat) (k : Ctx) (d : Bell) (off : BitVec 18) (w : Word) (x : DWord) (n : Src) (j : Fin 16)
    (fresh : Bool) (posted : List (RingNo × Hdr)) (key : BitVec 16),
  let g := s.ring k d.ring
  let whole := d.poisoned = false ∧ d.size8 = true
  let c := s.ctxs.get k
  let ctl := s.ring k 0
  let a := 4 * off.toNat
  let regwr := fun (P : State → Prop) => s.ends (.registerWrite tk k (.regwr off w)) P
  let same := fun (u : State) => ∀ r, (u.ring k r).sqTail = (s.ring k r).sqTail ∧ (u.ring k r).cqHead = (s.ring k r).cqHead
  let bell := fun (i : Instr) (old limit : Word) (code : Byte) (P : Ring → Prop) =>
    (whole → g.st = .opened → behind d.index old = false → behind limit d.index = false → s.ends i fun u =>
        u.bare = s.bare ∧ P (u.ring k d.ring))
    ∧ (whole → g.st = .opened → behind d.index old = true → s.ends i fun u => same u ∧ s.logged u k 0x11 old d.index)
    ∧ (whole → g.st = .opened → behind d.index old = false → behind limit d.index = true → s.ends i fun u =>
        same u ∧ s.logged u k code limit d.index)
    ∧ (whole → g.st ≠ .opened → s.ends i fun u => same u ∧ s.logged u k 0x10 0 d.index)
    ∧ (d.poisoned = true → s.ends i fun u => same u ∧ s.logged u k 0x15 0 0)
    ∧ (d.poisoned = false → d.size8 = false → s.ends i fun u => same u ∧ s.logged u k 0x14 0 0)
  let denied := fun (i : Instr) (a : Nat) => s.ends i fun u => s.logged u k 0x18 0 (.ofNat 32 a)
  let idle := ctl.st = .closed ∨ ctl.st = .recap
  let args := ringArgs c.crSq c.crCq c.crTail c.crCfg = true
  s.pageLive k = true → c.isOpen = true →
    bell (.doorbellSqTail tk k d) g.sqTail g.limit 0x12 (fun g' => g'.sqTail = d.index ∧ g'.pend = (d.index != g.sqHead))
    ∧ bell (.doorbellCqHead tk k d) g.cqHead g.cqTail 0x13 (fun g' => g'.cqHead = d.index)
    ∧ (a = 0x8000 + 4 * n.1 → s.srcOwner n = k → regwr fun u =>
        u.bare = s.bare ∧ (u.ev.get n).cfg = w &&& if 912 ≤ n.1 then 0xFFFFFF80 else 0xFFFFFF00)
    ∧ (a = 0x8000 + 4 * n.1 → s.srcOwner n ≠ k → denied (.registerWrite tk k (.regwr off w)) a)
    ∧ (a = 0x1000 + 4 * j.1 → k = 0 → regwr fun u => u.bare = ({ s with
        trgCfg := s.trgCfg.set j.1 ((w &&& 0x00FF03FF) ||| (s.trgCfg.get j &&& 0x01000000 &&& ~~~w)) j.2 }).bare)
    ∧ (a < 0x8000 → k ≠ 0 → denied (.registerWrite tk k (.regwr off w)) a)
    ∧ (idle → s.ends (.registerWrite tk k (.crWord 0 x)) fun u => u.bare = (s.modCtx k fun c => { c with crSq := x }).bare)
    ∧ (¬ idle → s.ends (.registerWrite tk k (.crWord 0 x)) fun u => u.ctxs.map (·.crSq) = s.ctxs.map (·.crSq)
        ∧ s.logged u k 0x19 (.ofNat 32 ctl.st.code) 0x18)
    ∧ (ctl.st = .closed → args → s.recapRings k = [] → s.ends (.crCtlEnable tk k fresh false posted) fun u => u.bare = s.bare
        ∧ let o := u.ring k 0
        o.st = .opened ∧ o.sqBase = c.crSq ∧ o.cqBase = c.crCq ∧ o.tailWb = c.crTail ∧ o.sqLog = fld c.crCfg 27 5
        ∧ o.cqLog = fld c.crCfg 22 5 ∧ o.win = 2 ^ fld c.crCfg 27 5 - 1 ∧ o.sqTail = 0 ∧ o.cqHead = 0 ∧ o.irqEn = bit c.crCfg 21)
    ∧ s.ends (.crCtlEnable tk k fresh true posted) (fun u => u.bare = s.bare)
    ∧ (¬ idle → s.ends (.crCtlEnable tk k fresh false posted) fun u => s.logged u k 0x19 (.ofNat 32 ctl.st.code) 0x34)
    ∧ (ctl.st = .opened → s.ends (.crCtlDisable tk k) fun u => u.apart = s.apart ∧ ∀ r, (u.ring k r).st ≠ .opened)
    ∧ (ctl.st ≠ .opened → s.ends (.crCtlDisable tk k) fun u => s.logged u k 0x19 (.ofNat 32 ctl.st.code) 0x34)
    ∧ (k = 0 → key = 0xC1EA → s.ends (.swreset tk k key) fun u => s.afterReset u 2 ∧ u.aon.lastReset = 3 ∧ u.hub.ssid = s.hub.ssid)
    ∧ (k ≠ 0 ∨ key ≠ 0xC1EA → denied (.swreset tk k key) 8)
    ∧ (k = 0 → s.turns (.probe tk k) tk fun s => { s with pack := { s.pack with probing := true } })
    ∧ (k ≠ 0 → denied (.probe tk k) 0x2008 ∧ denied (.form tk k) 0x2008 ∧ denied (.retrain tk k) 0x30010)
    ∧ (k = 0 → s.pack.rttValid = true → s.pack.minLand ≤ fld s.pack.cfg 16 8 → (∀ n, (s.cl n).busy = false) → s.memIdle = true →
        s.turns (.form tk k) tk fun s => { s with pack := { s.pack with forming := some s.tick, loaded := false, formed := false } })
    ∧ (k = 0 → s.pack.rttValid = false → s.turns (.form tk k) tk fun s =>
        { s with pack := { s.pack with sticky := s.pack.sticky ||| 0x80000 } })
    ∧ (k = 0 → s.turns (.retrain tk k) tk fun s => { s with mem := { s.mem with retrain := true } })
    ∧ (s.srcOwner n = k → s.settled → s.ends (.evstatPendClear tk k n) fun u =>
        u.bare = s.bare ∧ u.ev = (s.modEv n fun e => { e with pend := false, occ := 0 }).ev)
    ∧ (s.srcOwner n ≠ k → denied (.evstatPendClear tk k n) (0x9000 + 4 * n.1))

/-- R360, R361: a direct write outside the MSI-X Table is dropped, counted and logged, one to the table is made, and the read of an RC field
clears it. -/
def Obligations.DirectAccess : Prop := ∀ (s : State) (tk : Nat) (off : BitVec 20) (o : BitVec 15) (w : Word) (n : Fin 16) (r : Rg) (i : Fin 4),
  let a := o.toNat / 4 * 4
  let w' := if a % 16 = 0 then w &&& 0xFFFFFFFC else if a % 16 = 12 then w &&& 1 else w
  (s.aon.pstate ≠ .deepSleep → off.toNat < 0x80000 ∨ 0x88000 ≤ off.toNat → s.ends (.regDirectWrite tk off) fun u =>
      (∃ e ∈ u.vlog, e.cause = 0x17 ∧ e.ctx = 127 ∧ e.value = 0 ∧ e.detail = off.setWidth 32)
      ∧ u.vlogTotal = min 0xFFFFFFFF (s.vlogTotal + 1) ∧ u.hub.directWr = min 0xFF (s.hub.directWr + 1)
      ∧ u.bare = ({ s with hub := { s.hub with directWr := u.hub.directWr }
                           vlog := u.vlog, vlogHead := (s.vlogHead + 1) % 256, vlogTotal := u.vlogTotal }).bare)
  ∧ s.turns (.msixTableWrite tk o w) tk (fun s => { s with msixTbl := memSetWord s.msixTbl a w' })
  ∧ s.turns (.rcFieldRead tk (.trgCnt n)) tk (fun s => { s with lastRead := .ofNat 64 (s.trgCnt.get n), trgCnt := s.trgCnt.set n.1 0 n.2 })
  ∧ s.turns (.rcFieldRead tk (.preempt r)) tk (fun s => { s.modRg r fun g => { g with preempt := 0 } with
      lastRead := .ofNat 64 (s.rg r).preempt })
  ∧ s.turns (.rcFieldRead tk (.ecc i)) tk (fun s => { s with
      lastRead := .ofNat 64 (s.mem.ce.get i + 65536 * s.mem.ue.get i)
      mem := { s.mem with ce := s.mem.ce.set i.1 0 i.2, ue := s.mem.ue.set i.1 0 i.2 } })
  ∧ s.turns (.rcFieldRead tk .evLost) tk (fun s => { s with lastRead := .ofNat 64 s.evLost })
  ∧ (s.settled → s.ends (.rcFieldRead tk .evLost) fun u => u.evLost = 0)

/-! ## Pack bus, memory controller, rest, resets and dies -/

/-- R36, R240 to R242, R244: probing, the origin pulse, a forming that has waited too long, Pack triggers, keep pulses, and the loss of
alignment. -/
def Obligations.PackRows : Prop := ∀ (s : State) (tk : Nat) (rtt : BitVec 16) (n : Fin 8),
  let k := s.pack
  let s1 := s.advance tk
  let m := s1.tick % 65536
  let lost := fun (i : Instr) => s.ends i fun u => u.pack.formed = false ∧ u.pack.loaded = false ∧ u.pack.forming = none ∧ u.pack.lost = true
    ∧ u.pack.trgPend = [] ∧ u.pack.driven = 0 ∧ u.pack.onPack = false ∧ bit u.pack.sticky 18 = true
  (k.probing = true → s.turns (.probeReturn tk rtt) tk fun s =>
      { s with pack := { s.pack with probing := false, rttSelf := rtt, rttValid := true } })
  ∧ (∀ t, k.forming = some t → k.loaded = false → s1.tick ≤ t + 131072 → s.ends (.originPulse tk) fun u =>
      u.tick = k.origin.toNat ∧ u.pack.loaded = true ∧ u.pack.keepAt = u.tick ∧ u.pack.formed = k.formed
      ∧ ∀ d, (s.die.get d).clkOk = true → u.dt d = u.tick)
  ∧ (∀ t, k.forming = some t → k.loaded = false → t + 131072 ≤ s1.tick → k.onPack = false → s.turns (.formTimeout tk) tk fun s =>
      { s with pack := { s.pack with forming := none, sticky := s.pack.sticky ||| 0x80000 } })
  ∧ (∀ x, (k.trgPend.find? fun x => x.1 == n.1 && decide (x.2 ≤ s1.tick)) = some x →
      let near := ∃ l, k.lastTrg.get n = some l ∧ x.2 < l + 4
      (¬ near → bit k.cfg (8 + n.1) = true → s.turns (.packTriggerDrive tk n) tk fun s => { s with pack := { s.pack with
        trgPend := eraseFirst (· == x) s.pack.trgPend, lastTrg := s.pack.lastTrg.set n.1 (some x.2) n.2 } })
      ∧ (near ∨ bit k.cfg (8 + n.1) = false → s.turns (.packTriggerDrive tk n) tk fun s => { s with pack := { s.pack with
        trgPend := eraseFirst (· == x) s.pack.trgPend } }))
  ∧ (k.formed = true → s.turns (.packTriggerLanding tk n) tk fun s =>
      { s with pack := { s.pack with driven := s.pack.driven ^^^ .ofNat 8 (2 ^ n.1) } })
  ∧ (k.loaded = true → m ≤ 1 ∨ m = 65535 → s.turns (.packKeepPulse tk) tk fun s => { s with
      pack := { s.pack with keepAt := s.tick, formed := true, lost := false, forming := none }
      aon := { s.aon with tickEst := k.formed && s.aon.tickEst } })
  ∧ (k.loaded = true → 1 < m → m < 65535 → lost (.packKeepPulse tk))
  ∧ (k.loaded = true → k.keepAt + 131072 ≤ s1.tick → lost (.keepPulseMissing tk))
  ∧ (k.onPack = true → lost (.packClkLost tk))

/-- R419, R420, R429 to R431, R434 to R437: a training begins and ends, a refresh is postponed, MR4 asks for the doubled rate, the patrol
scrub goes from block to block, and the DDR clock stops in Standby. -/
def Obligations.MemoryRows : Prop := ∀ (s : State) (tk : Nat) (eyes : Vector (Nat × Nat) 4) (rank sub : Fin 4) (busy waiting hot : Bool),
  let k := s.mem
  let row := fun (i : Instr) (f : State → MemCtl) => s.turns i tk fun s => { s with mem := f s }
  let r := k.tryRate.getD (k.rateOf k.stepNext)
  let low := fun (i : Fin 4) => min (eyes.get i).1 (eyes.get i).2 < minEye r
  let blocks := s.memCap / 64
  let b := k.patrol % blocks
  let next := fun (m : MemCtl) => if b + 1 = blocks then { m with patrol := 0, pass := (m.pass + 1) % 65536 } else { m with patrol := b + 1 }
  let scrubs := 0 < blocks ∧ fld k.mccfg1 8 8 ≠ 0
  (k.present = true → k.retrain = true → k.training = false → s.memIdle = true → s.c2Busy = false → row (.retrainStart tk) fun s =>
      { s.mem with training := true, tryRate := none })
  ∧ (k.present = true → (∀ i, ¬ low i) → row (.trainingComplete tk eyes) fun s => { s.mem with
      eyes := eyes, trained := true, kept := true, retrain := false, training := false, selfRef := false, ddrClk := true
      lastUse := s.tick, step := k.stepNext, rate := r, tryRate := none })
  ∧ (∀ i, k.present = true → low i → 0 < r → row (.trainingComplete tk eyes) fun s => { s.mem with eyes := eyes, tryRate := some (r - 1) })
  ∧ (∀ i, k.present = true → low i → r = 0 → row (.trainingComplete tk eyes) fun s => { s.mem with
      eyes := eyes, trained := false, kept := false, retrain := false, training := false, step := k.stepNext, rate := 0, tryRate := none })
  ∧ (k.trained = true → k.selfRef = false → row (.refreshDue tk rank busy waiting) fun s =>
      let n := s.mem.postponed.get rank
      let n' := if busy = true ∧ n < 4 then n + 1 else if busy = true ∨ waiting = true then n else 0
      { s.mem with postponed := s.mem.postponed.set rank.1 n' rank.2 })
  ∧ row (.mr4RateChange tk sub hot) (fun s => { s.mem with
      hot := if hot then s.mem.hot ||| .ofNat 4 (2 ^ sub.1) else s.mem.hot &&& ~~~(.ofNat 4 (2 ^ sub.1)) })
  ∧ (scrubs → b ∉ k.bad → row (.patrolScrub tk .clean) fun s => next s.mem)
  ∧ (scrubs → b ∉ k.bad → row (.patrolScrub tk .ce) fun s =>
      let i := subChan (64 * b)
      next { s.mem with ce := s.mem.ce.set i.1 (min 0xFFFF (s.mem.ce.get i + 1)) i.2 })
  ∧ (scrubs → s.ends (.patrolScrub tk .ue) fun u => b ∈ u.mem.bad ∧ u.mem.patrol = (next k).patrol ∧ u.mem.pass = (next k).pass
      ∧ u.mem.ueHead = (k.ueHead % 16 + 1) % 16
      ∧ u.mem.ue.get (subChan (64 * b)) = min 0xFFFF (k.ue.get (subChan (64 * b)) + 1) ∧ u.acq = s.acq)
  ∧ (s.aon.pstate = .standby → k.ddrClk = true → k.lastUse + 50000 ≤ (s.advance tk).tick → row (.ddrClockStop tk) fun s =>
      { s.mem with ddrClk := false, selfRef := true })

/-- R376, R475, R476, R480: the link states, the entry to Deep sleep, what wakes the package from it, and the tick after it. -/
def Obligations.LinkAndSleep : Prop := ∀ (s : State) (tk us pulses : Nat) (gap : Bool),
  let s1 := s.advance tk
  let asleep := s.aon.pstate = .deepSleep
  let inPack := s.pack.formed = true ∧ gap = false
  (¬ asleep → s.turns (.pmD3hot tk) tk fun s => { s with hub := { s.hub with d3hot := true } })
  ∧ (¬ asleep → s.turns (.d0Entry tk) tk fun s => { s with hub := { s.hub with d3hot := false } })
  ∧ (s.settled → s.hub.link = .l0 → s.cqWait = [] → (∀ g ∈ s.rings, g.2.pend = false) → s.hub.linkAt + 8000 ≤ s1.tick →
      s.ends (.l1Entry tk) fun u => u.hub.link = .l1 ∧ u.bare = s.bare)
  ∧ (s.aon.deepPend = true → s.aon.pstate = .standby → s.ends (.deepSleepEntry tk) fun u => u.aon.pstate = .deepSleep ∧ u.hub.link = .l12
      ∧ u.aon.deepPend = false ∧ u.aon.entryTick = s1.tick ∧ u.aon.wakeSrc = 0 ∧ u.aon.waking = false ∧ u.mem.selfRef = true
      ∧ u.mem.ddrClk = false ∧ u.chan = s.chan ∧ u.acq = s.acq)
  ∧ (s.aon.deepPend = false ∨ s.aon.pstate ≠ .standby → s.turns (.deepSleepEntry tk) tk id)
  ∧ (asleep → s.aon.waking = false → s.turns (.clkreqWake tk) tk fun s => { s with aon := { s.aon with waking := true, wakeSrc := 1 } })
  ∧ (∀ t, s.aon.wakeAt = some t →
      (asleep → s.aon.waking = false → s.turns (.wakeAtExpiry tk) tk fun s =>
        { s with aon := { s.aon with wakeAt := none, waking := true, wakeSrc := 2 } })
      ∧ (¬ asleep → t ≤ s1.tick → s.turns (.wakeAtExpiry tk) tk fun s => { s with aon := { s.aon with wakeAt := none } })
      ∧ (¬ asleep → s1.tick < t → s.turns (.wakeAtExpiry tk) tk id))
  ∧ (asleep → s.aon.waking = true → s.hub.capture = [] → s.ends (.wake tk us pulses gap) fun u =>
      u.aon.pstate = .standby ∧ u.aon.waking = false
      ∧ (inPack → u.tick = s.aon.k0 + 65536 * pulses ∧ u.aon.tickEst = s.aon.tickEst ∧ u.pack = { s.pack with keepAt := u.tick })
      ∧ (¬ inPack → u.tick = s.aon.entryTick + 500 * us ∧ u.aon.tickEst = true)
      ∧ (s.pack.formed = true → gap = true → u.pack.formed = false ∧ u.pack.lost = true))

/-- R40, R443, R444, R468, R482, R483, R485, R486, R488 with Tables 1-8, 1-12 and 19-9: what the resets, the hub boot, the hub faults and
the supplies do. -/
def Obligations.ResetRows : Prop := ∀ (s : State) (tk ns : Nat) (straps : BitVec 2) (test : Bool) (cause : Fin 5) (code : BitVec 8)
    (x : Supply),
  let now := (s.advance tk).tick
  let sleeps := s.aon.pstate = .deepSleep
  let faults := fun (i : Instr) (code : Byte) => s.ends i fun u => u.hub.ready = false ∧ u.hub.recovery = false ∧ u.hub.fault = true
    ∧ u.hub.cause = code ∧ (∀ t, (u.th t).busy = false) ∧ s.drains u ∧ u.items = s.items
  let boots := s.hub.ready = false ∧ s.hub.recovery = false ∧ s.hub.testHeld = false ∧ (s.hub.fault = false ∨ s.hub.cause = 1)
    ∧ s.hubSupplies = true ∧ ¬ sleeps ∧ cause = s.hub.bootCause ∧ s.hub.capture = []
  let falls := fun (P : State → Prop) => s.supOk x = true → s.ends (.supplyFall tk x) P
  let down := fun (u : State) => u.hub.ready = false ∧ u.hub.bootCause = 3 ∧ u.items = [] ∧ u.vlog = [] ∧ u.aon.lastReset = s.aon.lastReset
  s.ends (.perstNAssert tk straps test) (fun u => s.afterReset u 0 ∧ u.aon.lastReset = 1 ∧ u.aon.clrsel = straps ∧ u.vlog = []
      ∧ u.msixTbl = msixReset ∧ u.hub.ssid = s.sec.ssid ∧ u.hub.testHeld = test)
  ∧ (1000 ≤ ns → s.ends (.resetNAssert tk ns straps test) fun u => s.afterReset u 1 ∧ u.aon.lastReset = 2 ∧ u.aon.clrsel = straps
      ∧ u.vlog = [] ∧ u.msixTbl = s.msixTbl ∧ u.hub.ssid = s.hub.ssid)
  ∧ (ns < 100 → s.turns (.resetNAssert tk ns straps test) tk id)
  ∧ (∀ b, boots → s.bootSlot = some b → s.ends (.hubBoot tk cause) fun u => u.hub.ready = true ∧ u.hub.recovery = false
      ∧ u.hub.fault = false ∧ u.fw.slot = b ∧ u.sec.svn = imgSvn (s.fw.img b)
      ∧ ((∃ e ∈ u.ped.entries, e.kind = 3 ∧ e.tick = now) ∨ ∃ e ∈ u.ped.wait, e.kind = 3 ∧ e.tick = now))
  ∧ (boots → s.bootSlot = none → s.ends (.hubBoot tk cause) fun u => u.hub.ready = false ∧ u.hub.recovery = true
      ∧ u.hub.fault = true ∧ u.hub.cause = 1)
  ∧ (¬ sleeps → s.hub.fault = false → s.hubSupplies = true → faults (.refclkLost tk) 2
      ∧ (3 ≤ code.toNat → code.toNat ≤ 5 → faults (.hubFault tk code) code))
  ∧ falls (fun u => ∀ y, u.supOk y = if y = x then false else s.supOk y)
  ∧ (x = .vdda ∨ x = .vhvP ∨ x = .vhvN → falls fun u => (∀ r, (s.rg r).on = true → (u.rg r).clkOk = false)
      ∧ ∀ c, s.rgOn c = true → (s.rg (rgOf c)).clkOk = true → (s.ch c).st ≠ .off → (s.ch c).st ≠ .tripped → (u.ch c).st = .held)
  ∧ (x = .ddr → falls fun u => u.acq = [] ∧ u.ped.entries = [] ∧ u.mem.trained = false ∧ u.mem.kept = false ∧ u.chan = s.chan)
  ∧ (x = .pcie08 ∨ x = .pcie18 → falls fun u => down u ∧ s.afterReset u 3)
  ∧ (x = .core ∨ x = .io ∨ x = .aon → falls fun u => down u ∧ (∀ c, (u.ch c).st = .off) ∧ ∀ r, (u.rg r).on = false)
  ∧ (s.supOk x = false → x ≠ .aon → s.ends (.supplyRise tk x) fun u => (∀ y, u.supOk y = if y = x then true else s.supOk y)
      ∧ ∀ c, (u.ch c).st = (s.ch c).st)
  ∧ (∀ i, i = .vddAonRise tk ∨ (i = .supplyRise tk .aon ∧ s.supOk .aon = false) → s.ends i fun u => u.hub = State.reset.hub
      ∧ u.aon = State.reset.aon ∧ u.chan = State.reset.chan ∧ u.phys = State.reset.phys ∧ u.owner = State.reset.owner ∧ u.rings = []
      ∧ u.acq = s.acq ∧ u.fw.imgA = s.fw.imgA ∧ u.fw.imgB = s.fw.imgB ∧ u.sec = { s.sec with svn := 0 } ∧ u.calGen = s.calGen
      ∧ u.ped.nvEpoch = s.ped.nvEpoch ∧ u.ped.nvSeq = s.ped.nvSeq ∧ u.ped.nvHead = s.ped.nvHead ∧ u.ped.ckpts = s.ped.ckpts
      ∧ ∀ n, (u.cl n).imem = (s.cl n).imem ∧ (u.cl n).dmem = (s.cl n).dmem)

/-- R12, R13, R17, R27 to R31, R245, R395, R397, R403, R415 with Tables 1-4 and 1-7: a die whose count disagrees takes the hub's; a die whose
link or clock goes, and a cluster that faults, halt their threads, freeze their stimulus and abort their items; a link returns, a clock
locks, and a queue whose counters disagree is emptied. -/
def Obligations.DieRows : Prop := ∀ (s : State) (tk second : Nat) (d : Die) (c : Ch) (n : Cl) (cause : Byte) (phases : List (Fin 9)),
  let s1 := s.advance tk
  let k := s.die.get d
  let bad := fun (d : Die) => (s.die.get d).clkOk = true ∧ s1.dt d ≠ s1.tick
  let dieDown := fun (i : Instr) (P : DieState → Prop) => s.ends i fun u => P (u.die.get d)
    ∧ u.halted (fun t => dieOfCl t.cl = d) (fun c => dieOfCh c = d) ∧ ∀ p ∈ u.items, onDie d p = false
  let clDown := fun (i : Instr) => s.ends i fun u => u.halted (fun t => t.cl = n) (fun c => clOf c = n) ∧ (u.cl n).intake = 0
    ∧ ∀ p ∈ u.items, onCluster n p = false
  let h := s.ch c
  s.ends (.tickCheck tk) (fun u => ∀ d, (s.die.get d).clkOk = true → u.dt d = u.tick)
  ∧ ((∀ d, ¬ bad d) → s.turns (.tickCheck tk) tk id)
  ∧ (bad d → s.ends (.tickCheck tk) fun u => ∃ e ∈ u.ped.wait, e.kind = 0x11 ∧ e.tick = s1.tick)
  ∧ s.turns (.dieLinkCrcFail tk d) tk (fun s => s.modDie d fun x => { x with replay := x.linkUp })
  ∧ (k.linkUp = true → dieDown (.dieLinkDown tk d) fun x => x = { k with linkUp := false, replay := false })
  ∧ (k.clkOk = true → dieDown (.dieClockLost tk d) fun x => x = { k with clkOk := false })
  ∧ (k.linkUp = false → s.turns (.dieLinkReturn tk d) tk (fun s => s.modDie d fun x => { x with linkUp := true })
      ∧ s.ends (.dieLinkReturn tk d) fun u => ∀ n, srcDie n = some d → (u.ev.get n).grp = none)
  ∧ (k.clkOk = false → (∃ r ∈ rgsOfDie d, (s.rg r).on = true) → s.ends (.dieCorePllLock tk d phases) fun u =>
      u.die.get d = { k with clkOk := true } ∧ u.dt d = u.tick ∧ ∀ p ∈ (clsOfDie d).zip phases, (u.cl p.1).phase = p.2)
  ∧ ((s.rg (rgOfCl n)).on = true → clDown (.clusterHalt tk n cause))
  ∧ ((s.rg (rgOfCl n)).on = false → s.turns (.clusterHalt tk n cause) tk id)
  ∧ (h.st ≠ .off → h.queue.length ≠ second → s.turns (.queueIntegrity tk (.dac c) second) tk fun s => s.modCh c fun h =>
      { h with queue := [], qiDac := min 15 (h.qiDac + 1) })
  ∧ (h.st ≠ .off → h.rq.length ≠ second → s.turns (.queueIntegrity tk (.result c) second) tk fun s => s.modCh c fun h =>
      { h with rq := [], qiRes := min 15 (h.qiRes + 1) })
  ∧ ((s.rg (rgOfCl n)).on = true → (s.cl n).intake ≠ second → clDown (.queueIntegrity tk (.intake n) second))
  ∧ (h.queue.length = second → s.turns (.queueIntegrity tk (.dac c) second) tk id)

/-! ## Reset and invariants -/

/-- The reset values of Tables 1-12, 2-7, 6-5, 8-1, 9-9, 14-4, 16-6, 17-7, 19-5 and 19-7 and rules R40, R354, R363, R448: everything Off, Idle and
closed, context 0 open and owner of every channel, the registers at their Reset columns. -/
def Obligations.ResetState : Prop :=
  let s := State.reset
  s.pending = [] ∧ (∀ c, (s.ch c).st = .off ∧ (s.ch c).mode = 0 ∧ (s.ch c).vlimH = 8388607 ∧ (s.ch c).vlimL = -8388608
    ∧ (s.ch c).floorV = 2 ∧ (s.ch c).trip.latch = 0 ∧ (s.ch c).loop.heelSlew = 16 ∧ s.owner.get c = 0)
  ∧ (∀ r, (s.rg r).on = false ∧ (s.rg r).calcfg = 0x1DD00005 ∧ (s.rg r).natgap = 0xFFFF ∧ (s.rg r).refAssign = 6400000
    ∧ (s.rg r).szncfg = 0x003C0432 ∧ (s.rg r).sznch = 0xFFFF ∧ ((s.rg r).p, (s.rg r).q) = (1, 4))
  ∧ (∀ t, (s.th t).st = .idle ∧ (s.th t).g = Vector.replicate 16 0) ∧ (∀ k r, (s.ring k r).st = .closed)
  ∧ (∀ k, (s.ctxs.get k).isOpen = decide (k = 0)) ∧ (∀ n, (s.ev.get n).cfg = 0 ∧ (s.ev.get n).pend = false)
  ∧ (∀ i, s.trgCfg.get i = 0x003202A7 ∧ s.trgCnt.get i = 0) ∧ s.mem.mccfg0 = 0x20080400 ∧ s.mem.mccfg1 = 0x003C1810
  ∧ s.hub.ready = false ∧ s.aon.pstate = .standby ∧ s.ped.ckptN = 1024 ∧ s.items = [] ∧ s.acq = []
  ∧ (∀ c, s.physOf c = c) ∧ s.memOk ∧ s.mapOk

/-- Every step keeps every memory in its canonical form (the model's own: log 4). -/
def Obligations.KeepsMemory : Prop := ∀ (s u : State), s.memOk → step s = .next u → u.memOk

/-- R354: every step keeps the logical channels of a cluster on physical channels of their own. -/
def Obligations.KeepsMap : Prop := ∀ (s u : State), s.mapOk → step s = .next u → u.mapOk
end

