-- ==== Sys2Proof/Laws/State.lean ====
section
/-! SUPPORT. What each update of the state leaves as it was, one lemma per field, and what it writes. -/

namespace Sys2Proof.Machine

/-! ### modCh -/

@[simp] theorem State.modCh_pending (s : State) (c : Ch) (f : Channel → Channel) : (s.modCh c f).pending = s.pending := rfl
@[simp] theorem State.modCh_tick (s : State) (c : Ch) (f : Channel → Channel) : (s.modCh c f).tick = s.tick := rfl
@[simp] theorem State.modCh_dieTick (s : State) (c : Ch) (f : Channel → Channel) : (s.modCh c f).dieTick = s.dieTick := rfl
@[simp] theorem State.modCh_freeCtr (s : State) (c : Ch) (f : Channel → Channel) : (s.modCh c f).freeCtr = s.freeCtr := rfl
@[simp] theorem State.modCh_phys (s : State) (c : Ch) (f : Channel → Channel) : (s.modCh c f).phys = s.phys := rfl
@[simp] theorem State.modCh_clus (s : State) (c : Ch) (f : Channel → Channel) : (s.modCh c f).clus = s.clus := rfl
@[simp] theorem State.modCh_rgn (s : State) (c : Ch) (f : Channel → Channel) : (s.modCh c f).rgn = s.rgn := rfl
@[simp] theorem State.modCh_die (s : State) (c : Ch) (f : Channel → Channel) : (s.modCh c f).die = s.die := rfl
@[simp] theorem State.modCh_ctxs (s : State) (c : Ch) (f : Channel → Channel) : (s.modCh c f).ctxs = s.ctxs := rfl
@[simp] theorem State.modCh_owner (s : State) (c : Ch) (f : Channel → Channel) : (s.modCh c f).owner = s.owner := rfl
@[simp] theorem State.modCh_rings (s : State) (c : Ch) (f : Channel → Channel) : (s.modCh c f).rings = s.rings := rfl
@[simp] theorem State.modCh_cache (s : State) (c : Ch) (f : Channel → Channel) : (s.modCh c f).cache = s.cache := rfl
@[simp] theorem State.modCh_items (s : State) (c : Ch) (f : Channel → Channel) : (s.modCh c f).items = s.items := rfl
@[simp] theorem State.modCh_journal (s : State) (c : Ch) (f : Channel → Channel) : (s.modCh c f).journal = s.journal := rfl
@[simp] theorem State.modCh_cqWait (s : State) (c : Ch) (f : Channel → Channel) : (s.modCh c f).cqWait = s.cqWait := rfl
@[simp] theorem State.modCh_hostOut (s : State) (c : Ch) (f : Channel → Channel) : (s.modCh c f).hostOut = s.hostOut := rfl
@[simp] theorem State.modCh_msixSent (s : State) (c : Ch) (f : Channel → Channel) : (s.modCh c f).msixSent = s.msixSent := rfl
@[simp] theorem State.modCh_tailWb (s : State) (c : Ch) (f : Channel → Channel) : (s.modCh c f).tailWb = s.tailWb := rfl
@[simp] theorem State.modCh_lastRead (s : State) (c : Ch) (f : Channel → Channel) : (s.modCh c f).lastRead = s.lastRead := rfl
@[simp] theorem State.modCh_ev (s : State) (c : Ch) (f : Channel → Channel) : (s.modCh c f).ev = s.ev := rfl
@[simp] theorem State.modCh_evSeq (s : State) (c : Ch) (f : Channel → Channel) : (s.modCh c f).evSeq = s.evSeq := rfl
@[simp] theorem State.modCh_evLost (s : State) (c : Ch) (f : Channel → Channel) : (s.modCh c f).evLost = s.evLost := rfl
@[simp] theorem State.modCh_hub (s : State) (c : Ch) (f : Channel → Channel) : (s.modCh c f).hub = s.hub := rfl
@[simp] theorem State.modCh_msixTbl (s : State) (c : Ch) (f : Channel → Channel) : (s.modCh c f).msixTbl = s.msixTbl := rfl
@[simp] theorem State.modCh_pba (s : State) (c : Ch) (f : Channel → Channel) : (s.modCh c f).pba = s.pba := rfl
@[simp] theorem State.modCh_vlog (s : State) (c : Ch) (f : Channel → Channel) : (s.modCh c f).vlog = s.vlog := rfl
@[simp] theorem State.modCh_vlogHead (s : State) (c : Ch) (f : Channel → Channel) : (s.modCh c f).vlogHead = s.vlogHead := rfl
@[simp] theorem State.modCh_vlogTotal (s : State) (c : Ch) (f : Channel → Channel) : (s.modCh c f).vlogTotal = s.vlogTotal := rfl
@[simp] theorem State.modCh_trgCfg (s : State) (c : Ch) (f : Channel → Channel) : (s.modCh c f).trgCfg = s.trgCfg := rfl
@[simp] theorem State.modCh_trgCnt (s : State) (c : Ch) (f : Channel → Channel) : (s.modCh c f).trgCnt = s.trgCnt := rfl
@[simp] theorem State.modCh_trgLvl (s : State) (c : Ch) (f : Channel → Channel) : (s.modCh c f).trgLvl = s.trgLvl := rfl
@[simp] theorem State.modCh_pack (s : State) (c : Ch) (f : Channel → Channel) : (s.modCh c f).pack = s.pack := rfl
@[simp] theorem State.modCh_fw (s : State) (c : Ch) (f : Channel → Channel) : (s.modCh c f).fw = s.fw := rfl
@[simp] theorem State.modCh_aon (s : State) (c : Ch) (f : Channel → Channel) : (s.modCh c f).aon = s.aon := rfl
@[simp] theorem State.modCh_supplies (s : State) (c : Ch) (f : Channel → Channel) : (s.modCh c f).supplies = s.supplies := rfl
@[simp] theorem State.modCh_hotLock (s : State) (c : Ch) (f : Channel → Channel) : (s.modCh c f).hotLock = s.hotLock := rfl
@[simp] theorem State.modCh_clrTill (s : State) (c : Ch) (f : Channel → Channel) : (s.modCh c f).clrTill = s.clrTill := rfl
@[simp] theorem State.modCh_bars (s : State) (c : Ch) (f : Channel → Channel) : (s.modCh c f).bars = s.bars := rfl
@[simp] theorem State.modCh_mem (s : State) (c : Ch) (f : Channel → Channel) : (s.modCh c f).mem = s.mem := rfl
@[simp] theorem State.modCh_acq (s : State) (c : Ch) (f : Channel → Channel) : (s.modCh c f).acq = s.acq := rfl
@[simp] theorem State.modCh_ped (s : State) (c : Ch) (f : Channel → Channel) : (s.modCh c f).ped = s.ped := rfl
@[simp] theorem State.modCh_sec (s : State) (c : Ch) (f : Channel → Channel) : (s.modCh c f).sec = s.sec := rfl
@[simp] theorem State.modCh_calGen (s : State) (c : Ch) (f : Channel → Channel) : (s.modCh c f).calGen = s.calGen := rfl
@[simp] theorem State.modCh_genAt (s : State) (c : Ch) (f : Channel → Channel) : (s.modCh c f).genAt = s.genAt := rfl
@[simp] theorem State.modCh_planGen (s : State) (c : Ch) (f : Channel → Channel) : (s.modCh c f).planGen = s.planGen := rfl
@[simp] theorem State.modCh_paths (s : State) (c : Ch) (f : Channel → Channel) : (s.modCh c f).paths = s.paths := rfl

/-! ### modCl -/

@[simp] theorem State.modCl_pending (s : State) (n : Cl) (f : Cluster → Cluster) : (s.modCl n f).pending = s.pending := rfl
@[simp] theorem State.modCl_tick (s : State) (n : Cl) (f : Cluster → Cluster) : (s.modCl n f).tick = s.tick := rfl
@[simp] theorem State.modCl_dieTick (s : State) (n : Cl) (f : Cluster → Cluster) : (s.modCl n f).dieTick = s.dieTick := rfl
@[simp] theorem State.modCl_freeCtr (s : State) (n : Cl) (f : Cluster → Cluster) : (s.modCl n f).freeCtr = s.freeCtr := rfl
@[simp] theorem State.modCl_chan (s : State) (n : Cl) (f : Cluster → Cluster) : (s.modCl n f).chan = s.chan := rfl
@[simp] theorem State.modCl_phys (s : State) (n : Cl) (f : Cluster → Cluster) : (s.modCl n f).phys = s.phys := rfl
@[simp] theorem State.modCl_rgn (s : State) (n : Cl) (f : Cluster → Cluster) : (s.modCl n f).rgn = s.rgn := rfl
@[simp] theorem State.modCl_die (s : State) (n : Cl) (f : Cluster → Cluster) : (s.modCl n f).die = s.die := rfl
@[simp] theorem State.modCl_ctxs (s : State) (n : Cl) (f : Cluster → Cluster) : (s.modCl n f).ctxs = s.ctxs := rfl
@[simp] theorem State.modCl_owner (s : State) (n : Cl) (f : Cluster → Cluster) : (s.modCl n f).owner = s.owner := rfl
@[simp] theorem State.modCl_rings (s : State) (n : Cl) (f : Cluster → Cluster) : (s.modCl n f).rings = s.rings := rfl
@[simp] theorem State.modCl_cache (s : State) (n : Cl) (f : Cluster → Cluster) : (s.modCl n f).cache = s.cache := rfl
@[simp] theorem State.modCl_items (s : State) (n : Cl) (f : Cluster → Cluster) : (s.modCl n f).items = s.items := rfl
@[simp] theorem State.modCl_journal (s : State) (n : Cl) (f : Cluster → Cluster) : (s.modCl n f).journal = s.journal := rfl
@[simp] theorem State.modCl_cqWait (s : State) (n : Cl) (f : Cluster → Cluster) : (s.modCl n f).cqWait = s.cqWait := rfl
@[simp] theorem State.modCl_hostOut (s : State) (n : Cl) (f : Cluster → Cluster) : (s.modCl n f).hostOut = s.hostOut := rfl
@[simp] theorem State.modCl_msixSent (s : State) (n : Cl) (f : Cluster → Cluster) : (s.modCl n f).msixSent = s.msixSent := rfl
@[simp] theorem State.modCl_tailWb (s : State) (n : Cl) (f : Cluster → Cluster) : (s.modCl n f).tailWb = s.tailWb := rfl
@[simp] theorem State.modCl_lastRead (s : State) (n : Cl) (f : Cluster → Cluster) : (s.modCl n f).lastRead = s.lastRead := rfl
@[simp] theorem State.modCl_ev (s : State) (n : Cl) (f : Cluster → Cluster) : (s.modCl n f).ev = s.ev := rfl
@[simp] theorem State.modCl_evSeq (s : State) (n : Cl) (f : Cluster → Cluster) : (s.modCl n f).evSeq = s.evSeq := rfl
@[simp] theorem State.modCl_evLost (s : State) (n : Cl) (f : Cluster → Cluster) : (s.modCl n f).evLost = s.evLost := rfl
@[simp] theorem State.modCl_hub (s : State) (n : Cl) (f : Cluster → Cluster) : (s.modCl n f).hub = s.hub := rfl
@[simp] theorem State.modCl_msixTbl (s : State) (n : Cl) (f : Cluster → Cluster) : (s.modCl n f).msixTbl = s.msixTbl := rfl
@[simp] theorem State.modCl_pba (s : State) (n : Cl) (f : Cluster → Cluster) : (s.modCl n f).pba = s.pba := rfl
@[simp] theorem State.modCl_vlog (s : State) (n : Cl) (f : Cluster → Cluster) : (s.modCl n f).vlog = s.vlog := rfl
@[simp] theorem State.modCl_vlogHead (s : State) (n : Cl) (f : Cluster → Cluster) : (s.modCl n f).vlogHead = s.vlogHead := rfl
@[simp] theorem State.modCl_vlogTotal (s : State) (n : Cl) (f : Cluster → Cluster) : (s.modCl n f).vlogTotal = s.vlogTotal := rfl
@[simp] theorem State.modCl_trgCfg (s : State) (n : Cl) (f : Cluster → Cluster) : (s.modCl n f).trgCfg = s.trgCfg := rfl
@[simp] theorem State.modCl_trgCnt (s : State) (n : Cl) (f : Cluster → Cluster) : (s.modCl n f).trgCnt = s.trgCnt := rfl
@[simp] theorem State.modCl_trgLvl (s : State) (n : Cl) (f : Cluster → Cluster) : (s.modCl n f).trgLvl = s.trgLvl := rfl
@[simp] theorem State.modCl_pack (s : State) (n : Cl) (f : Cluster → Cluster) : (s.modCl n f).pack = s.pack := rfl
@[simp] theorem State.modCl_fw (s : State) (n : Cl) (f : Cluster → Cluster) : (s.modCl n f).fw = s.fw := rfl
@[simp] theorem State.modCl_aon (s : State) (n : Cl) (f : Cluster → Cluster) : (s.modCl n f).aon = s.aon := rfl
@[simp] theorem State.modCl_supplies (s : State) (n : Cl) (f : Cluster → Cluster) : (s.modCl n f).supplies = s.supplies := rfl
@[simp] theorem State.modCl_hotLock (s : State) (n : Cl) (f : Cluster → Cluster) : (s.modCl n f).hotLock = s.hotLock := rfl
@[simp] theorem State.modCl_clrTill (s : State) (n : Cl) (f : Cluster → Cluster) : (s.modCl n f).clrTill = s.clrTill := rfl
@[simp] theorem State.modCl_bars (s : State) (n : Cl) (f : Cluster → Cluster) : (s.modCl n f).bars = s.bars := rfl
@[simp] theorem State.modCl_mem (s : State) (n : Cl) (f : Cluster → Cluster) : (s.modCl n f).mem = s.mem := rfl
@[simp] theorem State.modCl_acq (s : State) (n : Cl) (f : Cluster → Cluster) : (s.modCl n f).acq = s.acq := rfl
@[simp] theorem State.modCl_ped (s : State) (n : Cl) (f : Cluster → Cluster) : (s.modCl n f).ped = s.ped := rfl
@[simp] theorem State.modCl_sec (s : State) (n : Cl) (f : Cluster → Cluster) : (s.modCl n f).sec = s.sec := rfl
@[simp] theorem State.modCl_calGen (s : State) (n : Cl) (f : Cluster → Cluster) : (s.modCl n f).calGen = s.calGen := rfl
@[simp] theorem State.modCl_genAt (s : State) (n : Cl) (f : Cluster → Cluster) : (s.modCl n f).genAt = s.genAt := rfl
@[simp] theorem State.modCl_planGen (s : State) (n : Cl) (f : Cluster → Cluster) : (s.modCl n f).planGen = s.planGen := rfl
@[simp] theorem State.modCl_paths (s : State) (n : Cl) (f : Cluster → Cluster) : (s.modCl n f).paths = s.paths := rfl

/-! ### modTh -/

@[simp] theorem State.modTh_pending (s : State) (t : Thr) (f : Thread → Thread) : (s.modTh t f).pending = s.pending := rfl
@[simp] theorem State.modTh_tick (s : State) (t : Thr) (f : Thread → Thread) : (s.modTh t f).tick = s.tick := rfl
@[simp] theorem State.modTh_dieTick (s : State) (t : Thr) (f : Thread → Thread) : (s.modTh t f).dieTick = s.dieTick := rfl
@[simp] theorem State.modTh_freeCtr (s : State) (t : Thr) (f : Thread → Thread) : (s.modTh t f).freeCtr = s.freeCtr := rfl
@[simp] theorem State.modTh_chan (s : State) (t : Thr) (f : Thread → Thread) : (s.modTh t f).chan = s.chan := rfl
@[simp] theorem State.modTh_phys (s : State) (t : Thr) (f : Thread → Thread) : (s.modTh t f).phys = s.phys := rfl
@[simp] theorem State.modTh_rgn (s : State) (t : Thr) (f : Thread → Thread) : (s.modTh t f).rgn = s.rgn := rfl
@[simp] theorem State.modTh_die (s : State) (t : Thr) (f : Thread → Thread) : (s.modTh t f).die = s.die := rfl
@[simp] theorem State.modTh_ctxs (s : State) (t : Thr) (f : Thread → Thread) : (s.modTh t f).ctxs = s.ctxs := rfl
@[simp] theorem State.modTh_owner (s : State) (t : Thr) (f : Thread → Thread) : (s.modTh t f).owner = s.owner := rfl
@[simp] theorem State.modTh_rings (s : State) (t : Thr) (f : Thread → Thread) : (s.modTh t f).rings = s.rings := rfl
@[simp] theorem State.modTh_cache (s : State) (t : Thr) (f : Thread → Thread) : (s.modTh t f).cache = s.cache := rfl
@[simp] theorem State.modTh_items (s : State) (t : Thr) (f : Thread → Thread) : (s.modTh t f).items = s.items := rfl
@[simp] theorem State.modTh_journal (s : State) (t : Thr) (f : Thread → Thread) : (s.modTh t f).journal = s.journal := rfl
@[simp] theorem State.modTh_cqWait (s : State) (t : Thr) (f : Thread → Thread) : (s.modTh t f).cqWait = s.cqWait := rfl
@[simp] theorem State.modTh_hostOut (s : State) (t : Thr) (f : Thread → Thread) : (s.modTh t f).hostOut = s.hostOut := rfl
@[simp] theorem State.modTh_msixSent (s : State) (t : Thr) (f : Thread → Thread) : (s.modTh t f).msixSent = s.msixSent := rfl
@[simp] theorem State.modTh_tailWb (s : State) (t : Thr) (f : Thread → Thread) : (s.modTh t f).tailWb = s.tailWb := rfl
@[simp] theorem State.modTh_lastRead (s : State) (t : Thr) (f : Thread → Thread) : (s.modTh t f).lastRead = s.lastRead := rfl
@[simp] theorem State.modTh_ev (s : State) (t : Thr) (f : Thread → Thread) : (s.modTh t f).ev = s.ev := rfl
@[simp] theorem State.modTh_evSeq (s : State) (t : Thr) (f : Thread → Thread) : (s.modTh t f).evSeq = s.evSeq := rfl
@[simp] theorem State.modTh_evLost (s : State) (t : Thr) (f : Thread → Thread) : (s.modTh t f).evLost = s.evLost := rfl
@[simp] theorem State.modTh_hub (s : State) (t : Thr) (f : Thread → Thread) : (s.modTh t f).hub = s.hub := rfl
@[simp] theorem State.modTh_msixTbl (s : State) (t : Thr) (f : Thread → Thread) : (s.modTh t f).msixTbl = s.msixTbl := rfl
@[simp] theorem State.modTh_pba (s : State) (t : Thr) (f : Thread → Thread) : (s.modTh t f).pba = s.pba := rfl
@[simp] theorem State.modTh_vlog (s : State) (t : Thr) (f : Thread → Thread) : (s.modTh t f).vlog = s.vlog := rfl
@[simp] theorem State.modTh_vlogHead (s : State) (t : Thr) (f : Thread → Thread) : (s.modTh t f).vlogHead = s.vlogHead := rfl
@[simp] theorem State.modTh_vlogTotal (s : State) (t : Thr) (f : Thread → Thread) : (s.modTh t f).vlogTotal = s.vlogTotal := rfl
@[simp] theorem State.modTh_trgCfg (s : State) (t : Thr) (f : Thread → Thread) : (s.modTh t f).trgCfg = s.trgCfg := rfl
@[simp] theorem State.modTh_trgCnt (s : State) (t : Thr) (f : Thread → Thread) : (s.modTh t f).trgCnt = s.trgCnt := rfl
@[simp] theorem State.modTh_trgLvl (s : State) (t : Thr) (f : Thread → Thread) : (s.modTh t f).trgLvl = s.trgLvl := rfl
@[simp] theorem State.modTh_pack (s : State) (t : Thr) (f : Thread → Thread) : (s.modTh t f).pack = s.pack := rfl
@[simp] theorem State.modTh_fw (s : State) (t : Thr) (f : Thread → Thread) : (s.modTh t f).fw = s.fw := rfl
@[simp] theorem State.modTh_aon (s : State) (t : Thr) (f : Thread → Thread) : (s.modTh t f).aon = s.aon := rfl
@[simp] theorem State.modTh_supplies (s : State) (t : Thr) (f : Thread → Thread) : (s.modTh t f).supplies = s.supplies := rfl
@[simp] theorem State.modTh_hotLock (s : State) (t : Thr) (f : Thread → Thread) : (s.modTh t f).hotLock = s.hotLock := rfl
@[simp] theorem State.modTh_clrTill (s : State) (t : Thr) (f : Thread → Thread) : (s.modTh t f).clrTill = s.clrTill := rfl
@[simp] theorem State.modTh_bars (s : State) (t : Thr) (f : Thread → Thread) : (s.modTh t f).bars = s.bars := rfl
@[simp] theorem State.modTh_mem (s : State) (t : Thr) (f : Thread → Thread) : (s.modTh t f).mem = s.mem := rfl
@[simp] theorem State.modTh_acq (s : State) (t : Thr) (f : Thread → Thread) : (s.modTh t f).acq = s.acq := rfl
@[simp] theorem State.modTh_ped (s : State) (t : Thr) (f : Thread → Thread) : (s.modTh t f).ped = s.ped := rfl
@[simp] theorem State.modTh_sec (s : State) (t : Thr) (f : Thread → Thread) : (s.modTh t f).sec = s.sec := rfl
@[simp] theorem State.modTh_calGen (s : State) (t : Thr) (f : Thread → Thread) : (s.modTh t f).calGen = s.calGen := rfl
@[simp] theorem State.modTh_genAt (s : State) (t : Thr) (f : Thread → Thread) : (s.modTh t f).genAt = s.genAt := rfl
@[simp] theorem State.modTh_planGen (s : State) (t : Thr) (f : Thread → Thread) : (s.modTh t f).planGen = s.planGen := rfl
@[simp] theorem State.modTh_paths (s : State) (t : Thr) (f : Thread → Thread) : (s.modTh t f).paths = s.paths := rfl

/-! ### modRg -/

@[simp] theorem State.modRg_pending (s : State) (r : Rg) (f : Region → Region) : (s.modRg r f).pending = s.pending := rfl
@[simp] theorem State.modRg_tick (s : State) (r : Rg) (f : Region → Region) : (s.modRg r f).tick = s.tick := rfl
@[simp] theorem State.modRg_dieTick (s : State) (r : Rg) (f : Region → Region) : (s.modRg r f).dieTick = s.dieTick := rfl
@[simp] theorem State.modRg_freeCtr (s : State) (r : Rg) (f : Region → Region) : (s.modRg r f).freeCtr = s.freeCtr := rfl
@[simp] theorem State.modRg_chan (s : State) (r : Rg) (f : Region → Region) : (s.modRg r f).chan = s.chan := rfl
@[simp] theorem State.modRg_phys (s : State) (r : Rg) (f : Region → Region) : (s.modRg r f).phys = s.phys := rfl
@[simp] theorem State.modRg_clus (s : State) (r : Rg) (f : Region → Region) : (s.modRg r f).clus = s.clus := rfl
@[simp] theorem State.modRg_die (s : State) (r : Rg) (f : Region → Region) : (s.modRg r f).die = s.die := rfl
@[simp] theorem State.modRg_ctxs (s : State) (r : Rg) (f : Region → Region) : (s.modRg r f).ctxs = s.ctxs := rfl
@[simp] theorem State.modRg_owner (s : State) (r : Rg) (f : Region → Region) : (s.modRg r f).owner = s.owner := rfl
@[simp] theorem State.modRg_rings (s : State) (r : Rg) (f : Region → Region) : (s.modRg r f).rings = s.rings := rfl
@[simp] theorem State.modRg_cache (s : State) (r : Rg) (f : Region → Region) : (s.modRg r f).cache = s.cache := rfl
@[simp] theorem State.modRg_items (s : State) (r : Rg) (f : Region → Region) : (s.modRg r f).items = s.items := rfl
@[simp] theorem State.modRg_journal (s : State) (r : Rg) (f : Region → Region) : (s.modRg r f).journal = s.journal := rfl
@[simp] theorem State.modRg_cqWait (s : State) (r : Rg) (f : Region → Region) : (s.modRg r f).cqWait = s.cqWait := rfl
@[simp] theorem State.modRg_hostOut (s : State) (r : Rg) (f : Region → Region) : (s.modRg r f).hostOut = s.hostOut := rfl
@[simp] theorem State.modRg_msixSent (s : State) (r : Rg) (f : Region → Region) : (s.modRg r f).msixSent = s.msixSent := rfl
@[simp] theorem State.modRg_tailWb (s : State) (r : Rg) (f : Region → Region) : (s.modRg r f).tailWb = s.tailWb := rfl
@[simp] theorem State.modRg_lastRead (s : State) (r : Rg) (f : Region → Region) : (s.modRg r f).lastRead = s.lastRead := rfl
@[simp] theorem State.modRg_ev (s : State) (r : Rg) (f : Region → Region) : (s.modRg r f).ev = s.ev := rfl
@[simp] theorem State.modRg_evSeq (s : State) (r : Rg) (f : Region → Region) : (s.modRg r f).evSeq = s.evSeq := rfl
@[simp] theorem State.modRg_evLost (s : State) (r : Rg) (f : Region → Region) : (s.modRg r f).evLost = s.evLost := rfl
@[simp] theorem State.modRg_hub (s : State) (r : Rg) (f : Region → Region) : (s.modRg r f).hub = s.hub := rfl
@[simp] theorem State.modRg_msixTbl (s : State) (r : Rg) (f : Region → Region) : (s.modRg r f).msixTbl = s.msixTbl := rfl
@[simp] theorem State.modRg_pba (s : State) (r : Rg) (f : Region → Region) : (s.modRg r f).pba = s.pba := rfl
@[simp] theorem State.modRg_vlog (s : State) (r : Rg) (f : Region → Region) : (s.modRg r f).vlog = s.vlog := rfl
@[simp] theorem State.modRg_vlogHead (s : State) (r : Rg) (f : Region → Region) : (s.modRg r f).vlogHead = s.vlogHead := rfl
@[simp] theorem State.modRg_vlogTotal (s : State) (r : Rg) (f : Region → Region) : (s.modRg r f).vlogTotal = s.vlogTotal := rfl
@[simp] theorem State.modRg_trgCfg (s : State) (r : Rg) (f : Region → Region) : (s.modRg r f).trgCfg = s.trgCfg := rfl
@[simp] theorem State.modRg_trgCnt (s : State) (r : Rg) (f : Region → Region) : (s.modRg r f).trgCnt = s.trgCnt := rfl
@[simp] theorem State.modRg_trgLvl (s : State) (r : Rg) (f : Region → Region) : (s.modRg r f).trgLvl = s.trgLvl := rfl
@[simp] theorem State.modRg_pack (s : State) (r : Rg) (f : Region → Region) : (s.modRg r f).pack = s.pack := rfl
@[simp] theorem State.modRg_fw (s : State) (r : Rg) (f : Region → Region) : (s.modRg r f).fw = s.fw := rfl
@[simp] theorem State.modRg_aon (s : State) (r : Rg) (f : Region → Region) : (s.modRg r f).aon = s.aon := rfl
@[simp] theorem State.modRg_supplies (s : State) (r : Rg) (f : Region → Region) : (s.modRg r f).supplies = s.supplies := rfl
@[simp] theorem State.modRg_hotLock (s : State) (r : Rg) (f : Region → Region) : (s.modRg r f).hotLock = s.hotLock := rfl
@[simp] theorem State.modRg_clrTill (s : State) (r : Rg) (f : Region → Region) : (s.modRg r f).clrTill = s.clrTill := rfl
@[simp] theorem State.modRg_bars (s : State) (r : Rg) (f : Region → Region) : (s.modRg r f).bars = s.bars := rfl
@[simp] theorem State.modRg_mem (s : State) (r : Rg) (f : Region → Region) : (s.modRg r f).mem = s.mem := rfl
@[simp] theorem State.modRg_acq (s : State) (r : Rg) (f : Region → Region) : (s.modRg r f).acq = s.acq := rfl
@[simp] theorem State.modRg_ped (s : State) (r : Rg) (f : Region → Region) : (s.modRg r f).ped = s.ped := rfl
@[simp] theorem State.modRg_sec (s : State) (r : Rg) (f : Region → Region) : (s.modRg r f).sec = s.sec := rfl
@[simp] theorem State.modRg_calGen (s : State) (r : Rg) (f : Region → Region) : (s.modRg r f).calGen = s.calGen := rfl
@[simp] theorem State.modRg_genAt (s : State) (r : Rg) (f : Region → Region) : (s.modRg r f).genAt = s.genAt := rfl
@[simp] theorem State.modRg_planGen (s : State) (r : Rg) (f : Region → Region) : (s.modRg r f).planGen = s.planGen := rfl
@[simp] theorem State.modRg_paths (s : State) (r : Rg) (f : Region → Region) : (s.modRg r f).paths = s.paths := rfl

/-! ### modDie -/

@[simp] theorem State.modDie_pending (s : State) (d : Die) (f : DieState → DieState) : (s.modDie d f).pending = s.pending := rfl
@[simp] theorem State.modDie_tick (s : State) (d : Die) (f : DieState → DieState) : (s.modDie d f).tick = s.tick := rfl
@[simp] theorem State.modDie_dieTick (s : State) (d : Die) (f : DieState → DieState) : (s.modDie d f).dieTick = s.dieTick := rfl
@[simp] theorem State.modDie_freeCtr (s : State) (d : Die) (f : DieState → DieState) : (s.modDie d f).freeCtr = s.freeCtr := rfl
@[simp] theorem State.modDie_chan (s : State) (d : Die) (f : DieState → DieState) : (s.modDie d f).chan = s.chan := rfl
@[simp] theorem State.modDie_phys (s : State) (d : Die) (f : DieState → DieState) : (s.modDie d f).phys = s.phys := rfl
@[simp] theorem State.modDie_clus (s : State) (d : Die) (f : DieState → DieState) : (s.modDie d f).clus = s.clus := rfl
@[simp] theorem State.modDie_rgn (s : State) (d : Die) (f : DieState → DieState) : (s.modDie d f).rgn = s.rgn := rfl
@[simp] theorem State.modDie_ctxs (s : State) (d : Die) (f : DieState → DieState) : (s.modDie d f).ctxs = s.ctxs := rfl
@[simp] theorem State.modDie_owner (s : State) (d : Die) (f : DieState → DieState) : (s.modDie d f).owner = s.owner := rfl
@[simp] theorem State.modDie_rings (s : State) (d : Die) (f : DieState → DieState) : (s.modDie d f).rings = s.rings := rfl
@[simp] theorem State.modDie_cache (s : State) (d : Die) (f : DieState → DieState) : (s.modDie d f).cache = s.cache := rfl
@[simp] theorem State.modDie_items (s : State) (d : Die) (f : DieState → DieState) : (s.modDie d f).items = s.items := rfl
@[simp] theorem State.modDie_journal (s : State) (d : Die) (f : DieState → DieState) : (s.modDie d f).journal = s.journal := rfl
@[simp] theorem State.modDie_cqWait (s : State) (d : Die) (f : DieState → DieState) : (s.modDie d f).cqWait = s.cqWait := rfl
@[simp] theorem State.modDie_hostOut (s : State) (d : Die) (f : DieState → DieState) : (s.modDie d f).hostOut = s.hostOut := rfl
@[simp] theorem State.modDie_msixSent (s : State) (d : Die) (f : DieState → DieState) : (s.modDie d f).msixSent = s.msixSent := rfl
@[simp] theorem State.modDie_tailWb (s : State) (d : Die) (f : DieState → DieState) : (s.modDie d f).tailWb = s.tailWb := rfl
@[simp] theorem State.modDie_lastRead (s : State) (d : Die) (f : DieState → DieState) : (s.modDie d f).lastRead = s.lastRead := rfl
@[simp] theorem State.modDie_ev (s : State) (d : Die) (f : DieState → DieState) : (s.modDie d f).ev = s.ev := rfl
@[simp] theorem State.modDie_evSeq (s : State) (d : Die) (f : DieState → DieState) : (s.modDie d f).evSeq = s.evSeq := rfl
@[simp] theorem State.modDie_evLost (s : State) (d : Die) (f : DieState → DieState) : (s.modDie d f).evLost = s.evLost := rfl
@[simp] theorem State.modDie_hub (s : State) (d : Die) (f : DieState → DieState) : (s.modDie d f).hub = s.hub := rfl
@[simp] theorem State.modDie_msixTbl (s : State) (d : Die) (f : DieState → DieState) : (s.modDie d f).msixTbl = s.msixTbl := rfl
@[simp] theorem State.modDie_pba (s : State) (d : Die) (f : DieState → DieState) : (s.modDie d f).pba = s.pba := rfl
@[simp] theorem State.modDie_vlog (s : State) (d : Die) (f : DieState → DieState) : (s.modDie d f).vlog = s.vlog := rfl
@[simp] theorem State.modDie_vlogHead (s : State) (d : Die) (f : DieState → DieState) : (s.modDie d f).vlogHead = s.vlogHead := rfl
@[simp] theorem State.modDie_vlogTotal (s : State) (d : Die) (f : DieState → DieState) : (s.modDie d f).vlogTotal = s.vlogTotal := rfl
@[simp] theorem State.modDie_trgCfg (s : State) (d : Die) (f : DieState → DieState) : (s.modDie d f).trgCfg = s.trgCfg := rfl
@[simp] theorem State.modDie_trgCnt (s : State) (d : Die) (f : DieState → DieState) : (s.modDie d f).trgCnt = s.trgCnt := rfl
@[simp] theorem State.modDie_trgLvl (s : State) (d : Die) (f : DieState → DieState) : (s.modDie d f).trgLvl = s.trgLvl := rfl
@[simp] theorem State.modDie_pack (s : State) (d : Die) (f : DieState → DieState) : (s.modDie d f).pack = s.pack := rfl
@[simp] theorem State.modDie_fw (s : State) (d : Die) (f : DieState → DieState) : (s.modDie d f).fw = s.fw := rfl
@[simp] theorem State.modDie_aon (s : State) (d : Die) (f : DieState → DieState) : (s.modDie d f).aon = s.aon := rfl
@[simp] theorem State.modDie_supplies (s : State) (d : Die) (f : DieState → DieState) : (s.modDie d f).supplies = s.supplies := rfl
@[simp] theorem State.modDie_hotLock (s : State) (d : Die) (f : DieState → DieState) : (s.modDie d f).hotLock = s.hotLock := rfl
@[simp] theorem State.modDie_clrTill (s : State) (d : Die) (f : DieState → DieState) : (s.modDie d f).clrTill = s.clrTill := rfl
@[simp] theorem State.modDie_bars (s : State) (d : Die) (f : DieState → DieState) : (s.modDie d f).bars = s.bars := rfl
@[simp] theorem State.modDie_mem (s : State) (d : Die) (f : DieState → DieState) : (s.modDie d f).mem = s.mem := rfl
@[simp] theorem State.modDie_acq (s : State) (d : Die) (f : DieState → DieState) : (s.modDie d f).acq = s.acq := rfl
@[simp] theorem State.modDie_ped (s : State) (d : Die) (f : DieState → DieState) : (s.modDie d f).ped = s.ped := rfl
@[simp] theorem State.modDie_sec (s : State) (d : Die) (f : DieState → DieState) : (s.modDie d f).sec = s.sec := rfl
@[simp] theorem State.modDie_calGen (s : State) (d : Die) (f : DieState → DieState) : (s.modDie d f).calGen = s.calGen := rfl
@[simp] theorem State.modDie_genAt (s : State) (d : Die) (f : DieState → DieState) : (s.modDie d f).genAt = s.genAt := rfl
@[simp] theorem State.modDie_planGen (s : State) (d : Die) (f : DieState → DieState) : (s.modDie d f).planGen = s.planGen := rfl
@[simp] theorem State.modDie_paths (s : State) (d : Die) (f : DieState → DieState) : (s.modDie d f).paths = s.paths := rfl

/-! ### modCtx -/

@[simp] theorem State.modCtx_pending (s : State) (k : Ctx) (f : CtxState → CtxState) : (s.modCtx k f).pending = s.pending := rfl
@[simp] theorem State.modCtx_tick (s : State) (k : Ctx) (f : CtxState → CtxState) : (s.modCtx k f).tick = s.tick := rfl
@[simp] theorem State.modCtx_dieTick (s : State) (k : Ctx) (f : CtxState → CtxState) : (s.modCtx k f).dieTick = s.dieTick := rfl
@[simp] theorem State.modCtx_freeCtr (s : State) (k : Ctx) (f : CtxState → CtxState) : (s.modCtx k f).freeCtr = s.freeCtr := rfl
@[simp] theorem State.modCtx_chan (s : State) (k : Ctx) (f : CtxState → CtxState) : (s.modCtx k f).chan = s.chan := rfl
@[simp] theorem State.modCtx_phys (s : State) (k : Ctx) (f : CtxState → CtxState) : (s.modCtx k f).phys = s.phys := rfl
@[simp] theorem State.modCtx_clus (s : State) (k : Ctx) (f : CtxState → CtxState) : (s.modCtx k f).clus = s.clus := rfl
@[simp] theorem State.modCtx_rgn (s : State) (k : Ctx) (f : CtxState → CtxState) : (s.modCtx k f).rgn = s.rgn := rfl
@[simp] theorem State.modCtx_die (s : State) (k : Ctx) (f : CtxState → CtxState) : (s.modCtx k f).die = s.die := rfl
@[simp] theorem State.modCtx_owner (s : State) (k : Ctx) (f : CtxState → CtxState) : (s.modCtx k f).owner = s.owner := rfl
@[simp] theorem State.modCtx_rings (s : State) (k : Ctx) (f : CtxState → CtxState) : (s.modCtx k f).rings = s.rings := rfl
@[simp] theorem State.modCtx_cache (s : State) (k : Ctx) (f : CtxState → CtxState) : (s.modCtx k f).cache = s.cache := rfl
@[simp] theorem State.modCtx_items (s : State) (k : Ctx) (f : CtxState → CtxState) : (s.modCtx k f).items = s.items := rfl
@[simp] theorem State.modCtx_journal (s : State) (k : Ctx) (f : CtxState → CtxState) : (s.modCtx k f).journal = s.journal := rfl
@[simp] theorem State.modCtx_cqWait (s : State) (k : Ctx) (f : CtxState → CtxState) : (s.modCtx k f).cqWait = s.cqWait := rfl
@[simp] theorem State.modCtx_hostOut (s : State) (k : Ctx) (f : CtxState → CtxState) : (s.modCtx k f).hostOut = s.hostOut := rfl
@[simp] theorem State.modCtx_msixSent (s : State) (k : Ctx) (f : CtxState → CtxState) : (s.modCtx k f).msixSent = s.msixSent := rfl
@[simp] theorem State.modCtx_tailWb (s : State) (k : Ctx) (f : CtxState → CtxState) : (s.modCtx k f).tailWb = s.tailWb := rfl
@[simp] theorem State.modCtx_lastRead (s : State) (k : Ctx) (f : CtxState → CtxState) : (s.modCtx k f).lastRead = s.lastRead := rfl
@[simp] theorem State.modCtx_ev (s : State) (k : Ctx) (f : CtxState → CtxState) : (s.modCtx k f).ev = s.ev := rfl
@[simp] theorem State.modCtx_evSeq (s : State) (k : Ctx) (f : CtxState → CtxState) : (s.modCtx k f).evSeq = s.evSeq := rfl
@[simp] theorem State.modCtx_evLost (s : State) (k : Ctx) (f : CtxState → CtxState) : (s.modCtx k f).evLost = s.evLost := rfl
@[simp] theorem State.modCtx_hub (s : State) (k : Ctx) (f : CtxState → CtxState) : (s.modCtx k f).hub = s.hub := rfl
@[simp] theorem State.modCtx_msixTbl (s : State) (k : Ctx) (f : CtxState → CtxState) : (s.modCtx k f).msixTbl = s.msixTbl := rfl
@[simp] theorem State.modCtx_pba (s : State) (k : Ctx) (f : CtxState → CtxState) : (s.modCtx k f).pba = s.pba := rfl
@[simp] theorem State.modCtx_vlog (s : State) (k : Ctx) (f : CtxState → CtxState) : (s.modCtx k f).vlog = s.vlog := rfl
@[simp] theorem State.modCtx_vlogHead (s : State) (k : Ctx) (f : CtxState → CtxState) : (s.modCtx k f).vlogHead = s.vlogHead := rfl
@[simp] theorem State.modCtx_vlogTotal (s : State) (k : Ctx) (f : CtxState → CtxState) : (s.modCtx k f).vlogTotal = s.vlogTotal := rfl
@[simp] theorem State.modCtx_trgCfg (s : State) (k : Ctx) (f : CtxState → CtxState) : (s.modCtx k f).trgCfg = s.trgCfg := rfl
@[simp] theorem State.modCtx_trgCnt (s : State) (k : Ctx) (f : CtxState → CtxState) : (s.modCtx k f).trgCnt = s.trgCnt := rfl
@[simp] theorem State.modCtx_trgLvl (s : State) (k : Ctx) (f : CtxState → CtxState) : (s.modCtx k f).trgLvl = s.trgLvl := rfl
@[simp] theorem State.modCtx_pack (s : State) (k : Ctx) (f : CtxState → CtxState) : (s.modCtx k f).pack = s.pack := rfl
@[simp] theorem State.modCtx_fw (s : State) (k : Ctx) (f : CtxState → CtxState) : (s.modCtx k f).fw = s.fw := rfl
@[simp] theorem State.modCtx_aon (s : State) (k : Ctx) (f : CtxState → CtxState) : (s.modCtx k f).aon = s.aon := rfl
@[simp] theorem State.modCtx_supplies (s : State) (k : Ctx) (f : CtxState → CtxState) : (s.modCtx k f).supplies = s.supplies := rfl
@[simp] theorem State.modCtx_hotLock (s : State) (k : Ctx) (f : CtxState → CtxState) : (s.modCtx k f).hotLock = s.hotLock := rfl
@[simp] theorem State.modCtx_clrTill (s : State) (k : Ctx) (f : CtxState → CtxState) : (s.modCtx k f).clrTill = s.clrTill := rfl
@[simp] theorem State.modCtx_bars (s : State) (k : Ctx) (f : CtxState → CtxState) : (s.modCtx k f).bars = s.bars := rfl
@[simp] theorem State.modCtx_mem (s : State) (k : Ctx) (f : CtxState → CtxState) : (s.modCtx k f).mem = s.mem := rfl
@[simp] theorem State.modCtx_acq (s : State) (k : Ctx) (f : CtxState → CtxState) : (s.modCtx k f).acq = s.acq := rfl
@[simp] theorem State.modCtx_ped (s : State) (k : Ctx) (f : CtxState → CtxState) : (s.modCtx k f).ped = s.ped := rfl
@[simp] theorem State.modCtx_sec (s : State) (k : Ctx) (f : CtxState → CtxState) : (s.modCtx k f).sec = s.sec := rfl
@[simp] theorem State.modCtx_calGen (s : State) (k : Ctx) (f : CtxState → CtxState) : (s.modCtx k f).calGen = s.calGen := rfl
@[simp] theorem State.modCtx_genAt (s : State) (k : Ctx) (f : CtxState → CtxState) : (s.modCtx k f).genAt = s.genAt := rfl
@[simp] theorem State.modCtx_planGen (s : State) (k : Ctx) (f : CtxState → CtxState) : (s.modCtx k f).planGen = s.planGen := rfl
@[simp] theorem State.modCtx_paths (s : State) (k : Ctx) (f : CtxState → CtxState) : (s.modCtx k f).paths = s.paths := rfl

/-! ### modPh -/

@[simp] theorem State.modPh_pending (s : State) (c : Ch) (f : Phys → Phys) : (s.modPh c f).pending = s.pending := rfl
@[simp] theorem State.modPh_tick (s : State) (c : Ch) (f : Phys → Phys) : (s.modPh c f).tick = s.tick := rfl
@[simp] theorem State.modPh_dieTick (s : State) (c : Ch) (f : Phys → Phys) : (s.modPh c f).dieTick = s.dieTick := rfl
@[simp] theorem State.modPh_freeCtr (s : State) (c : Ch) (f : Phys → Phys) : (s.modPh c f).freeCtr = s.freeCtr := rfl
@[simp] theorem State.modPh_chan (s : State) (c : Ch) (f : Phys → Phys) : (s.modPh c f).chan = s.chan := rfl
@[simp] theorem State.modPh_clus (s : State) (c : Ch) (f : Phys → Phys) : (s.modPh c f).clus = s.clus := rfl
@[simp] theorem State.modPh_rgn (s : State) (c : Ch) (f : Phys → Phys) : (s.modPh c f).rgn = s.rgn := rfl
@[simp] theorem State.modPh_die (s : State) (c : Ch) (f : Phys → Phys) : (s.modPh c f).die = s.die := rfl
@[simp] theorem State.modPh_ctxs (s : State) (c : Ch) (f : Phys → Phys) : (s.modPh c f).ctxs = s.ctxs := rfl
@[simp] theorem State.modPh_owner (s : State) (c : Ch) (f : Phys → Phys) : (s.modPh c f).owner = s.owner := rfl
@[simp] theorem State.modPh_rings (s : State) (c : Ch) (f : Phys → Phys) : (s.modPh c f).rings = s.rings := rfl
@[simp] theorem State.modPh_cache (s : State) (c : Ch) (f : Phys → Phys) : (s.modPh c f).cache = s.cache := rfl
@[simp] theorem State.modPh_items (s : State) (c : Ch) (f : Phys → Phys) : (s.modPh c f).items = s.items := rfl
@[simp] theorem State.modPh_journal (s : State) (c : Ch) (f : Phys → Phys) : (s.modPh c f).journal = s.journal := rfl
@[simp] theorem State.modPh_cqWait (s : State) (c : Ch) (f : Phys → Phys) : (s.modPh c f).cqWait = s.cqWait := rfl
@[simp] theorem State.modPh_hostOut (s : State) (c : Ch) (f : Phys → Phys) : (s.modPh c f).hostOut = s.hostOut := rfl
@[simp] theorem State.modPh_msixSent (s : State) (c : Ch) (f : Phys → Phys) : (s.modPh c f).msixSent = s.msixSent := rfl
@[simp] theorem State.modPh_tailWb (s : State) (c : Ch) (f : Phys → Phys) : (s.modPh c f).tailWb = s.tailWb := rfl
@[simp] theorem State.modPh_lastRead (s : State) (c : Ch) (f : Phys → Phys) : (s.modPh c f).lastRead = s.lastRead := rfl
@[simp] theorem State.modPh_ev (s : State) (c : Ch) (f : Phys → Phys) : (s.modPh c f).ev = s.ev := rfl
@[simp] theorem State.modPh_evSeq (s : State) (c : Ch) (f : Phys → Phys) : (s.modPh c f).evSeq = s.evSeq := rfl
@[simp] theorem State.modPh_evLost (s : State) (c : Ch) (f : Phys → Phys) : (s.modPh c f).evLost = s.evLost := rfl
@[simp] theorem State.modPh_hub (s : State) (c : Ch) (f : Phys → Phys) : (s.modPh c f).hub = s.hub := rfl
@[simp] theorem State.modPh_msixTbl (s : State) (c : Ch) (f : Phys → Phys) : (s.modPh c f).msixTbl = s.msixTbl := rfl
@[simp] theorem State.modPh_pba (s : State) (c : Ch) (f : Phys → Phys) : (s.modPh c f).pba = s.pba := rfl
@[simp] theorem State.modPh_vlog (s : State) (c : Ch) (f : Phys → Phys) : (s.modPh c f).vlog = s.vlog := rfl
@[simp] theorem State.modPh_vlogHead (s : State) (c : Ch) (f : Phys → Phys) : (s.modPh c f).vlogHead = s.vlogHead := rfl
@[simp] theorem State.modPh_vlogTotal (s : State) (c : Ch) (f : Phys → Phys) : (s.modPh c f).vlogTotal = s.vlogTotal := rfl
@[simp] theorem State.modPh_trgCfg (s : State) (c : Ch) (f : Phys → Phys) : (s.modPh c f).trgCfg = s.trgCfg := rfl
@[simp] theorem State.modPh_trgCnt (s : State) (c : Ch) (f : Phys → Phys) : (s.modPh c f).trgCnt = s.trgCnt := rfl
@[simp] theorem State.modPh_trgLvl (s : State) (c : Ch) (f : Phys → Phys) : (s.modPh c f).trgLvl = s.trgLvl := rfl
@[simp] theorem State.modPh_pack (s : State) (c : Ch) (f : Phys → Phys) : (s.modPh c f).pack = s.pack := rfl
@[simp] theorem State.modPh_fw (s : State) (c : Ch) (f : Phys → Phys) : (s.modPh c f).fw = s.fw := rfl
@[simp] theorem State.modPh_aon (s : State) (c : Ch) (f : Phys → Phys) : (s.modPh c f).aon = s.aon := rfl
@[simp] theorem State.modPh_supplies (s : State) (c : Ch) (f : Phys → Phys) : (s.modPh c f).supplies = s.supplies := rfl
@[simp] theorem State.modPh_hotLock (s : State) (c : Ch) (f : Phys → Phys) : (s.modPh c f).hotLock = s.hotLock := rfl
@[simp] theorem State.modPh_clrTill (s : State) (c : Ch) (f : Phys → Phys) : (s.modPh c f).clrTill = s.clrTill := rfl
@[simp] theorem State.modPh_bars (s : State) (c : Ch) (f : Phys → Phys) : (s.modPh c f).bars = s.bars := rfl
@[simp] theorem State.modPh_mem (s : State) (c : Ch) (f : Phys → Phys) : (s.modPh c f).mem = s.mem := rfl
@[simp] theorem State.modPh_acq (s : State) (c : Ch) (f : Phys → Phys) : (s.modPh c f).acq = s.acq := rfl
@[simp] theorem State.modPh_ped (s : State) (c : Ch) (f : Phys → Phys) : (s.modPh c f).ped = s.ped := rfl
@[simp] theorem State.modPh_sec (s : State) (c : Ch) (f : Phys → Phys) : (s.modPh c f).sec = s.sec := rfl
@[simp] theorem State.modPh_calGen (s : State) (c : Ch) (f : Phys → Phys) : (s.modPh c f).calGen = s.calGen := rfl
@[simp] theorem State.modPh_genAt (s : State) (c : Ch) (f : Phys → Phys) : (s.modPh c f).genAt = s.genAt := rfl
@[simp] theorem State.modPh_planGen (s : State) (c : Ch) (f : Phys → Phys) : (s.modPh c f).planGen = s.planGen := rfl
@[simp] theorem State.modPh_paths (s : State) (c : Ch) (f : Phys → Phys) : (s.modPh c f).paths = s.paths := rfl

/-! ### modEv -/

@[simp] theorem State.modEv_pending (s : State) (n : Src) (f : EvSource → EvSource) : (s.modEv n f).pending = s.pending := rfl
@[simp] theorem State.modEv_tick (s : State) (n : Src) (f : EvSource → EvSource) : (s.modEv n f).tick = s.tick := rfl
@[simp] theorem State.modEv_dieTick (s : State) (n : Src) (f : EvSource → EvSource) : (s.modEv n f).dieTick = s.dieTick := rfl
@[simp] theorem State.modEv_freeCtr (s : State) (n : Src) (f : EvSource → EvSource) : (s.modEv n f).freeCtr = s.freeCtr := rfl
@[simp] theorem State.modEv_chan (s : State) (n : Src) (f : EvSource → EvSource) : (s.modEv n f).chan = s.chan := rfl
@[simp] theorem State.modEv_phys (s : State) (n : Src) (f : EvSource → EvSource) : (s.modEv n f).phys = s.phys := rfl
@[simp] theorem State.modEv_clus (s : State) (n : Src) (f : EvSource → EvSource) : (s.modEv n f).clus = s.clus := rfl
@[simp] theorem State.modEv_rgn (s : State) (n : Src) (f : EvSource → EvSource) : (s.modEv n f).rgn = s.rgn := rfl
@[simp] theorem State.modEv_die (s : State) (n : Src) (f : EvSource → EvSource) : (s.modEv n f).die = s.die := rfl
@[simp] theorem State.modEv_ctxs (s : State) (n : Src) (f : EvSource → EvSource) : (s.modEv n f).ctxs = s.ctxs := rfl
@[simp] theorem State.modEv_owner (s : State) (n : Src) (f : EvSource → EvSource) : (s.modEv n f).owner = s.owner := rfl
@[simp] theorem State.modEv_rings (s : State) (n : Src) (f : EvSource → EvSource) : (s.modEv n f).rings = s.rings := rfl
@[simp] theorem State.modEv_cache (s : State) (n : Src) (f : EvSource → EvSource) : (s.modEv n f).cache = s.cache := rfl
@[simp] theorem State.modEv_items (s : State) (n : Src) (f : EvSource → EvSource) : (s.modEv n f).items = s.items := rfl
@[simp] theorem State.modEv_journal (s : State) (n : Src) (f : EvSource → EvSource) : (s.modEv n f).journal = s.journal := rfl
@[simp] theorem State.modEv_cqWait (s : State) (n : Src) (f : EvSource → EvSource) : (s.modEv n f).cqWait = s.cqWait := rfl
@[simp] theorem State.modEv_hostOut (s : State) (n : Src) (f : EvSource → EvSource) : (s.modEv n f).hostOut = s.hostOut := rfl
@[simp] theorem State.modEv_msixSent (s : State) (n : Src) (f : EvSource → EvSource) : (s.modEv n f).msixSent = s.msixSent := rfl
@[simp] theorem State.modEv_tailWb (s : State) (n : Src) (f : EvSource → EvSource) : (s.modEv n f).tailWb = s.tailWb := rfl
@[simp] theorem State.modEv_lastRead (s : State) (n : Src) (f : EvSource → EvSource) : (s.modEv n f).lastRead = s.lastRead := rfl
@[simp] theorem State.modEv_evSeq (s : State) (n : Src) (f : EvSource → EvSource) : (s.modEv n f).evSeq = s.evSeq := rfl
@[simp] theorem State.modEv_evLost (s : State) (n : Src) (f : EvSource → EvSource) : (s.modEv n f).evLost = s.evLost := rfl
@[simp] theorem State.modEv_hub (s : State) (n : Src) (f : EvSource → EvSource) : (s.modEv n f).hub = s.hub := rfl
@[simp] theorem State.modEv_msixTbl (s : State) (n : Src) (f : EvSource → EvSource) : (s.modEv n f).msixTbl = s.msixTbl := rfl
@[simp] theorem State.modEv_pba (s : State) (n : Src) (f : EvSource → EvSource) : (s.modEv n f).pba = s.pba := rfl
@[simp] theorem State.modEv_vlog (s : State) (n : Src) (f : EvSource → EvSource) : (s.modEv n f).vlog = s.vlog := rfl
@[simp] theorem State.modEv_vlogHead (s : State) (n : Src) (f : EvSource → EvSource) : (s.modEv n f).vlogHead = s.vlogHead := rfl
@[simp] theorem State.modEv_vlogTotal (s : State) (n : Src) (f : EvSource → EvSource) : (s.modEv n f).vlogTotal = s.vlogTotal := rfl
@[simp] theorem State.modEv_trgCfg (s : State) (n : Src) (f : EvSource → EvSource) : (s.modEv n f).trgCfg = s.trgCfg := rfl
@[simp] theorem State.modEv_trgCnt (s : State) (n : Src) (f : EvSource → EvSource) : (s.modEv n f).trgCnt = s.trgCnt := rfl
@[simp] theorem State.modEv_trgLvl (s : State) (n : Src) (f : EvSource → EvSource) : (s.modEv n f).trgLvl = s.trgLvl := rfl
@[simp] theorem State.modEv_pack (s : State) (n : Src) (f : EvSource → EvSource) : (s.modEv n f).pack = s.pack := rfl
@[simp] theorem State.modEv_fw (s : State) (n : Src) (f : EvSource → EvSource) : (s.modEv n f).fw = s.fw := rfl
@[simp] theorem State.modEv_aon (s : State) (n : Src) (f : EvSource → EvSource) : (s.modEv n f).aon = s.aon := rfl
@[simp] theorem State.modEv_supplies (s : State) (n : Src) (f : EvSource → EvSource) : (s.modEv n f).supplies = s.supplies := rfl
@[simp] theorem State.modEv_hotLock (s : State) (n : Src) (f : EvSource → EvSource) : (s.modEv n f).hotLock = s.hotLock := rfl
@[simp] theorem State.modEv_clrTill (s : State) (n : Src) (f : EvSource → EvSource) : (s.modEv n f).clrTill = s.clrTill := rfl
@[simp] theorem State.modEv_bars (s : State) (n : Src) (f : EvSource → EvSource) : (s.modEv n f).bars = s.bars := rfl
@[simp] theorem State.modEv_mem (s : State) (n : Src) (f : EvSource → EvSource) : (s.modEv n f).mem = s.mem := rfl
@[simp] theorem State.modEv_acq (s : State) (n : Src) (f : EvSource → EvSource) : (s.modEv n f).acq = s.acq := rfl
@[simp] theorem State.modEv_ped (s : State) (n : Src) (f : EvSource → EvSource) : (s.modEv n f).ped = s.ped := rfl
@[simp] theorem State.modEv_sec (s : State) (n : Src) (f : EvSource → EvSource) : (s.modEv n f).sec = s.sec := rfl
@[simp] theorem State.modEv_calGen (s : State) (n : Src) (f : EvSource → EvSource) : (s.modEv n f).calGen = s.calGen := rfl
@[simp] theorem State.modEv_genAt (s : State) (n : Src) (f : EvSource → EvSource) : (s.modEv n f).genAt = s.genAt := rfl
@[simp] theorem State.modEv_planGen (s : State) (n : Src) (f : EvSource → EvSource) : (s.modEv n f).planGen = s.planGen := rfl
@[simp] theorem State.modEv_paths (s : State) (n : Src) (f : EvSource → EvSource) : (s.modEv n f).paths = s.paths := rfl

/-! ### setRing -/

@[simp] theorem State.setRing_pending (s : State) (k : Ctx) (r : RingNo) (g : Ring) : (s.setRing k r g).pending = s.pending := rfl
@[simp] theorem State.setRing_tick (s : State) (k : Ctx) (r : RingNo) (g : Ring) : (s.setRing k r g).tick = s.tick := rfl
@[simp] theorem State.setRing_dieTick (s : State) (k : Ctx) (r : RingNo) (g : Ring) : (s.setRing k r g).dieTick = s.dieTick := rfl
@[simp] theorem State.setRing_freeCtr (s : State) (k : Ctx) (r : RingNo) (g : Ring) : (s.setRing k r g).freeCtr = s.freeCtr := rfl
@[simp] theorem State.setRing_chan (s : State) (k : Ctx) (r : RingNo) (g : Ring) : (s.setRing k r g).chan = s.chan := rfl
@[simp] theorem State.setRing_phys (s : State) (k : Ctx) (r : RingNo) (g : Ring) : (s.setRing k r g).phys = s.phys := rfl
@[simp] theorem State.setRing_clus (s : State) (k : Ctx) (r : RingNo) (g : Ring) : (s.setRing k r g).clus = s.clus := rfl
@[simp] theorem State.setRing_rgn (s : State) (k : Ctx) (r : RingNo) (g : Ring) : (s.setRing k r g).rgn = s.rgn := rfl
@[simp] theorem State.setRing_die (s : State) (k : Ctx) (r : RingNo) (g : Ring) : (s.setRing k r g).die = s.die := rfl
@[simp] theorem State.setRing_ctxs (s : State) (k : Ctx) (r : RingNo) (g : Ring) : (s.setRing k r g).ctxs = s.ctxs := rfl
@[simp] theorem State.setRing_owner (s : State) (k : Ctx) (r : RingNo) (g : Ring) : (s.setRing k r g).owner = s.owner := rfl
@[simp] theorem State.setRing_cache (s : State) (k : Ctx) (r : RingNo) (g : Ring) : (s.setRing k r g).cache = s.cache := rfl
@[simp] theorem State.setRing_items (s : State) (k : Ctx) (r : RingNo) (g : Ring) : (s.setRing k r g).items = s.items := rfl
@[simp] theorem State.setRing_journal (s : State) (k : Ctx) (r : RingNo) (g : Ring) : (s.setRing k r g).journal = s.journal := rfl
@[simp] theorem State.setRing_cqWait (s : State) (k : Ctx) (r : RingNo) (g : Ring) : (s.setRing k r g).cqWait = s.cqWait := rfl
@[simp] theorem State.setRing_hostOut (s : State) (k : Ctx) (r : RingNo) (g : Ring) : (s.setRing k r g).hostOut = s.hostOut := rfl
@[simp] theorem State.setRing_msixSent (s : State) (k : Ctx) (r : RingNo) (g : Ring) : (s.setRing k r g).msixSent = s.msixSent := rfl
@[simp] theorem State.setRing_tailWb (s : State) (k : Ctx) (r : RingNo) (g : Ring) : (s.setRing k r g).tailWb = s.tailWb := rfl
@[simp] theorem State.setRing_lastRead (s : State) (k : Ctx) (r : RingNo) (g : Ring) : (s.setRing k r g).lastRead = s.lastRead := rfl
@[simp] theorem State.setRing_ev (s : State) (k : Ctx) (r : RingNo) (g : Ring) : (s.setRing k r g).ev = s.ev := rfl
@[simp] theorem State.setRing_evSeq (s : State) (k : Ctx) (r : RingNo) (g : Ring) : (s.setRing k r g).evSeq = s.evSeq := rfl
@[simp] theorem State.setRing_evLost (s : State) (k : Ctx) (r : RingNo) (g : Ring) : (s.setRing k r g).evLost = s.evLost := rfl
@[simp] theorem State.setRing_hub (s : State) (k : Ctx) (r : RingNo) (g : Ring) : (s.setRing k r g).hub = s.hub := rfl
@[simp] theorem State.setRing_msixTbl (s : State) (k : Ctx) (r : RingNo) (g : Ring) : (s.setRing k r g).msixTbl = s.msixTbl := rfl
@[simp] theorem State.setRing_pba (s : State) (k : Ctx) (r : RingNo) (g : Ring) : (s.setRing k r g).pba = s.pba := rfl
@[simp] theorem State.setRing_vlog (s : State) (k : Ctx) (r : RingNo) (g : Ring) : (s.setRing k r g).vlog = s.vlog := rfl
@[simp] theorem State.setRing_vlogHead (s : State) (k : Ctx) (r : RingNo) (g : Ring) : (s.setRing k r g).vlogHead = s.vlogHead := rfl
@[simp] theorem State.setRing_vlogTotal (s : State) (k : Ctx) (r : RingNo) (g : Ring) : (s.setRing k r g).vlogTotal = s.vlogTotal := rfl
@[simp] theorem State.setRing_trgCfg (s : State) (k : Ctx) (r : RingNo) (g : Ring) : (s.setRing k r g).trgCfg = s.trgCfg := rfl
@[simp] theorem State.setRing_trgCnt (s : State) (k : Ctx) (r : RingNo) (g : Ring) : (s.setRing k r g).trgCnt = s.trgCnt := rfl
@[simp] theorem State.setRing_trgLvl (s : State) (k : Ctx) (r : RingNo) (g : Ring) : (s.setRing k r g).trgLvl = s.trgLvl := rfl
@[simp] theorem State.setRing_pack (s : State) (k : Ctx) (r : RingNo) (g : Ring) : (s.setRing k r g).pack = s.pack := rfl
@[simp] theorem State.setRing_fw (s : State) (k : Ctx) (r : RingNo) (g : Ring) : (s.setRing k r g).fw = s.fw := rfl
@[simp] theorem State.setRing_aon (s : State) (k : Ctx) (r : RingNo) (g : Ring) : (s.setRing k r g).aon = s.aon := rfl
@[simp] theorem State.setRing_supplies (s : State) (k : Ctx) (r : RingNo) (g : Ring) : (s.setRing k r g).supplies = s.supplies := rfl
@[simp] theorem State.setRing_hotLock (s : State) (k : Ctx) (r : RingNo) (g : Ring) : (s.setRing k r g).hotLock = s.hotLock := rfl
@[simp] theorem State.setRing_clrTill (s : State) (k : Ctx) (r : RingNo) (g : Ring) : (s.setRing k r g).clrTill = s.clrTill := rfl
@[simp] theorem State.setRing_bars (s : State) (k : Ctx) (r : RingNo) (g : Ring) : (s.setRing k r g).bars = s.bars := rfl
@[simp] theorem State.setRing_mem (s : State) (k : Ctx) (r : RingNo) (g : Ring) : (s.setRing k r g).mem = s.mem := rfl
@[simp] theorem State.setRing_acq (s : State) (k : Ctx) (r : RingNo) (g : Ring) : (s.setRing k r g).acq = s.acq := rfl
@[simp] theorem State.setRing_ped (s : State) (k : Ctx) (r : RingNo) (g : Ring) : (s.setRing k r g).ped = s.ped := rfl
@[simp] theorem State.setRing_sec (s : State) (k : Ctx) (r : RingNo) (g : Ring) : (s.setRing k r g).sec = s.sec := rfl
@[simp] theorem State.setRing_calGen (s : State) (k : Ctx) (r : RingNo) (g : Ring) : (s.setRing k r g).calGen = s.calGen := rfl
@[simp] theorem State.setRing_genAt (s : State) (k : Ctx) (r : RingNo) (g : Ring) : (s.setRing k r g).genAt = s.genAt := rfl
@[simp] theorem State.setRing_planGen (s : State) (k : Ctx) (r : RingNo) (g : Ring) : (s.setRing k r g).planGen = s.planGen := rfl
@[simp] theorem State.setRing_paths (s : State) (k : Ctx) (r : RingNo) (g : Ring) : (s.setRing k r g).paths = s.paths := rfl

/-! ### What an update writes -/

theorem vget_set {α : Type} {n : Nat} (v : Vector α n) (i : Fin n) (x : α) (j : Fin n) :
    (v.set i.1 x i.2).get j = if i = j then x else v.get j := by
  show (v.set i.1 x i.2)[j.1] = if i = j then x else v[j.1]
  rw [Vector.getElem_set]
  simp [Fin.ext_iff]

theorem vset_get {α : Type} {n : Nat} (v : Vector α n) (i : Fin n) : v.set i.1 (v.get i) i.2 = v :=
  Vector.set_getElem_self ..

@[simp] theorem State.ch_modCh_self (s : State) (c : Ch) (f : Channel → Channel) : (s.modCh c f).ch c = f (s.ch c) :=
  (vget_set ..).trans (if_pos rfl)
theorem State.ch_modCh_ne (s : State) {c d : Ch} (f : Channel → Channel) (h : d ≠ c) : (s.modCh c f).ch d = s.ch d :=
  (vget_set ..).trans (if_neg fun e => h e.symm)
@[simp] theorem State.cl_modCl_self (s : State) (n : Cl) (f : Cluster → Cluster) : (s.modCl n f).cl n = f (s.cl n) :=
  (vget_set ..).trans (if_pos rfl)
theorem State.cl_modCl_ne (s : State) {n d : Cl} (f : Cluster → Cluster) (h : d ≠ n) : (s.modCl n f).cl d = s.cl d :=
  (vget_set ..).trans (if_neg fun e => h e.symm)
@[simp] theorem State.rg_modRg_self (s : State) (r : Rg) (f : Region → Region) : (s.modRg r f).rg r = f (s.rg r) :=
  (vget_set ..).trans (if_pos rfl)
theorem State.rg_modRg_ne (s : State) {r d : Rg} (f : Region → Region) (h : d ≠ r) : (s.modRg r f).rg d = s.rg d :=
  (vget_set ..).trans (if_neg fun e => h e.symm)
@[simp] theorem State.th_modTh_self (s : State) (t : Thr) (f : Thread → Thread) : (s.modTh t f).th t = f (s.th t) := by
  simp only [State.th, State.modTh, State.cl_modCl_self]
  exact (vget_set ..).trans (if_pos rfl)
theorem State.th_modTh_ne (s : State) {t u : Thr} (f : Thread → Thread) (h : u ≠ t) : (s.modTh t f).th u = s.th u := by
  unfold State.th State.modTh
  by_cases e : u.cl = t.cl
  · rw [e, State.cl_modCl_self]
    refine (vget_set ..).trans (if_neg fun k => h ?_)
    cases u; cases t; simp_all
  · rw [State.cl_modCl_ne _ _ e]
/-- Two changes of one thread are one change. -/
@[simp] theorem State.modTh_modTh (s : State) (t : Thr) (f g : Thread → Thread) :
    (s.modTh t f).modTh t g = s.modTh t fun h => g (f h) := by
  simp only [State.modTh, State.modCl, vget_set, if_true, Vector.set_set]
@[simp] theorem State.modCh_modCh (s : State) (c : Ch) (f g : Channel → Channel) :
    (s.modCh c f).modCh c g = s.modCh c fun h => g (f h) := by
  simp only [State.modCh, vget_set, if_true, Vector.set_set]
@[simp] theorem State.modRg_modRg (s : State) (r : Rg) (f g : Region → Region) :
    (s.modRg r f).modRg r g = s.modRg r fun h => g (f h) := by
  simp only [State.modRg, vget_set, if_true, Vector.set_set]
/-- Only what an update makes of the element counts. -/
theorem State.modTh_congr (s : State) (t : Thr) (f g : Thread → Thread) (e : f (s.th t) = g (s.th t)) : s.modTh t f = s.modTh t g := by
  have e' : f ((s.clus.get t.cl).thr.get t.k) = g ((s.clus.get t.cl).thr.get t.k) := e
  simp only [State.modTh, State.modCl, e']
theorem State.modCh_congr (s : State) (c : Ch) (f g : Channel → Channel) (e : f (s.ch c) = g (s.ch c)) : s.modCh c f = s.modCh c g := by
  have e' : f (s.chan.get c) = g (s.chan.get c) := e
  simp only [State.modCh, e']
/-- Changes of a channel and of a thread commute. -/
theorem State.modCh_modTh (s : State) (c : Ch) (t : Thr) (f : Channel → Channel) (g : Thread → Thread) :
    (s.modCh c f).modTh t g = (s.modTh t g).modCh c f := rfl
/-- A change into what stood there is none. -/
theorem State.modTh_same (s : State) (t : Thr) (h : Thread) (e : h = s.th t) : (s.modTh t fun _ => h) = s := by
  subst e
  simp only [State.modTh, State.modCl, State.th, State.cl, vset_get]
  exact congrArg (fun v => { s with clus := v }) (vset_get s.clus t.cl)
@[simp] theorem State.ch_modTh (s : State) (c : Ch) (t : Thr) (g : Thread → Thread) : (s.modTh t g).ch c = s.ch c := rfl
@[simp] theorem State.th_modCh (s : State) (c : Ch) (t : Thr) (g : Channel → Channel) : (s.modCh c g).th t = s.th t := rfl

end Sys2Proof.Machine
end

