-- ==== Sys2Proof/Laws/Fabric.lean ====
section
/-! SUPPORT. The event fabric moves nothing but itself: `bare` of what it answers is `bare` of what it was given. -/

namespace Sys2Proof.Machine

/-! ## Updates under bare -/

@[simp] theorem State.bare_bare (s : State) : s.bare.bare = s.bare := rfl
theorem State.bare_modCh (s : State) (c : Ch) (f : Channel → Channel) : (s.modCh c f).bare = s.bare.modCh c f := rfl
theorem State.bare_modTh (s : State) (t : Thr) (f : Thread → Thread) : (s.modTh t f).bare = s.bare.modTh t f := rfl
theorem State.bare_modCl (s : State) (n : Cl) (f : Cluster → Cluster) : (s.modCl n f).bare = s.bare.modCl n f := rfl
theorem State.bare_modRg (s : State) (r : Rg) (f : Region → Region) : (s.modRg r f).bare = s.bare.modRg r f := rfl
@[simp] theorem State.bare_modEv (s : State) (n : Src) (f : EvSource → EvSource) : (s.modEv n f).bare = s.bare := rfl
@[simp] theorem State.bare_setRing (s : State) (k : Ctx) (r : RingNo) (g : Ring) : (s.setRing k r g).bare = s.bare := rfl

/-- What `bare` keeps of two states with equal `bare`. -/
theorem State.chan_of_bare {s u : State} (h : u.bare = s.bare) : u.chan = s.chan := by simpa [State.bare] using congrArg State.chan h
theorem State.clus_of_bare {s u : State} (h : u.bare = s.bare) : u.clus = s.clus := by simpa [State.bare] using congrArg State.clus h

/-- A fold of operations that keep `bare` keeps it. -/
theorem State.bare_each {α : Type} (l : List α) (f : α → State → State) (h : ∀ a s, (f a s).bare = s.bare) (s : State) :
    (s.each l f).bare = s.bare := by
  induction l generalizing s with
  | nil => rfl
  | cons a l ih => exact (ih (f a s)).trans (h a s)

/-! ## The host interface -/

@[simp] theorem State.bare_msix (s : State) (v : Nat) : (s.msix v).bare = s.bare := by unfold State.msix; split <;> rfl

theorem State.unjournal_event (s : State) (o : OutPkt) (h : o.type ≠ 0x80) : s.unjournal o = s := by
  unfold State.unjournal; rw [if_neg h]

theorem State.bare_writeOut (s : State) (o : OutPkt) (h : o.type ≠ 0x80) : (s.writeOut o).bare = s.bare := by
  unfold State.writeOut
  simp only [State.unjournal_event _ _ h]
  split
  · exact (State.bare_msix _ _).trans rfl
  · rfl

/-- A packet other than a completion. -/
theorem State.bare_post (s : State) (o : OutPkt) (h : o.type ≠ 0x80) : (s.post o).bare = s.bare := by
  unfold State.post; split
  · exact State.bare_writeOut s o h
  · rfl

/-! ## Events -/

theorem State.evPkt_type (s : State) (n : Src) (h : HeldEv) : (s.evPkt n h).type = 0x84 := rfl

@[simp] theorem State.bare_writeEv (s : State) (n : Src) (h : HeldEv) : (s.writeEv n h).bare = s.bare := by
  have w := State.bare_writeOut s (s.evPkt n h) (by rw [State.evPkt_type]; decide)
  unfold State.writeEv
  by_cases h1 : (s.ring h.ctx h.ring).st != .opened
  · rw [if_pos h1]; rfl
  · rw [if_neg h1]
    by_cases h2 : s.canWrite h.ctx h.ring (if h.coal then 2 else 1)
    · rw [if_pos h2]
      by_cases h3 : h.msi
      · simp only [h3, if_true]; exact (State.bare_msix _ _).trans w
      · simp only [h3]; exact w
    · rw [if_neg h2]; rfl

@[simp] theorem State.bare_sendEv (s : State) (n : Src) (f : Fold) (coal msi : Bool) : (s.sendEv n f coal msi).bare = s.bare := by
  unfold State.sendEv; dsimp only
  split
  · rw [State.bare_modEv]; exact State.bare_each _ _ (fun d s => State.bare_writeEv s n _) s
  · exact State.bare_each _ _ (fun d s => State.bare_writeEv s n _) s

@[simp] theorem State.bare_endWindow (s : State) (n : Src) : (s.endWindow n).bare = s.bare := by
  unfold State.endWindow; dsimp only
  split
  · split <;> simp
  · rfl

@[simp] theorem State.bare_foldHeld (s : State) (n : Src) (x : Ev) : (s.foldHeld n x).bare = s.bare := rfl

@[simp] theorem State.bare_packEv (s : State) (n : Src) (x : Ev) (msi : Bool) : (s.packEv n x msi).bare = s.bare := by
  have w : (match (s.ev.get n).win with
    | some w => if w ≤ s.tick then s.endWindow n else s
    | none => s).bare = s.bare := by
    split
    · split <;> simp
    · rfl
  have k : ∀ s : State, (if !(s.ev.get n).held.isEmpty then
      (if msi then (s.foldHeld n x).msix ((s.foldHeld n x).srcVec n) else s.foldHeld n x)
    else match (s.ev.get n).win with
      | some _ =>
        let f := match (s.ev.get n).fold with
          | some f => f.add x
          | none => { n := 1, first := x.tick, ev := x }
        let s := s.modEv n fun e => { e with fold := some f }
        if msi then s.msix (s.srcVec n) else s
      | none => s.sendEv n { n := 1, first := x.tick, ev := x } false msi).bare = s.bare := by
    intro s
    by_cases h1 : (!(s.ev.get n).held.isEmpty) = true
    · rw [if_pos h1]; by_cases h2 : msi <;> simp [h2]
    · rw [if_neg h1]
      split
      · by_cases h2 : msi <;> simp [h2]
      · simp
  exact (k _).trans w

@[simp] theorem State.bare_deliver (s : State) (n : Src) (x : Ev) : (s.deliver n x).bare = s.bare := by
  unfold State.deliver; dsimp only
  split
  · rfl
  · split
    · simp
    · split <;> simp

@[simp] theorem State.bare_raiseAt (s : State) (n : Src) (code : Nat) (d : Word) (t : Nat) : (s.raiseAt n code d t).bare = s.bare := by
  unfold State.raiseAt; dsimp only
  cases srcDie n <;> dsimp only <;> split <;> simp

@[simp] theorem State.bare_raise (s : State) (n : Src) (code : Nat) (d : Word) : (s.raise n code d).bare = s.bare :=
  State.bare_raiseAt ..

@[simp] theorem State.bare_raiseHub (s : State) (h : Fin 112) (d : Word) : (s.raiseHub h d).bare = s.bare :=
  State.bare_raiseAt ..

/-- A channel event moves, beside the fabric, s.evt of the thread that serves the channel. -/
theorem State.bare_chEvAt (s : State) (c : Ch) (e : ChEv) (d : Word) (t : Nat) :
    (s.chEvAt c e d t).bare = match e.parts.1 with
      | some b => (s.latchEvtAt (thOf c) b t).bare
      | none => s.bare := by
  unfold State.chEvAt; dsimp only
  rw [State.bare_raiseAt]
  cases e.parts.1 <;> rfl

/-! ## Power state and time -/

@[simp] theorem State.bare_setPState (s : State) (p : PState) : (s.setPState p).bare = s.bare := by
  unfold State.setPState; dsimp only
  split
  · rfl
  · rw [State.bare_raiseHub]; rfl

@[simp] theorem State.bare_settle (s : State) : s.settle.bare = s.bare := by
  unfold State.settle
  split
  · split <;> simp
  · split <;> simp
  · rfl

@[simp] theorem State.bare_advance (s : State) (t : Nat) : (s.advance t).bare = s.bare := by
  unfold State.advance; split <;> rfl

@[simp] theorem State.bare_advanceDie (s : State) (d : Die) (t : Nat) : (s.advanceDie d t).bare = s.bare :=
  State.bare_advance ..

/-- An event row leaves, beside time and the fabric, what its event does at its tick. -/
@[simp] theorem State.bare_eventAt (s : State) (tk : Nat) (f : State → State) : (s.eventAt tk f).bare = (f (s.advance tk)).bare :=
  State.bare_settle _

/-- The same of a row whose tick the state holds. -/
@[simp] theorem State.bare_dueAt (s : State) (d : Die) (t : Nat) (f : State → State) :
    (s.dueAt d t f).bare = (f (s.advanceDie d t)).bare := State.bare_settle _

end Sys2Proof.Machine
end

