-- ==== Sys2Proof/Laws/Thread.lean ====
section
/-! SUPPORT. What the issue of an instruction word does: the operation acts in `atIssue`, and time and the fabric apart nothing else
happens. -/

namespace Sys2Proof.Machine

@[simp] theorem State.chan_advance (s : State) (t : Nat) : (s.advance t).chan = s.chan := by unfold State.advance; split <;> rfl
@[simp] theorem State.clus_advance (s : State) (t : Nat) : (s.advance t).clus = s.clus := by unfold State.advance; split <;> rfl
@[simp] theorem State.rgn_advance (s : State) (t : Nat) : (s.advance t).rgn = s.rgn := by unfold State.advance; split <;> rfl
@[simp] theorem State.th_advanceDie (s : State) (d : Die) (n : Nat) (t : Thr) : (s.advanceDie d n).th t = s.th t := by
  simp [State.th, State.cl, State.advanceDie]
@[simp] theorem State.ch_advanceDie (s : State) (d : Die) (n : Nat) (c : Ch) : (s.advanceDie d n).ch c = s.ch c := by
  simp [State.ch, State.advanceDie]
@[simp] theorem State.rg_advanceDie (s : State) (d : Die) (n : Nat) (r : Rg) : (s.advanceDie d n).rg r = s.rg r := by
  simp [State.rg, State.advanceDie]

theorem State.th_of_bare {s u : State} (h : u.bare = s.bare) (t : Thr) : u.th t = s.th t := by
  simp [State.th, State.cl, State.clus_of_bare h]
theorem State.ch_of_bare {s u : State} (h : u.bare = s.bare) (c : Ch) : u.ch c = s.ch c := by
  simp [State.ch, State.chan_of_bare h]

/-- What `atIssue` holds. -/
@[simp] theorem State.th_atIssue (s : State) (t : Thr) (w : ZWord) :
    (s.atIssue t w).th t = { s.th t with
      pc := (s.th t).pc + 1 + b1 w.x, ready := (s.advanceDie (dieOfCl t.cl) (s.nextIssue t)).thNow t + 1 } := by
  simp [State.atIssue]
@[simp] theorem State.ch_atIssue (s : State) (t : Thr) (w : ZWord) (c : Ch) : (s.atIssue t w).ch c = s.ch c := by
  simp [State.atIssue]
@[simp] theorem State.g_atIssue (s : State) (t : Thr) (w : ZWord) (r : BitVec 4) : (s.atIssue t w).g t r = s.g t r := by
  simp [State.g, Thread.gr]
@[simp] theorem State.opB_atIssue (s : State) (t : Thr) (w v : ZWord) : (s.atIssue t w).opB t v = s.opB t v := by
  simp [State.opB]
@[simp] theorem State.opV_atIssue (s : State) (t : Thr) (w v : ZWord) : (s.atIssue t w).opV t v = s.opV t v := by
  simp [State.opV]
theorem State.bare_atIssue (s : State) (t : Thr) (w : ZWord) :
    (s.atIssue t w).bare = (s.modTh t fun h => { h with
      pc := h.pc + 1 + b1 w.x, ready := (s.advanceDie (dieOfCl t.cl) (s.nextIssue t)).thNow t + 1 }).bare := by
  simp [State.atIssue, State.bare_modTh]

/-- A word that can issue does its operation, or faults with its cause. -/
theorem State.issue_eq (s : State) (t : Thr) (w : ZWord) (legal tk : Bool) (f : State → Except Byte State)
    (hr : (s.th t).st = .running) (hp : (s.th t).pc + 1 + b1 w.x ≤ 16384) (hl : legal = true) (hk : tk = true → t.k ≠ 8) :
    s.issue t w legal tk f = (match f (s.atIssue t w) with
      | .ok s' => s'
      | .error c => (s.advanceDie (dieOfCl t.cl) (s.nextIssue t)).threadFault t c).settle := by
  unfold State.issue
  have h8 : (tk && t.k == 8) = false := by
    cases tk
    · rfl
    · simpa using hk rfl
  have hr' : ((s.th t).st != ThSt.running) = false := by simp [hr]
  simp only [hr', Bool.false_eq_true, if_false, State.th_advanceDie, hl, Bool.not_true, h8, if_neg (Nat.not_lt.mpr hp)]
  rw [State.modTh_congr _ t _ (fun h => { h with
    pc := h.pc + 1 + b1 w.x, ready := (s.advanceDie (dieOfCl t.cl) (s.nextIssue t)).thNow t + 1 }) (by simp)]
  rfl

/-- A word that cannot fault. -/
theorem State.issueOk_eq (s : State) (t : Thr) (w : ZWord) (legal : Bool) (f : State → State)
    (hr : (s.th t).st = .running) (hp : (s.th t).pc + 1 + b1 w.x ≤ 16384) (hl : legal = true) :
    s.issueOk t w legal f = (f (s.atIssue t w)).settle := by
  unfold State.issueOk
  rw [State.issue_eq s t w legal false _ hr hp hl (by simp)]

/-- A channel instruction. -/
theorem State.issueCh_eq (s : State) (t : Thr) (w : ZWord) (legal : Bool) (f : Ch → State → State × Nat) (c : Ch)
    (hr : (s.th t).st = .running) (hp : (s.th t).pc + 1 + b1 w.x ≤ 16384) (hl : legal = true) (hc : thCh t = some c) :
    s.issueCh t w legal f = ((f c (s.atIssue t w)).1.setLast t (f c (s.atIssue t w)).2).settle := by
  unfold State.issueCh
  have hk : t.k ≠ 8 := by
    intro e
    simp [thCh, e] at hc
  rw [State.issue_eq s t w legal true _ hr hp hl (fun _ => hk), hc]

/-- The thread's new value, where the operation moves that thread alone. -/
theorem State.runsTo_of {s : State} {i : Instr} {t : Thr} {w : ZWord} {f : Thread → Thread} {x : State} (g : Thread → Thread)
    (he : exec i s = .next x.settle) (hx : x.bare = ((s.atIssue t w).modTh t g).bare)
    (hg : g ((s.atIssue t w).th t) =
      { f { s.th t with pc := (s.th t).pc + 1 + b1 w.x } with ready := (g ((s.atIssue t w).th t)).ready }) :
    s.runsTo i t w f := by
  refine ⟨_, he, ?_⟩
  have ht : (x.settle).th t = g ((s.atIssue t w).th t) := by
    rw [State.th_of_bare ((State.bare_settle x).trans hx)]; simp
  rw [State.bare_settle, hx, ht, State.bare_modTh, State.bare_atIssue, State.bare_modTh, State.modTh_modTh, State.bare_modTh]
  exact State.modTh_congr _ _ _ _ ((congrArg g (State.th_atIssue s t w).symm).trans hg)

end Sys2Proof.Machine
end

