-- ==== Sys2Proof/WellFormed.lean ====
section
/-! DEFINITION. Which commands are well-formed: an instruction word that spells its row's instruction and breaks no field
rule of R277, a packet whose payload is LEN units of 32 bytes (R379), and event operands inside the ranges their rules
give. A meaning is total on ill-formed commands too; WellFormed says which of them the part's own senders can send. -/

namespace Sys2Proof

open Sys2Proof.Machine

/-- The selector bits fixed by the row stand in the word. -/
def selectorsMatch (i : Instr) : Bool :=
  match fixedBits i with
  | some (w, lo, len, v) => ff w lo len == v
  | none => true

/-- A packet's payload fills its LEN units, and LEN is at most 2,048 (R379). -/
def pktWf (p : Pkt) : Bool := decide (p.payload.length = 32 * p.hdr.len.toNat) && decide (p.hdr.len.toNat ≤ 2048)

/-- The packet an instruction carries, where it is a packet row. -/
def pktOf : Instr → Option Pkt
  | .nop p | .ringCreate p | .ringDestroy p | .ringQuery p | .load p | .start p | .stop p | .poke p | .memrd p
  | .chcmd p | .results p | .readout p | .refAssign p | .pairReinstall p | .sznReport p | .remap p | .fwLoad p
  | .fwActivate p | .pwrStateDeepSleep p | .pwrStateStandby p | .regionPwrUp p | .regionPwrDown p | .sclkSet p
  | .chReset p | .wakeAt p | .idGet p | .quote p | .checkpoint p | .pedRead p | .pedCfg p | .ctxOpen p | .ctxMove p
  | .ctxClose p | .svnCommit p | .provisionXref p | .provisionSsid p | .provisionMemorg p => some p
  | _ => none

/-- A header that could be read carries the payload its LEN names, where LEN is in range (R379, R391). -/
def fetchedWf (f : Fetched) : Bool :=
  f.hdrErr || decide (f.hdr.len.toNat > 2048) || f.payErr.isSome || decide (f.payload.length = 32 * f.hdr.len.toNat)

/-- Operand ranges of the event rows: the thermal sensor reads -256 to 255 °C, and a measured step gives 65 linearity
points or none (R324). -/
def eventWf : Instr → Bool
  | .ringService _ _ _ ps => ps.all fetchedWf
  | .thermalSample _ _ t => decide (-256 ≤ t) && decide (t ≤ 255)
  | .calStepEnd _ _ m => m.points.isEmpty || m.points.length == 65
  | _ => true

/-- Well-formed commands. -/
def Instr.wf (i : Instr) : Bool :=
  zlegal i && selectorsMatch i && (match pktOf i with | some p => pktWf p | none => true) && eventWf i

end Sys2Proof
end

section
/-! PROOFS. The state after reset (00_scope.md): what each accessor reads in it, and the invariants that hold in it. -/

namespace Sys2Proof.Machine

/-! ## The canonical form of a sparse map -/

theorem swfFrom_iff {α : Type} [DecidableEq α] (d : α) (lo : Nat) (m : List (Nat × α)) :
    swfFrom d lo m = true ↔ m.Pairwise (·.1 < ·.1) ∧ ∀ p ∈ m, lo ≤ p.1 ∧ p.2 ≠ d := by
  induction m generalizing lo with
  | nil => simp [swfFrom]
  | cons q m ih =>
    obtain ⟨a, v⟩ := q
    simp only [swfFrom, Bool.and_eq_true, decide_eq_true_eq, ih, List.pairwise_cons, List.forall_mem_cons]
    constructor
    · rintro ⟨⟨hlo, hv⟩, hm, hall⟩
      exact ⟨⟨fun p hp => (hall p hp).1, hm⟩, ⟨hlo, hv⟩, fun p hp => ⟨by have := (hall p hp).1; omega, (hall p hp).2⟩⟩
    · rintro ⟨⟨hlt, hm⟩, hq, hall⟩
      exact ⟨hq, hm, fun p hp => ⟨hlt p hp, (hall p hp).2⟩⟩

theorem Memory.wf_iff (m : Memory) : m.wf = true ↔ m.Pairwise (·.1 < ·.1) ∧ ∀ p ∈ m, p.2 ≠ 0 := by
  simp [Memory.wf, swf, swfFrom_iff]

@[simp] theorem Memory.wf_nil : Memory.wf [] = true := rfl

/-- The mask words of the vectors stand at rising addresses, each with its mask bit set. -/
theorem Memory.wf_msixReset : Memory.wf msixReset = true := by
  refine (Memory.wf_iff _).mpr ⟨?rising, ?masked⟩
  case rising => exact List.pairwise_map.mpr (List.pairwise_lt_range.imp fun h => by dsimp only; omega)
  case masked => simp [msixReset]

/-! ## What the accessors read after reset -/

@[simp] theorem State.ch_reset (c : Ch) : State.reset.ch c = .reset := Vector.get_replicate ..
@[simp] theorem State.rg_reset (r : Rg) : State.reset.rg r = .reset := Vector.get_replicate ..
@[simp] theorem State.cl_reset (n : Cl) : State.reset.cl n = .reset := Vector.get_replicate ..
@[simp] theorem State.th_reset (t : Thr) : State.reset.th t = .reset := by
  rw [State.th, State.cl_reset]; exact Vector.get_replicate ..
@[simp] theorem State.ring_reset (k : Ctx) (r : RingNo) : State.reset.ring k r = .closed := rfl
@[simp] theorem State.msixTbl_reset : State.reset.msixTbl = msixReset := by rw [State.reset]
@[simp] theorem State.owner_reset (c : Ch) : State.reset.owner.get c = 0 := Vector.get_replicate ..
@[simp] theorem State.ev_reset (n : Src) : State.reset.ev.get n = .reset := Vector.get_replicate ..
@[simp] theorem State.trgCfg_reset (i : Fin 16) : State.reset.trgCfg.get i = 0x003202A7 := Vector.get_replicate ..
@[simp] theorem State.trgCnt_reset (i : Fin 16) : State.reset.trgCnt.get i = 0 := Vector.get_replicate ..
@[simp] theorem State.remap_reset (n : Cl) : State.reset.aon.remap.get n = Vector.ofFn id := Vector.get_replicate ..

/-- R363: context 0 is open, the others are not. -/
@[simp] theorem State.ctxs_reset (k : Ctx) : State.reset.ctxs.get k = .reset (decide (k = 0)) := by
  refine (vget_set (Vector.replicate 64 (CtxState.reset false)) 0 _ k).trans ?_
  by_cases h : k = 0
  · simp [h]
  · rw [if_neg (Ne.symm h), Vector.get_replicate, decide_eq_false h]

/-- R354: each logical channel stands on the physical channel of its number. -/
@[simp] theorem State.physOf_reset (c : Ch) : State.reset.physOf c = c := by
  have pos : State.reset.physPos c = ⟨c.1 % 8, by omega⟩ := by
    rw [State.physPos, State.remap_reset, Vector.get_ofFn, id]
  rw [State.physOf, pos]
  exact Fin.ext (Nat.div_add_mod c.1 8)

/-! ## The invariants after reset -/

theorem State.memOk_reset : State.reset.memOk := by
  refine ⟨Memory.wf_nil, ?msix, Memory.wf_nil, Memory.wf_nil, fun n => ?cluster⟩
  case msix => rw [State.msixTbl_reset]; exact Memory.wf_msixReset
  case cluster => simp [Cluster.reset]

theorem State.mapOk_reset : State.reset.mapOk := fun n => by
  rw [State.remap_reset, Vector.toList_ofFn]
  exact List.nodup_ofFn_ofInjective Function.injective_id

/-- Settles O58: each accessor reads its element's reset record, the map is the identity, and every memory is empty but the MSI-X Table. -/
theorem resetState : Obligations.ResetState := by
  unfold Obligations.ResetState
  refine ⟨rfl, fun c => ?channel, fun r => ?region, fun t => ?thread, fun k r => ?ring, fun k => ?context, fun n => ?source,
    fun i => ?trigger, rfl, rfl, rfl, rfl, rfl, rfl, rfl, ?physical, ?memory, ?map⟩
  case channel => simp [Channel.reset, TripSt.reset, LoopSt.reset]
  case region => simp [Region.reset]
  case thread => simp [Thread.reset]
  case ring => rw [State.ring_reset, Ring.closed]
  case context => simp [CtxState.reset]
  case source => simp [EvSource.reset]
  case trigger => simp
  case physical => exact State.physOf_reset
  case memory => exact State.memOk_reset
  case map => exact State.mapOk_reset

end Sys2Proof.Machine
end

section
/-! PROOFS. The map of the logical channels (R20, R354, R355). What each operation of the model leaves of the always-on domain: the whole of
it, or at least its map. -/

namespace Sys2Proof.Machine

@[simp] theorem State.ite_aon (p : Prop) [Decidable p] (s u : State) : (if p then s else u).aon = if p then s.aon else u.aon :=
  apply_ite ..

@[simp] theorem Aon.ite_remap (p : Prop) [Decidable p] (x y : Aon) : (if p then x else y).remap = if p then x.remap else y.remap :=
  apply_ite ..

@[simp] theorem State.each_aon {α : Type} (l : List α) {f : α → State → State} (h : ∀ a s, (f a s).aon = s.aon) (s : State) :
    (s.each l f).aon = s.aon := by
  induction l generalizing s with
  | nil => rfl
  | cons a l ih => exact (ih (f a s)).trans (h a s)

@[simp] theorem State.each_remap {α : Type} (l : List α) {f : α → State → State} (h : ∀ a s, (f a s).aon.remap = s.aon.remap)
    (s : State) : (s.each l f).aon.remap = s.aon.remap := by
  induction l generalizing s with
  | nil => rfl
  | cons a l ih => exact (ih (f a s)).trans (h a s)

section
variable (s : State) (c : Ch) (t tk b : Nat) (p : Pkt) (k : Ctx) (n : Cl) (r : Rg) (d : Die) (v : Conv) (w : Word)

/-! ### Ops -/

@[simp] theorem State.modRing_aon (r : RingNo) (f : Ring → Ring) : (s.modRing k r f).aon = s.aon := rfl
@[simp] theorem State.touchCache_aon (r : RingNo) : (s.touchCache k r).aon = s.aon := by simp [State.touchCache]
@[simp] theorem State.advance_aon : (s.advance t).aon = s.aon := by simp [State.advance]
@[simp] theorem State.advanceDie_aon : (s.advanceDie d t).aon = s.aon := by simp [State.advanceDie]
@[simp] theorem State.setCtl_aon (o : Nat) : (s.setCtl c o w).aon = s.aon := rfl
@[simp] theorem State.used_aon : s.used.aon = s.aon := rfl

/-! ### HostOut -/

@[simp] theorem State.msix_aon (v : Nat) : (s.msix v).aon = s.aon := by simp [State.msix]
@[simp] theorem State.unjournal_aon (o : OutPkt) : (s.unjournal o).aon = s.aon := by simp [State.unjournal]
@[simp] theorem State.writeOut_aon (o : OutPkt) : (s.writeOut o).aon = s.aon := by simp [State.writeOut]
@[simp] theorem State.post_aon (o : OutPkt) : (s.post o).aon = s.aon := by simp [State.post]
@[simp] theorem State.mark_aon (n : Fin 3) : (s.mark p n).aon = s.aon := rfl
@[simp] theorem State.drainN_aon (m : Nat) (s : State) (k : Ctx) (r : RingNo) : (s.drainN m k r).aon = s.aon := by
  induction m generalizing s k r with
  | zero => rfl
  | succ m ih => simp [State.drainN, ih]
@[simp] theorem State.drainRing_aon (r : RingNo) : (s.drainRing k r).aon = s.aon := by simp [State.drainRing]
@[simp] theorem State.disableRings_aon (s : State) (k : Ctx) : (s.disableRings k).aon = s.aon := by
  unfold State.disableRings
  rw [State.each_aon _ (by simp), State.each_aon]
  intro g s
  dsimp only
  split <;> simp
@[simp] theorem State.complete_aon (status code : Byte) (res0 : Word) (res1 : DWord) (pay : List Byte) :
    (s.complete p status code res0 res1 pay).aon = s.aon := by
  simp [State.complete]
@[simp] theorem State.ok_aon : (s.ok p).aon = s.aon := by simp [State.ok]
@[simp] theorem State.failed_aon (code : Byte) : (s.failed p code).aon = s.aon := by simp [State.failed]

/-! ### Events -/

@[simp] theorem State.writeEv_aon (n : Src) (h : HeldEv) : (s.writeEv n h).aon = s.aon := by simp [State.writeEv]
@[simp] theorem State.sendEv_aon (n : Src) (f : Fold) (coal msi : Bool) : (s.sendEv n f coal msi).aon = s.aon := by simp [State.sendEv]
@[simp] theorem State.endWindow_aon (n : Src) : (s.endWindow n).aon = s.aon := by
  simp only [State.endWindow]
  (repeat' split) <;> simp
@[simp] theorem State.foldHeld_aon (n : Src) (x : Ev) : (s.foldHeld n x).aon = s.aon := rfl
@[simp] theorem State.packEv_aon (n : Src) (x : Ev) (msi : Bool) : (s.packEv n x msi).aon = s.aon := by
  simp only [State.packEv]
  (repeat' split) <;> simp
@[simp] theorem State.deliver_aon (n : Src) (x : Ev) : (s.deliver n x).aon = s.aon := by simp [State.deliver]
@[simp] theorem State.raiseAt_aon (n : Src) (code : Nat) (detail : Word) : (s.raiseAt n code detail t).aon = s.aon := by
  simp [State.raiseAt]
@[simp] theorem State.raise_aon (n : Src) (code : Nat) (detail : Word) : (s.raise n code detail).aon = s.aon := by simp [State.raise]
@[simp] theorem State.deliverGroup_aon (n : Src) : (s.deliverGroup n).aon = s.aon := by
  unfold State.deliverGroup
  split <;> simp
@[simp] theorem State.raiseHub_aon (h : Fin 112) (detail : Word) : (s.raiseHub h detail).aon = s.aon := by simp [State.raiseHub]
@[simp] theorem State.latchEvtAt_aon (t : Thr) (now : Nat) : (s.latchEvtAt t b now).aon = s.aon := rfl
@[simp] theorem State.latchEvt_aon (t : Thr) : (s.latchEvt t b).aon = s.aon := rfl
@[simp] theorem State.latchAll_aon (s : State) (b : Nat) : (s.latchAll b).aon = s.aon := by
  unfold State.latchAll
  rw [State.each_aon]
  intro n s
  rw [State.ite_aon, State.each_aon _ (by intros; rfl), ite_self]
@[simp] theorem State.latchRg_remap : (s.latchRg r b).aon.remap = s.aon.remap := rfl
@[simp] theorem State.chEvAt_aon (e : ChEv) (detail : Word) : (s.chEvAt c e detail t).aon = s.aon := by
  unfold State.chEvAt
  split <;> simp
@[simp] theorem State.chEv_aon (e : ChEv) (detail : Word) : (s.chEv c e detail).aon = s.aon := by simp [State.chEv]
@[simp] theorem State.logViol_aon (k : Option Ctx) (r : RingNo) (cause : Byte) (value detail : Word) :
    (s.logViol k r cause value detail).aon = s.aon := by
  unfold State.logViol
  split <;> simp
@[simp] theorem State.violPkt_aon (r : RingNo) (h : Hdr) (seen : Bool) (cause : Byte) (res0 res1 : Word) :
    (s.violPkt k r h seen cause res0 res1).aon = s.aon := by
  simp [State.violPkt]
@[simp] theorem State.violBell_aon (r : RingNo) (cause : Byte) (res0 res1 : Word) : (s.violBell k r cause res0 res1).aon = s.aon := by
  simp [State.violBell]

/-! ### Pedigree -/

@[simp] theorem State.pedQueueAt_aon (kind : Byte) (lch : Nat) (body : List Byte) (after : PedAfter) :
    (s.pedQueueAt kind lch body after t).aon = s.aon := rfl
@[simp] theorem State.pedQueue_aon (kind : Byte) (lch : Nat) (body : List Byte) (after : PedAfter) :
    (s.pedQueue kind lch body after).aon = s.aon := rfl

/-! ### MemOps -/

@[simp] theorem State.logUe_aon (finder lch : Nat) : (s.logUe finder lch b).aon = s.aon := by simp [State.logUe]
@[simp] theorem State.acqPut_aon (lch base size tot : Nat) (bs : List Byte) : (s.acqPut lch base size tot bs).aon = s.aon := by
  simp [State.acqPut]
@[simp] theorem State.acqWrite_aon (lch a : Nat) (bs : List Byte) : (s.acqWrite lch a bs).aon = s.aon := by simp [State.acqWrite]
@[simp] theorem State.touchMem_aon : s.touchMem.aon = s.aon := by simp [State.touchMem]

/-! ### Modes -/

@[simp] theorem State.setSt_aon (x : ChSt) : (s.setSt c x t).aon = s.aon := by simp [State.setSt]

/-! ### Cap -/

@[simp] theorem State.modCap_aon (f : CapSt → CapSt) : (s.modCap c f).aon = s.aon := rfl
@[simp] theorem State.sideWrite_aon (bs : List Byte) : (s.sideWrite c bs).aon = s.aon := by simp [State.sideWrite]
@[simp] theorem State.side_aon (q : Nat) (bs : List Byte) : (s.side c q bs).aon = s.aon := by simp [State.side]
@[simp] theorem State.modRec_aon (q : Nat) (f : Rec → Rec) : (s.modRec c q f).aon = s.aon := rfl
@[simp] theorem State.flushGap_aon (q : Nat) (b : Bool) : (s.flushGap c q b).aon = s.aon := by
  unfold State.flushGap
  split <;> simp
@[simp] theorem State.flushRng_aon (q : Nat) (b : Bool) (i : Nat) : (s.flushRng c q b i).aon = s.aon := by
  unfold State.flushRng
  split <;> simp
@[simp] theorem State.gapTo_aon (q : Nat) (b : Bool) (i cause : Nat) : (s.gapTo c q b i cause).aon = s.aon := by
  unfold State.gapTo
  split <;> simp
@[simp] theorem State.recSample_aon (q : Nat) (p : Samp) : (s.recSample c q p).aon = s.aon := by
  unfold State.recSample
  split <;> simp
@[simp] theorem State.capSample_aon (p : Samp) : (s.capSample c p).aon = s.aon := by simp [State.capSample]
@[simp] theorem State.placeRec_aon (r : Rec) : (s.placeRec c r).aon = s.aon := by simp [State.placeRec]
@[simp] theorem State.takeHist_aon : (s.takeHist c).aon = s.aon := by
  unfold State.takeHist
  split <;> simp
@[simp] theorem State.endRec_aon : (s.endRec c).aon = s.aon := rfl
@[simp] theorem State.cutRec_aon (fl : Word) : (s.cutRec c b fl).aon = s.aon := by
  unfold State.cutRec
  split <;> simp
@[simp] theorem State.closeStream_aon : (s.closeStream c b).aon = s.aon := by simp [State.closeStream]
@[simp] theorem State.truncRec_aon : (s.truncRec c b).aon = s.aon := by simp [State.truncRec]
@[simp] theorem State.disarm_aon : (s.disarm c).aon = s.aon := rfl
@[simp] theorem State.capPark_aon : (s.capPark c b).aon = s.aon := by simp [State.capPark]
@[simp] theorem State.openChunk_aon (k0 : Nat) : (s.openChunk c k0).aon = s.aon := by simp [State.openChunk]
@[simp] theorem State.streamCheck_aon : (s.streamCheck c).aon = s.aon := by simp [State.streamCheck]
@[simp] theorem State.finalize_aon : (s.finalize c).aon = s.aon := by
  unfold State.finalize
  split <;> simp

/-! ### CalOps -/

@[simp] theorem State.stepOff_aon : (s.stepOff r).aon = s.aon := by simp [State.stepOff]
@[simp] theorem State.stepDiscard_aon : (s.stepDiscard r).aon = s.aon := by simp [State.stepDiscard]
@[simp] theorem State.stepUrgent_aon : (s.stepUrgent c v).aon = s.aon := by simp [State.stepUrgent]
@[simp] theorem State.stepDisturb_aon : (s.stepDisturb c).aon = s.aon := by simp [State.stepDisturb]

/-! ### Force -/

@[simp] theorem State.refreshGates_aon : (s.refreshGates c).aon = s.aon := rfl
@[simp] theorem State.modTrip_aon (f : TripSt → TripSt) : (s.modTrip c f).aon = s.aon := rfl
@[simp] theorem State.latchTrip_aon (m : Cmp) : (s.latchTrip c m t).aon = s.aon := by simp [State.latchTrip]
@[simp] theorem State.evalCmp_aon (m : Cmp) : (s.evalCmp c m t).aon = s.aon := by simp [State.evalCmp]
@[simp] theorem State.evalTrip_aon : (s.evalTrip c t).aon = s.aon := by simp [State.evalTrip]
@[simp] theorem State.openWin_aon (i : Fin 5) (len : Nat) (mask : BitVec 4) : (s.openWin c i t len mask).aon = s.aon := by
  simp [State.openWin]
@[simp] theorem State.gateWin_aon : (s.gateWin c t).aon = s.aon := by simp [State.gateWin]
@[simp] theorem State.recalcThr_aon (e : RangeEntry) : (s.recalcThr c e).aon = s.aon := rfl
@[simp] theorem State.putDac_aon (v : Code) : (s.putDac c v t).aon = s.aon := by simp [State.putDac]
@[simp] theorem State.showDac_aon : (s.showDac c t).aon = s.aon := by
  unfold State.showDac
  split <;> simp
@[simp] theorem State.flushDac_aon : (s.flushDac c).aon = s.aon := rfl
@[simp] theorem State.firstWrite_aon : (s.firstWrite c).aon = s.aon := rfl
@[simp] theorem State.pulseEdgeFx_aon (act : Bool) : (s.pulseEdgeFx c act t).aon = s.aon := by simp [State.pulseEdgeFx]
@[simp] theorem State.pulseStart_aon : (s.pulseStart c t).aon = s.aon := by simp [State.pulseStart]
@[simp] theorem State.pulseStop_aon : (s.pulseStop c t).aon = s.aon := by simp [State.pulseStop]
@[simp] theorem State.pulseCheck_aon : (s.pulseCheck c t).aon = s.aon := by simp [State.pulseCheck]
@[simp] theorem State.pulseTrigger_aon (kind : BitVec 2) : (s.pulseTrigger c kind t).aon = s.aon := by simp [State.pulseTrigger]

/-! ### Gen -/

@[simp] theorem State.modGen_aon (f : GenSt → GenSt) : (s.modGen c f).aon = s.aon := rfl
@[simp] theorem State.genArm_aon : (s.genArm c t).aon = s.aon := rfl
@[simp] theorem State.genStop_aon : (s.genStop c t).aon = s.aon := by simp [State.genStop]
@[simp] theorem State.genBegin_aon (e : Nat) (back : Bool) : (s.genBegin c e back t).aon = s.aon := by simp [State.genBegin]
@[simp] theorem State.genCommit_aon : (s.genCommit c t).aon = s.aon := by simp [State.genCommit]
@[simp] theorem State.genPassEnd_aon : (s.genPassEnd c t).aon = s.aon := by
  simp only [State.genPassEnd]
  (repeat' split) <;> simp
@[simp] theorem State.genSample_aon : (s.genSample c t).aon = s.aon := by
  simp only [State.genSample]
  (repeat' split) <;> simp
@[simp] theorem State.genAfter_aon : (s.genAfter c t).aon = s.aon := rfl

/-! ### Chan -/

@[simp] theorem State.modLoop_aon (f : LoopSt → LoopSt) : (s.modLoop c f).aon = s.aon := rfl
@[simp] theorem State.openEng_aon : (s.openEng c).aon = s.aon := rfl
@[simp] theorem State.closeEng_aon : (s.closeEng c t).aon = s.aon := by
  unfold State.closeEng
  split <;> simp
@[simp] theorem State.stimFollow_aon : (s.stimFollow c t).aon = s.aon := by simp [State.stimFollow]
@[simp] theorem State.stimStop_aon : (s.stimStop c t).aon = s.aon := by simp [State.stimStop]
@[simp] theorem State.defCancel_aon : (s.defCancel c t).aon = s.aon := by simp [State.defCancel]
@[simp] theorem State.rangeCut_aon : (s.rangeCut c t).aon = s.aon := by
  unfold State.rangeCut
  split <;> simp
@[simp] theorem State.toHeld_aon : (s.toHeld c t).aon = s.aon := by simp [State.toHeld]
@[simp] theorem State.toRun_aon : (s.toRun c t).aon = s.aon := by simp [State.toRun]
@[simp] theorem State.toHeel_aon : (s.toHeel c t).aon = s.aon := by simp [State.toHeel]
@[simp] theorem State.toDraining_aon : (s.toDraining c t).aon = s.aon := by simp [State.toDraining]
@[simp] theorem State.toParked_aon : (s.toParked c t).aon = s.aon := by simp [State.toParked]
@[simp] theorem State.toOff_aon : (s.toOff c t).aon = s.aon := by simp [State.toOff]
@[simp] theorem State.toTripped_aon : (s.toTripped c t).aon = s.aon := by simp [State.toTripped]
@[simp] theorem State.tripAt_aon : (s.tripAt c b).aon = s.aon := by simp [State.tripAt]
@[simp] theorem State.hostPark_aon : (s.hostPark c t).aon = s.aon := by
  unfold State.hostPark
  split <;> simp
@[simp] theorem State.toHeldClock_aon : (s.toHeldClock c t).aon = s.aon := by
  unfold State.toHeldClock
  split <;> simp
@[simp] theorem State.applyMode_aon (w : BitVec 8) : (s.applyMode c w t).aon = s.aon := by simp [State.applyMode]
@[simp] theorem State.freezeAt_aon : (s.freezeAt c t).aon = s.aon := by simp [State.freezeAt]
@[simp] theorem State.freeze_aon : (s.freeze c).aon = s.aon := by simp [State.freeze]
@[simp] theorem State.unfreeze_aon : (s.unfreeze c).aon = s.aon := by simp [State.unfreeze]
@[simp] theorem State.chanReset_aon : (s.chanReset c t).aon = s.aon := by simp [State.chanReset]

/-! ### Settle -/

@[simp] theorem State.setPState_remap (p : PState) : (s.setPState p).aon.remap = s.aon.remap := by simp [State.setPState]
@[simp] theorem State.settle_remap : s.settle.aon.remap = s.aon.remap := by
  unfold State.settle
  split <;> simp
@[simp] theorem State.eventAt_remap {f : State → State} (h : ∀ s, (f s).aon.remap = s.aon.remap) (s : State) (tk : Nat) :
    (s.eventAt tk f).aon.remap = s.aon.remap := by simp [State.eventAt, h]
@[simp] theorem State.dueAt_remap {f : State → State} (h : ∀ s, (f s).aon.remap = s.aon.remap) (s : State) (d : Die) (t : Nat) :
    (s.dueAt d t f).aon.remap = s.aon.remap := by simp [State.dueAt, h]

/-! ### Thread -/

@[simp] theorem State.setG_aon (t : Thr) (r : BitVec 4) (v : Word) : (s.setG t r v).aon = s.aon := rfl
@[simp] theorem State.setLast_aon (t : Thr) (c : Nat) : (s.setLast t c).aon = s.aon := rfl
@[simp] theorem State.modBar_aon (b : BarRef) (f : Barrier → Barrier) : (s.modBar b f).aon = s.aon := by
  unfold State.modBar
  split <;> simp
@[simp] theorem State.withdraw_aon (t : Thr) (b : BarRef) : (s.withdraw t b).aon = s.aon := by simp [State.withdraw]
@[simp] theorem State.dropWait_aon (t : Thr) : (s.dropWait t).aon = s.aon := by
  unfold State.dropWait
  (repeat' split) <;> simp
@[simp] theorem State.halt_aon (t : Thr) (cause : Byte) (tf : Nat) : (s.halt t cause tf).aon = s.aon := by
  unfold State.halt
  split <;> simp
@[simp] theorem State.threadFault_aon (t : Thr) (cause : Byte) : (s.threadFault t cause).aon = s.aon := by
  unfold State.threadFault
  split <;> simp
@[simp] theorem State.issue_remap {f : State → Except Byte State} (h : ∀ s u, f s = .ok u → u.aon.remap = s.aon.remap) (s : State)
    (t : Thr) (w : ZWord) (legal tk : Bool) : (s.issue t w legal tk f).aon.remap = s.aon.remap := by
  unfold State.issue
  split
  · rfl
  · rw [State.settle_remap]
    split
    next u hu =>
      split_ifs at hu
      simpa using h _ u hu
    next => simp
@[simp] theorem State.issueOk_remap {f : State → State} (h : ∀ s, (f s).aon.remap = s.aon.remap) (s : State) (t : Thr) (w : ZWord)
    (legal : Bool) : (s.issueOk t w legal f).aon.remap = s.aon.remap :=
  State.issue_remap (fun s u hu => by cases hu; exact h s) ..
@[simp] theorem State.issueCh_remap {f : Ch → State → State × Nat} (h : ∀ c s, (f c s).1.aon.remap = s.aon.remap) (s : State)
    (t : Thr) (w : ZWord) (legal : Bool) : (s.issueCh t w legal f).aon.remap = s.aon.remap := by
  refine State.issue_remap (fun s u hu => ?_) ..
  split at hu
  · cases hu; simp [h]
  · cases hu
@[simp] theorem State.beginWait_aon (t : Thr) (k : WaitKind) (timeout hit : Option Nat) : (s.beginWait t k timeout hit).aon = s.aon := rfl
@[simp] theorem State.endWait_aon (t : Thr) (w : Wait) (c : Nat) : (s.endWait t w c).aon = s.aon := rfl

/-! ### Flags -/

@[simp] theorem State.stickTh_aon (t : Thr) (on : Bool) : (s.stickTh t b on).aon = s.aon := by simp [State.stickTh]
@[simp] theorem State.putAlu_aon (t : Thr) (w : ZWord) (v : Word) (ovf : Bool) : (s.putAlu t w v ovf).aon = s.aon := by simp [State.putAlu]

/-! ### Words -/

@[simp] theorem State.writeSpec_aon (t : Thr) (sel : Nat) (v : Word) : (s.writeSpec t sel v).aon = s.aon := by
  unfold State.writeSpec
  (repeat' split) <;> simp
@[simp] theorem State.checkRing_aon (side : Bool) : (s.checkRing c side).aon = s.aon := by simp [State.checkRing]
@[simp] theorem State.ctlEffect_aon (o : Nat) (changed : Bool) : (s.ctlEffect c o t changed).aon = s.aon := by simp [State.ctlEffect]
@[simp] theorem State.writeCtl_aon (o : Nat) (v : Word) : (s.writeCtl c o v).aon = s.aon := by
  unfold State.writeCtl
  split <;> simp
@[simp] theorem State.syncLine_aon (i : Nat) : (s.syncLine n i).aon = s.aon := rfl
@[simp] theorem State.tmrEn_aon (i : Fin 8) (en : Bool) : (s.tmrEn n i en t).aon = s.aon := rfl
@[simp] theorem State.writeBlk_aon (o : Nat) (v : Word) : (s.writeBlk n o v t).aon = s.aon := by
  unfold State.writeBlk
  (repeat' split) <;> simp
@[simp] theorem State.writeTable_aon (o : Nat) (v : Word) : (s.writeTable n o v t).aon = s.aon := by
  unfold State.writeTable
  split <;> simp

/-! ### ChanCmd -/

@[simp] theorem State.tripFirst_aon : (s.tripFirst c).aon = s.aon := by simp [State.tripFirst]
@[simp] theorem cmdMode_aon (v : Word) : (cmdMode v c s).1.aon = s.aon := by
  simp only [cmdMode]
  (repeat' split) <;> simp
@[simp] theorem cmdSetpoint_aon (v : Word) : (cmdSetpoint v c s).1.aon = s.aon := by
  simp only [cmdSetpoint]
  (repeat' split) <;> simp
@[simp] theorem cmdBase_aon (v : Word) : (cmdBase v c s).1.aon = s.aon := by
  simp only [cmdBase]
  (repeat' split) <;> simp
@[simp] theorem cmdParkcode_aon (v : Word) : (cmdParkcode v c s).1.aon = s.aon := by
  simp only [cmdParkcode]
  (repeat' split) <;> simp
@[simp] theorem cmdClearcode_aon (v : Word) : (cmdClearcode v c s).1.aon = s.aon := by
  simp only [cmdClearcode]
  (repeat' split) <;> simp
@[simp] theorem cmdList_aon (v : Word) : (cmdList v c s).1.aon = s.aon := by
  simp only [cmdList]
  (repeat' split) <;> simp
@[simp] theorem cmdLimit_aon (which : Nat) (v : Word) : (cmdLimit which v c s).1.aon = s.aon := by
  simp only [cmdLimit]
  (repeat' split) <;> simp
@[simp] theorem State.rangeStart_aon (n : Fin 8) (e : RangeEntry) : (s.rangeStart c n e b).aon = s.aon := by simp [State.rangeStart]
@[simp] theorem cmdRange_aon (e : Fin 8) : (cmdRange e c s).1.aon = s.aon := by
  simp only [cmdRange]
  (repeat' split) <;> simp
@[simp] theorem State.param_aon (band : Bool) (i : Nat) (v : Word) : (s.param band i v c).1.aon = s.aon := by
  simp only [State.param]
  (repeat' split) <;> simp
@[simp] theorem cmdLaw_aon (i : Nat) (v : Word) : (cmdLaw i v c s).1.aon = s.aon := by simp [cmdLaw]
@[simp] theorem cmdCoef_aon (i : Nat) (v : Word) : (cmdCoef i v c s).1.aon = s.aon := by simp [cmdCoef]
@[simp] theorem cmdOpen_aon : (cmdOpen c s).1.aon = s.aon := by
  simp only [cmdOpen]
  (repeat' split) <;> simp
@[simp] theorem State.defer_aon (d : DefMove) : (s.defer c d).aon = s.aon := by simp [State.defer]
@[simp] theorem State.closeParked_aon : (s.closeParked c t).1.aon = s.aon := by
  unfold State.closeParked
  (repeat' split) <;> simp
@[simp] theorem cmdClose_aon : (cmdClose c s).1.aon = s.aon := by
  simp only [cmdClose]
  (repeat' split) <;> simp
@[simp] theorem State.heelWrite_aon (x : Int) (slew : Nat) : (s.heelWrite c x slew).aon = s.aon := rfl
@[simp] theorem State.heelParked_aon (x : Int) (slew : Nat) : (s.heelParked c x slew t).1.aon = s.aon := by
  unfold State.heelParked
  (repeat' split) <;> simp
@[simp] theorem cmdHeel_aon (v u : Word) : (cmdHeel v u c s).1.aon = s.aon := by
  simp only [cmdHeel]
  (repeat' split) <;> simp
@[simp] theorem cmdPark_aon (slew : Option Nat) : (cmdPark slew c s).1.aon = s.aon := by
  simp only [cmdPark]
  (repeat' split) <;> simp
@[simp] theorem cmdTripclr_aon : (cmdTripclr c s).1.aon = s.aon := by
  simp only [cmdTripclr]
  (repeat' split) <;> simp
@[simp] theorem cmdBlank_aon (mask : BitVec 4) (v : Word) : (cmdBlank mask v c s).1.aon = s.aon := by
  unfold cmdBlank
  split <;> simp

/-! ### AcqCmd -/

@[simp] theorem cmdArm_aon (line : BitVec 5) : (cmdArm line c s).1.aon = s.aon := by
  simp only [cmdArm]
  (repeat' split) <;> simp
@[simp] theorem cmdArmOff_aon : (cmdArmOff c s).1.aon = s.aon := by
  simp only [cmdArmOff]
  (repeat' split) <;> simp
@[simp] theorem cmdStay_aon (edges : Bool) (v : Word) : (cmdStay edges v c s).1.aon = s.aon := by
  simp only [cmdStay]
  (repeat' split) <;> simp
@[simp] theorem cmdRec_aon (p l n : Word) : (cmdRec p l n c s).1.aon = s.aon := by
  simp only [cmdRec]
  (repeat' split) <;> simp
@[simp] theorem cmdStrm_aon (v : Word) : (cmdStrm v c s).1.aon = s.aon := by
  simp only [cmdStrm]
  (repeat' split) <;> simp

/-! ### Arith -/

@[simp] theorem State.alu_remap (t : Thr) (w : ZWord) (mask : BitVec 13) (f : Word → Word → Word × Bool) :
    (s.alu t w mask f).aon.remap = s.aon.remap := by
  simp [State.alu]

/-! ### CalCmd -/

@[simp] theorem State.modCal_aon (f : CalSt → CalSt) : (s.modCal c f).aon = s.aon := rfl
@[simp] theorem State.calDone_aon (code target : Nat) (skewRange : Bool) (resid : Nat) :
    (s.calDone c code target skewRange resid).aon = s.aon := by
  simp [State.calDone]
@[simp] theorem State.trimRamp_aon : (s.trimRamp c t).aon = s.aon := by
  unfold State.trimRamp
  (repeat' split) <;> simp
@[simp] theorem cmdCal_aon (target : Nat) : (cmdCal target c s).1.aon = s.aon := by
  simp only [cmdCal]
  (repeat' split) <;> simp
@[simp] theorem cmdCalgap_aon (mask : Nat) (v : Word) : (cmdCalgap mask v c s).1.aon = s.aon := by
  simp only [cmdCalgap]
  (repeat' split) <;> simp
@[simp] theorem State.sysMeas_aon (full b isI : Bool) (k : Nat) (f : Int) : (s.sysMeas full b isI k f c).1.aon = s.aon := by
  simp only [State.sysMeas]
  (repeat' split) <;> simp
@[simp] theorem cmdSysZero_aon (b isI : Bool) (k : Nat) : (cmdSysZero b isI k c s).1.aon = s.aon := by simp [cmdSysZero]
@[simp] theorem cmdSysFull_aon (b isI : Bool) (k : Nat) (v : Word) : (cmdSysFull b isI k v c s).1.aon = s.aon := by simp [cmdSysFull]
@[simp] theorem cmdSysApply_aon (b isI : Bool) : (cmdSysApply b isI c s).1.aon = s.aon := by
  simp only [cmdSysApply]
  (repeat' split) <;> simp

/-! ### MeasCmd -/

@[simp] theorem State.modConv_aon (f : ConvSt → ConvSt) : (s.modConv c v f).aon = s.aon := rfl
@[simp] theorem State.seqSchedule_aon (g : ConvCfg) (named joint : Bool) : (s.seqSchedule c v g named joint b).aon = s.aon := rfl
@[simp] theorem cmdSeq_aon (na nb : Bool) : (cmdSeq na nb c s).1.aon = s.aon := by
  simp only [cmdSeq]
  (repeat' split) <;> simp
@[simp] theorem State.dropUrgent_aon : (s.dropUrgent c v).aon = s.aon := by simp [State.dropUrgent]
@[simp] theorem State.acceptUrgent_aon : (s.acceptUrgent c v t).aon = s.aon := by simp [State.acceptUrgent]
@[simp] theorem cmdInj_aon : (cmdInj v c s).1.aon = s.aon := by
  simp only [cmdInj]
  (repeat' split) <;> simp
@[simp] theorem cmdAvg_aon (e : Fin 16) (k : Nat) : (cmdAvg v e k c s).1.aon = s.aon := by
  simp only [cmdAvg]
  (repeat' split) <;> simp

/-! ### LoopEv -/

@[simp] theorem State.listBegin_aon (o i : Nat) : (s.listBegin c o i).aon = s.aon := rfl
@[simp] theorem State.listStep_aon : (s.listStep c t).aon = s.aon := by
  simp only [State.listStep]
  (repeat' split) <;> simp
@[simp] theorem State.ddsStep_aon : (s.ddsStep c t).1.aon = s.aon := by
  simp only [State.ddsStep]
  (repeat' split) <;> simp
@[simp] theorem State.combine_aon : (s.combine c t).1.aon = s.aon := by
  simp only [State.combine]
  (repeat' split) <;> simp
@[simp] theorem State.modeBoundary_aon : (s.modeBoundary c t).aon = s.aon := by
  simp only [State.modeBoundary]
  (repeat' split) <;> simp
@[simp] theorem State.deferredMove_aon (d : DefMove) : (s.deferredMove c d b).aon = s.aon := by
  unfold State.deferredMove
  split <;> simp
@[simp] theorem State.drainEnd_aon : (s.drainEnd c b).aon = s.aon := by
  simp only [State.drainEnd]
  (repeat' split) <;> simp
@[simp] theorem State.drainStep_aon : (s.drainStep c t).aon = s.aon := by simp [State.drainStep]
@[simp] theorem State.pushPeriod_aon (sp : Int) : (s.pushPeriod c t sp).aon = s.aon := rfl
@[simp] theorem State.loopBoundary_aon : (s.loopBoundary c t).aon = s.aon := by
  simp only [State.loopBoundary]
  (repeat' split) <;> simp
@[simp] theorem State.computePeriod_aon (p : Period) : (s.computePeriod c p).aon = s.aon := by simp [State.computePeriod]

/-! ### RangeEv -/

@[simp] theorem State.dacStep_aon : (s.dacStep c t).aon = s.aon := by
  simp only [State.dacStep]
  (repeat' split) <;> simp
@[simp] theorem State.changeOverEnd_aon : (s.changeOverEnd c t).aon = s.aon := by simp [State.changeOverEnd]
@[simp] theorem State.rangeMake_aon : (s.rangeMake c).aon = s.aon := rfl
@[simp] theorem State.rangeBreak_aon : (s.rangeBreak c).aon = s.aon := rfl
@[simp] theorem State.rangeEnd_aon : (s.rangeEnd c t).aon = s.aon := by
  simp only [State.rangeEnd]
  (repeat' split) <;> simp
@[simp] theorem State.pulseStep_aon (p : PulseRun) : (s.pulseStep c p t).aon = s.aon := by simp [State.pulseStep]
@[simp] theorem State.clrChannel_aon : (s.clrChannel c).aon = s.aon := by simp [State.clrChannel]

/-! ### SampleEv -/

@[simp] theorem State.forwardRes_aon (s : State) (c : Ch) : (s.forwardRes c).aon = s.aon := by
  unfold State.forwardRes
  rw [State.each_aon, State.modCh_aon]
  intro x s
  dsimp only
  split <;> simp
@[simp] theorem State.commitRes_aon (r : Fin 40) (ts : Nat) : (s.commitRes c r w ts).aon = s.aon := by simp [State.commitRes]
@[simp] theorem State.modIv_aon (e : Fin 16) (f : Interval → Interval) : (s.modIv c v e f).aon = s.aon := rfl
@[simp] theorem State.closeIv_aon (e : Fin 16) (ranging : Bool) : (s.closeIv c v e ranging).aon = s.aon := by simp [State.closeIv]
@[simp] theorem State.closeIvs_aon (ranging : Bool) : (s.closeIvs c v ranging).aon = s.aon := by simp [State.closeIvs]
@[simp] theorem State.closeRanged_aon (ts : Nat) : (s.closeRanged c v ts).aon = s.aon := by simp [State.closeRanged]
@[simp] theorem State.addIv_aon (e : Fin 16) (y : Int) (sat : Bool) (rc : BitVec 3) (ts : Nat) :
    (s.addIv c v e y sat rc ts).aon = s.aon := by
  simp [State.addIv]
@[simp] theorem State.sampleTrig_aon (p : Samp) : (s.sampleTrig c p).aon = s.aon := by simp [State.sampleTrig]
@[simp] theorem State.sysSample_aon (p : Samp) (x : Int) (inp : Nat) : (s.sysSample c p x inp).aon = s.aon := by
  unfold State.sysSample
  split <;> simp
@[simp] theorem State.regularSample_aon (own : Conv) (e : Fin 16) (code : BitVec 16) (ts : Nat) :
    (s.regularSample c own v e code ts).aon = s.aon := by
  simp [State.regularSample]
@[simp] theorem State.injSample_aon (j : InjRun) (code : BitVec 16) (ts : Nat) : (s.injSample c v j code ts).aon = s.aon := by
  simp only [State.injSample]
  (repeat' split) <;> simp
@[simp] theorem State.convOp_aon (o : ConvOp) : (s.convOp c v o).aon = s.aon := by
  unfold State.convOp
  split <;> simp
@[simp] theorem State.convOps_aon (ts : Nat) : (s.convOps c v ts).aon = s.aon := by simp [State.convOps]
@[simp] theorem State.sampleIn_aon (code : BitVec 16) (ts : Nat) : (s.sampleIn c v code ts).aon = s.aon := by
  simp only [State.sampleIn]
  (repeat' split) <;> simp
@[simp] theorem State.injBegin_aon : (s.injBegin c v b).aon = s.aon := rfl
@[simp] theorem State.passStart_aon : (s.passStart c v t).aon = s.aon := by simp [State.passStart]
@[simp] theorem State.takeSeq_aon : (s.takeSeq c v b).aon = s.aon := by
  unfold State.takeSeq
  split <;> simp
@[simp] theorem State.seqCut_aon : (s.seqCut c b).aon = s.aon := by simp [State.seqCut]
@[simp] theorem State.seqEffect_aon : (s.seqEffect c v b).aon = s.aon := by simp [State.seqEffect]

/-! ### PedOps -/

@[simp] theorem State.signNext_aon : s.signNext.aon = s.aon := by
  unfold State.signNext
  split <;> simp
@[simp] theorem State.startCkpt_aon (cause : Nat) (w : List Pkt) : (s.startCkpt cause w).aon = s.aon := by simp [State.startCkpt]
@[simp] theorem State.startQuote_aon : (s.startQuote p).aon = s.aon := by simp [State.startQuote]
@[simp] theorem State.pedLow_aon : s.pedLow.aon = s.aon := by simp [State.pedLow]
@[simp] theorem State.pedDone_aon (a : PedAfter) : (s.pedDone a).aon = s.aon := by
  unfold State.pedDone
  split <;> simp
@[simp] theorem State.pedEntry_aon (p : PedEv) : (s.pedEntry p).aon = s.aon := by simp [State.pedEntry]
@[simp] theorem State.pedAppend_aon : s.pedAppend.aon = s.aon := by
  unfold State.pedAppend
  split <;> simp
@[simp] theorem State.secOk_aon (code : Nat) : (s.secOk p code).aon = s.aon := by simp [State.secOk]

/-! ### Season -/

@[simp] theorem State.modPath_aon (path scope : Nat) (f : PathRec → PathRec) : (s.modPath path scope f).aon = s.aon := rfl
@[simp] theorem State.pathTake_aon (path scope : Nat) (v : Int) : (s.pathTake r path scope v).aon = s.aon := rfl
@[simp] theorem State.pathClose_aon (path scope : Nat) : (s.pathClose r path scope).aon = s.aon := by simp [State.pathClose]
@[simp] theorem State.planner_aon (s : State) (r : Rg) (chs : List Ch) (entries : List Byte) :
    (s.planner r chs entries).aon = s.aon := by
  unfold State.planner
  dsimp only
  rw [State.ite_aon, State.each_aon _ (by simp), State.raiseHub_aon, State.pedQueue_aon, State.modRg_aon, ite_self]
@[simp] theorem State.cycleClose_aon (s : State) (r : Rg) : (s.cycleClose r).aon = s.aon := by
  unfold State.cycleClose
  dsimp only
  rw [State.planner_aon, State.modRg_aon, State.each_aon _ (by simp), State.ite_aon, State.each_aon _ (by intros; rfl), ite_self]
@[simp] theorem State.cycleDrop_aon : (s.cycleDrop r).aon = s.aon := by simp [State.cycleDrop]

/-! ### CalEv -/

@[simp] theorem State.engineFw_aon : (s.engineFw r).aon = s.aon := rfl
@[simp] theorem State.modReq_aon (slot : Nat) (szn : Bool) (f : EngReq → EngReq) : (s.modReq r slot szn f).aon = s.aon := rfl
@[simp] theorem State.dropReq_aon (slot : Nat) (szn : Bool) : (s.dropReq r slot szn).aon = s.aon := rfl
@[simp] theorem State.calCompute_aon (q : EngReq) : (s.calCompute r q).aon = s.aon := by simp [State.calCompute]
@[simp] theorem State.sznTake_aon (q : EngReq) (m : StepMeas) : (s.sznTake r q m).aon = s.aon := by
  unfold State.sznTake
  split <;> simp
@[simp] theorem State.stepDone_aon (m : StepMeas) : (s.stepDone r m).aon = s.aon := by
  simp only [State.stepDone]
  (repeat' split) <;> simp

/-! ### Data -/

@[simp] theorem State.writeData_aon (a : Nat) (v : Word) : (s.writeData n a v t).aon = s.aon := by simp [State.writeData]
@[simp] theorem State.sendEmit_aon (t : Thr) (ra : BitVec 4) (tag : BitVec 16) (tick : Nat) : (s.sendEmit t ra tag tick).aon = s.aon := by
  unfold State.sendEmit
  split <;> simp

/-! ### RecordEv -/

@[simp] theorem State.openRec_aon (r : Rec) (te : Nat) : (s.openRec c r te).aon = s.aon := by simp [State.openRec]
@[simp] theorem State.openMark_aon (first last te : Nat) : (s.openMark c first last te).aon = s.aon := by simp [State.openMark]
@[simp] theorem State.judge_aon (te : Nat) : (s.judge c te).aon = s.aon := by simp [State.judge]
@[simp] theorem State.edgeUrgent_aon (line : Nat) : (s.edgeUrgent c v line).aon = s.aon := by simp [State.edgeUrgent]
@[simp] theorem State.edgePass_aon (line : Nat) : (s.edgePass c v line).aon = s.aon := by simp [State.edgePass]
@[simp] theorem State.edgeGen_aon (line : Nat) : (s.edgeGen c line).aon = s.aon := rfl
@[simp] theorem State.edgeCh_aon (i te : Nat) : (s.edgeCh c i te).aon = s.aon := by simp [State.edgeCh]
@[simp] theorem State.edgeThread_aon (t : Thr) (i : Nat) : (s.edgeThread t i).aon = s.aon := rfl
@[simp] theorem State.edgePack_aon (i te : Nat) : (s.edgePack n i te).aon = s.aon := rfl

/-! ### GenCmd -/

@[simp] theorem cmdSeg_aon (d : Fin 16) : (cmdSeg d c s).1.aon = s.aon := by
  simp only [cmdSeg]
  (repeat' split) <;> simp
@[simp] theorem cmdJump_aon : (cmdJump c s).1.aon = s.aon := by
  simp only [cmdJump]
  (repeat' split) <;> simp
@[simp] theorem cmdRate_aon (m n : Word) : (cmdRate m n c s).1.aon = s.aon := by
  unfold cmdRate
  (repeat' split) <;> simp
@[simp] theorem cmdMark_aon (w : Bool) (v : Word) : (cmdMark w v c s).1.aon = s.aon := by
  simp only [cmdMark]
  (repeat' split) <;> simp

/-! ### Packet -/

@[simp] theorem State.accept_aon : (s.accept p).aon = s.aon := by
  unfold State.accept
  split <;> simp
theorem State.begin_map {P : Vector (Vector (Fin 8) 8) 12 → Prop} {f : State → State}
    (h : ∀ s, P s.aon.remap → P (f s).aon.remap) (s : State) (p : Pkt) (hs : P s.aon.remap) : P (s.begin_ p f).aon.remap := by
  unfold State.begin_
  split
  · split
    · simpa using hs
    · exact h _ (by simpa using hs)
  · exact h _ (by simpa using hs)
theorem State.runPkt_map {P : Vector (Vector (Fin 8) 8) 12 → Prop} {f : State → State}
    (h : ∀ s, P s.aon.remap → P (f s).aon.remap) (s : State) (p : Pkt) (type : Byte) (hs : P s.aon.remap) :
    P (s.runPkt p type f).aon.remap := by
  unfold State.runPkt State.eventAt
  rw [State.settle_remap]
  have hs : P (s.advance p.tk).aon.remap := by simpa using hs
  generalize s.advance p.tk = s at hs
  dsimp only
  split
  · exact hs
  · have ha : P (if s.isItem p then s else s.accept p).aon.remap := by split <;> simpa using hs
    generalize (if s.isItem p then s else s.accept p) = s at ha
    split
    · exact State.begin_map h s p ha
    · exact ha
@[simp] theorem State.runPkt_remap {f : State → State} (h : ∀ s, (f s).aon.remap = s.aon.remap) (s : State) (p : Pkt) (type : Byte) :
    (s.runPkt p type f).aon.remap = s.aon.remap :=
  State.runPkt_map (P := (· = s.aon.remap)) (fun u hu => (h u).trans hu) s p type rfl
@[simp] theorem State.abortItems_aon (code : Byte) (f : Pkt → Bool) : (s.abortItems code f).aon = s.aon := by simp [State.abortItems]

/-! ### HostPkt -/

@[simp] theorem State.loadTable_aon (s : State) (n : Cl) (o t : Nat) (l : List Byte) : (s.loadTable n o t l).aon = s.aon := by
  induction s, o, l using State.loadTable.induct n t with
  | case1 s o b0 b1 b2 b3 l ih => rw [State.loadTable, ih, State.writeTable_aon]
  | case2 s o l h => rw [State.loadTable]; exact h
@[simp] theorem State.takePlan_aon (t : Thr) : (s.takePlan t c).aon = s.aon := by simp [State.takePlan]
@[simp] theorem State.startThread_aon (r0 : Nat) (t : Thr) : (s.startThread p r0 t).aon = s.aon := by
  unfold State.startThread
  split <;> simp
@[simp] theorem chanOp_aon (i : Instr) (v u : Word) : (chanOp i v w u c s).1.aon = s.aon := by
  simp only [chanOp]
  (repeat' split) <;> simp

/-! ### HubPkt -/

@[simp] theorem State.fwResume_aon : s.fwResume.aon = s.aon := by simp [State.fwResume]

/-! ### SecPkt -/

@[simp] theorem State.moveChs_aon (s : State) (type : Byte) (j k : Ctx) (l : List Ch) : (s.moveChs type j k l).aon = s.aon := by
  simp [State.moveChs]
@[simp] theorem State.provision_aon : (s.provision p).aon = s.aon := by
  unfold State.provision
  split <;> simp

/-! ### Power -/

@[simp] theorem State.convLost_aon : (s.convLost c v t).aon = s.aon := by simp [State.convLost]
@[simp] theorem State.convBack_aon : (s.convBack c v t).aon = s.aon := by simp [State.convBack]
@[simp] theorem State.chLost_aon : (s.chLost c t).aon = s.aon := by simp [State.chLost]
@[simp] theorem State.rgLost_aon : (s.rgLost r).aon = s.aon := by simp [State.rgLost]
@[simp] theorem State.rgLostEvent_remap (power : Bool) : (s.rgLostEvent r power).aon.remap = s.aon.remap := by simp [State.rgLostEvent]
@[simp] theorem State.freePhases_remap : (s.freePhases d).aon.remap = s.aon.remap := rfl
@[simp] theorem State.dieStart_remap : (s.dieStart d).aon.remap = s.aon.remap := by simp [State.dieStart]
@[simp] theorem State.closeWins_aon : (s.closeWins c).aon = s.aon := by simp [State.closeWins]
@[simp] theorem State.pstateFollow_remap : s.pstateFollow.aon.remap = s.aon.remap := by
  unfold State.pstateFollow
  split <;> simp
@[simp] theorem State.downCh_aon : (s.downCh c).aon = s.aon := by
  simp only [State.downCh]
  (repeat' split) <;> simp
@[simp] theorem State.downStart_aon : (s.downStart r).aon = s.aon := by simp [State.downStart]
@[simp] theorem State.downEnd_remap (s : State) (r : Rg) : (s.downEnd r).aon.remap = s.aon.remap := by
  simp only [State.downEnd, State.pstateFollow_remap, State.raiseHub_aon, State.ite_aon, State.modDie_aon, ite_self]
  rw [State.each_aon _ (by intros; rfl), State.modRg_aon]
@[simp] theorem State.finalizeAll_aon : (s.finalizeAll c).aon = s.aon := by simp [State.finalizeAll]
@[simp] theorem State.upCh_aon (unres act : BitVec 4) : (s.upCh c unres act).aon = s.aon := by simp [State.upCh]
@[simp] theorem State.upEnd_remap (s : State) (r : Rg) (unres act : BitVec 64) : (s.upEnd r unres act).aon.remap = s.aon.remap := by
  simp only [State.upEnd, State.pstateFollow_remap, State.raiseHub_aon]
  rw [State.each_aon _ (by simp), State.each_aon _ (by intros; rfl), State.each_aon _ (by intros; rfl)]
  simp
@[simp] theorem State.upNext_aon : s.upNext.aon = s.aon := by simp [State.upNext]
@[simp] theorem State.upDone_aon : s.upDone.aon = s.aon := by simp [State.upDone]
@[simp] theorem State.relockStart_aon (p q : Nat) : (s.relockStart r p q).aon = s.aon := by simp [State.relockStart]
@[simp] theorem State.relockEnd_remap (p q : Nat) : (s.relockEnd r p q).aon.remap = s.aon.remap := by simp [State.relockEnd]

/-! ### PowerPkt -/

@[simp] theorem State.pwrState_remap : (s.pwrState p).aon.remap = s.aon.remap := by
  unfold State.pwrState
  split <;> simp
@[simp] theorem State.regionPwr_aon (s : State) (p : Pkt) : (s.regionPwr p).aon = s.aon := by
  have up (l : List Rg) (u : State) : (u.each l fun r s => s.modRg r fun g => { g with seqUp := true }).aon = u.aon :=
    State.each_aon l (by intros; rfl) u
  simp [State.regionPwr, up]
@[simp] theorem State.thermalDown_aon : (s.thermalDown r).aon = s.aon := by simp [State.thermalDown]

/-! ### DieEv -/

@[simp] theorem State.lateWait_aon (t : Thr) : (s.lateWait t).aon = s.aon := rfl
@[simp] theorem State.realign_aon (s : State) (d : Die) : (s.realign d).aon = s.aon := by
  have late (n : Cl) (s : State) : (s.each (thrsOf n) fun t s => s.lateWait t).aon = s.aon := State.each_aon _ (by intros; rfl) s
  unfold State.realign
  generalize chsOfDie d = l, clsOfDie d = m, rgsOfDie d = n
  dsimp only
  rw [State.each_aon _ late]
  dsimp only
  rw [State.each_aon _ (by intros; rfl), State.each_aon _ (by intros; rfl), State.each_aon _ (by intros; rfl)]
@[simp] theorem State.checkDie_aon : (s.checkDie d).aon = s.aon := by
  unfold State.checkDie
  dsimp only
  rw [State.ite_aon, State.raiseHub_aon, State.latchAll_aon, State.pedQueue_aon, State.realign_aon, ite_self]
@[simp] theorem State.haltDie_aon : (s.haltDie d).aon = s.aon := by simp [State.haltDie]
@[simp] theorem State.cutReceived_aon : (s.cutReceived c).aon = s.aon := by simp [State.cutReceived]
@[simp] theorem State.clusterFault_aon (cause : Byte) : (s.clusterFault n cause).aon = s.aon := by simp [State.clusterFault]

/-! ### FabricEv -/

@[simp] theorem State.releaseHeld_aon (s : State) (n : Src) (l : List HeldEv) : (s.releaseHeld n l).aon = s.aon := by
  induction l generalizing s with
  | nil => rfl
  | cons h l ih =>
    unfold State.releaseHeld
    split <;> simp [ih]
@[simp] theorem State.pendClear_aon (n : Src) : (s.pendClear n).aon = s.aon := rfl

/-! ### Flow -/

@[simp] theorem State.setPc_aon (t : Thr) (n : Nat) : (s.setPc t n).aon = s.aon := rfl

/-! ### GenEv -/

@[simp] theorem State.genStart_aon (t0 : Nat) (late : Bool) : (s.genStart c t0 late).aon = s.aon := by simp [State.genStart]
@[simp] theorem State.startSize_aon : (s.startSize c).aon = s.aon := rfl
@[simp] theorem State.fetchBlock_aon (q : Seg) (next : Bool) (blk ab : Nat) : (s.fetchBlock c q next blk ab).aon = s.aon := by
  simp only [State.fetchBlock]
  (repeat' split) <;> simp

/-! ### PackEv -/

@[simp] theorem State.packStick_aon : (s.packStick b).aon = s.aon := rfl
@[simp] theorem State.setRef_remap (on : Bool) : (s.setRef on).aon.remap = s.aon.remap := by simp [State.setRef]
@[simp] theorem State.packProbe_aon : s.packProbe.aon = s.aon := rfl
@[simp] theorem State.packForm_aon : s.packForm.aon = s.aon := by simp [State.packForm]
@[simp] theorem State.shiftHub_remap (d : Int) : (s.shiftHub d).aon.remap = s.aon.remap := rfl
@[simp] theorem State.loadTick_remap : (s.loadTick t).aon.remap = s.aon.remap := by simp [State.loadTick]
@[simp] theorem State.alignLost_remap (cause : Nat) : (s.alignLost cause).aon.remap = s.aon.remap := by simp [State.alignLost]

/-! ### MemEv -/

@[simp] theorem State.modMem_aon (f : MemCtl → MemCtl) : (s.modMem f).aon = s.aon := rfl
@[simp] theorem State.askRetrain_aon : s.askRetrain.aon = s.aon := rfl
@[simp] theorem State.countCe_aon (sub : Fin 4) : (s.countCe sub).aon = s.aon := by simp [State.countCe]

/-! ### ResetOps -/

@[simp] theorem State.haltAll_aon : s.haltAll.aon = s.aon := by simp [State.haltAll]
@[simp] theorem State.packageFault_aon : s.packageFault.aon = s.aon := by simp [State.packageFault]
@[simp] theorem State.hubFault_aon (cause : Byte) : (s.hubFault cause).aon = s.aon := by simp [State.hubFault]
@[simp] theorem State.pkgReset_remap (cause : Fin 5) : (s.pkgReset cause).aon.remap = s.aon.remap := by simp [State.pkgReset]
@[simp] theorem State.pinReset_remap (cause : Fin 5) (straps : BitVec 2) (test : Bool) :
    (s.pinReset cause straps test).aon.remap = s.aon.remap := by
  simp [State.pinReset]
@[simp] theorem State.resumeChain_aon : s.resumeChain.aon = s.aon := rfl
@[simp] theorem State.pedAppendN_aon (m : Nat) (s : State) : (State.pedAppendN m s).aon = s.aon := by
  induction m generalizing s with
  | zero => rfl
  | succ m ih => simp [State.pedAppendN, ih]
@[simp] theorem State.boot_remap (s : State) : s.boot.aon.remap = s.aon.remap := by
  unfold State.boot
  dsimp only
  split
  · rfl
  · simp only [State.ite_aon, State.raiseHub_aon, State.startCkpt_aon, ite_self, State.pedAppendN_aon, State.pedQueue_aon,
      State.resumeChain_aon, State.modCtx_aon]

/-! ### Regs -/

@[simp] theorem State.capture_aon (x : Captured) : (s.capture x).aon = s.aon := rfl
@[simp] theorem State.linkUse_aon : s.linkUse.aon = s.aon := rfl
@[simp] theorem State.onPage_remap {f : State → State} (h : ∀ s, (f s).aon.remap = s.aon.remap) (s : State) (k : Ctx) :
    (s.onPage k f).aon.remap = s.aon.remap := by
  simp [State.onPage, h]
@[simp] theorem State.judgeBell_aon (kind : Bool) (b : Bell) : (s.judgeBell k kind b).aon = s.aon := by simp [State.judgeBell]
@[simp] theorem State.regDenied_aon (a : Nat) : (s.regDenied k a).aon = s.aon := by simp [State.regDenied]
@[simp] theorem State.hubCtl_remap : (s.hubCtl k w).aon.remap = s.aon.remap := by simp [State.hubCtl]
@[simp] theorem State.packCtl_aon : (s.packCtl w).aon = s.aon := by simp [State.packCtl]
@[simp] theorem State.checkWindow_aon : (s.checkWindow k).aon = s.aon := by simp [State.checkWindow]
@[simp] theorem State.writeWindow_aon (high : Bool) : (s.writeWindow k high w).aon = s.aon := by simp [State.writeWindow]
theorem State.forall_mem_some {P : State → Prop} {s : State} (h : P s) : ∀ u ∈ some s, P u := by
  rintro u ⟨⟩
  exact h
theorem State.forall_mem_dite {P : State → Prop} {q : Prop} [Decidable q] {x : q → Option State} {y : Option State}
    (hx : ∀ h, ∀ u ∈ x h, P u) (hy : ∀ u ∈ y, P u) : ∀ u ∈ (if h : q then x h else y), P u := by
  split
  · exact hx _
  · exact hy
theorem State.forall_mem_ite {P : State → Prop} {q : Prop} [Decidable q] {x y : Option State}
    (hx : ∀ u ∈ x, P u) (hy : ∀ u ∈ y, P u) : ∀ u ∈ (if q then x else y), P u := State.forall_mem_dite (fun _ => hx) hy
theorem State.regHub_remap (s : State) (k : Ctx) (a : Nat) (w : Word) : ∀ u ∈ s.regHub k a w, u.aon.remap = s.aon.remap := by
  have one (x : State) (h : x.aon.remap = s.aon.remap) : ∀ u ∈ some x, u.aon.remap = s.aon.remap := State.forall_mem_some h
  unfold State.regHub
  refine State.forall_mem_ite (one _ ?_) <| State.forall_mem_ite (one _ ?_) <| State.forall_mem_dite (fun _ => one _ ?_) <|
    State.forall_mem_ite (one _ ?_) <| State.forall_mem_ite (one _ ?_) <| State.forall_mem_ite (one _ ?_) <|
    State.forall_mem_ite (one _ ?_) <| State.forall_mem_ite (one _ ?_) <| State.forall_mem_dite (fun _ => one _ ?_) <|
    State.forall_mem_dite (fun _ => one _ ?_) <| State.forall_mem_ite (one _ ?_) <| State.forall_mem_ite (one _ ?_) <|
    State.forall_mem_ite (one _ ?_) <| State.forall_mem_dite (fun _ => one _ ?_) fun _ h => ?none
  case none => cases h
  all_goals simp
theorem State.regRegion_getD_aon (s u : State) (r : Rg) (szn : Bool) (o : Nat) (w : Word) (h : u.aon = s.aon) :
    ((s.regRegion r szn o w).getD u).aon = s.aon := by
  unfold State.regRegion
  split <;> simp [h]
@[simp] theorem State.regWrite_remap (s : State) (k : Ctx) (a : Nat) (w : Word) : (s.regWrite k a w).aon.remap = s.aon.remap := by
  have hub : ((s.regHub k a w).getD (s.regDenied k a)).aon.remap = s.aon.remap := by
    cases e : s.regHub k a w with
    | none => simp
    | some u => exact State.regHub_remap s k a w u e
  unfold State.regWrite
  dsimp only
  repeat' split
  all_goals simp [State.regRegion_getD_aon, hub]
@[simp] theorem State.crBusy_aon (off : Nat) : (s.crBusy k off).aon = s.aon := by simp [State.crBusy]
@[simp] theorem State.crWord_aon (n : Fin 4) (d : DWord) : (s.crWord k n d).aon = s.aon := by simp [State.crWord]
@[simp] theorem State.writeRecap_aon (m : Nat) (s : State) (k : Ctx) (i r : RingNo) (l : List (Hdr × Nat)) (total left : Nat) :
    (State.writeRecap m s k i r l total left).aon = s.aon := by
  induction m generalizing s l with
  | zero => rfl
  | succ m ih => simp [State.writeRecap, ih]
@[simp] theorem State.forget_aon (r : RingNo) : (s.forget k r).aon = s.aon := rfl
@[simp] theorem State.resumeRing_aon (r : RingNo) (posted : List Hdr) : (s.resumeRing k r posted).aon = s.aon := by simp [State.resumeRing]
@[simp] theorem State.freshRing_aon (r : RingNo) (old : Ring) (l : List (Hdr × Nat)) : (s.freshRing k r old l).aon = s.aon := by
  simp [State.freshRing]
@[simp] theorem State.enableCr_aon (s : State) (k : Ctx) (fresh : Bool) (posted : List (RingNo × Hdr)) :
    (s.enableCr k fresh posted).aon = s.aon := by
  unfold State.enableCr
  dsimp only
  split
  · rw [State.each_aon _ (by simp), State.setRing_aon, State.each_aon _ (by intros; rfl)]
  · rw [State.each_aon _ (by simp), State.ite_aon, State.setRing_aon, ite_self]
@[simp] theorem State.crEnable_aon (fresh : Bool) (posted : List (RingNo × Hdr)) : (s.crEnable k fresh posted).aon = s.aon := by
  simp [State.crEnable]
@[simp] theorem State.pageWrite_remap (w : PageWrite) : (s.pageWrite k w).aon.remap = s.aon.remap := by
  unfold State.pageWrite
  split <;> simp
@[simp] theorem State.judgeCaptured_remap (s : State) : s.judgeCaptured.aon.remap = s.aon.remap := by
  unfold State.judgeCaptured
  rw [State.each_remap]
  intro x s
  split <;> split <;> simp
@[simp] theorem State.bell_remap (kind : Bool) (b : Bell) : (s.bell k kind b).aon.remap = s.aon.remap := by simp [State.bell]
@[simp] theorem State.regwr_remap (a : Nat) : (s.regwr k a w).aon.remap = s.aon.remap := by simp [State.regwr]
@[simp] theorem State.otherWrite_remap (w : PageWrite) : (s.otherWrite k w).aon.remap = s.aon.remap := by
  unfold State.otherWrite
  split <;> simp

/-! ### LinkEv -/

@[simp] theorem State.serveOne_aon (r : RingNo) (f : Fetched) : (s.serveOne k r f).1.aon = s.aon := by
  simp only [State.serveOne]
  (repeat' split) <;> simp
@[simp] theorem State.serve_aon (s : State) (k : Ctx) (r : RingNo) (l : List Fetched) : (s.serve k r l).aon = s.aon := by
  induction l generalizing s with
  | nil => rfl
  | cons f l ih => simp only [State.serve, State.ite_aon, ih, State.serveOne_aon, ite_self]
@[simp] theorem State.credit_aon (r : RingNo) : (s.credit k r).aon = s.aon := by simp [State.credit]
@[simp] theorem State.descFault_aon (r : RingNo) : (s.descFault k r).aon = s.aon := by simp [State.descFault]

/-! ### ResetEv -/

/-- The body of `hubDown` around any loop over any channels, so that the kernel has no list to run. -/
theorem State.hubDown_body_remap {u s : State} (h : u.aon.remap = s.aon.remap) (last : BitVec 3) (dies : Bool) (l : List Ch)
    {f : Ch → State → State} (hf : ∀ c s, (f c s).aon = s.aon) :
    (let s := { u with vlog := [], vlogHead := 0, vlogTotal := 0, cache := [], aon := { u.aon with lastReset := last } }
     if !dies then s
     else
      let s := s.each l f
      let s := { s with rgn := s.rgn.map Region.powerDown }
      let s := { s with die := s.die.map fun _ => { linkUp := true, clkOk := false, replay := false } }
      s.pstateFollow).aon.remap = s.aon.remap := by
  simp [h, hf]
@[simp] theorem State.hubDown_remap (s : State) (dies : Bool) : (s.hubDown dies).aon.remap = s.aon.remap :=
  State.hubDown_body_remap (State.pkgReset_remap s 3) s.aon.lastReset dies allChs
    (f := fun c s => if (s.ch c).st == .off then s else s.toOff c (s.now c)) (by simp)
@[simp] theorem State.rgSupplyFall_remap (s : State) (b : Nat) : (s.rgSupplyFall b).aon.remap = s.aon.remap := by
  unfold State.rgSupplyFall
  dsimp only
  rw [State.upDone_aon, State.upNext_aon, State.raiseHub_aon, State.each_aon _ fun r s => State.each_aon _ (by intros; rfl) s,
    State.each_remap _ (by simp)]
@[simp] theorem State.ddrFall_remap : s.ddrFall.aon.remap = s.aon.remap := rfl
@[simp] theorem State.flushOut_aon (m : Nat) (s : State) : (State.flushOut m s).aon = s.aon := by
  induction m generalizing s with
  | zero => rfl
  | succ m ih =>
    unfold State.flushOut
    split <;> simp [ih]
@[simp] theorem State.wakeBy_remap (src : BitVec 3) : (s.wakeBy src).aon.remap = s.aon.remap := by simp [State.wakeBy]

/-! ### Waits -/

@[simp] theorem State.waitNow_aon (t : Thr) (status : Nat) : (s.waitNow t status).aon = s.aon := rfl
@[simp] theorem State.releaseBar_aon (s : State) (b : BarRef) (r : Nat) : (s.releaseBar b r).aon = s.aon := by
  unfold State.releaseBar
  rw [State.each_aon, State.modBar_aon]
  intro t s
  (repeat' split) <;> simp
@[simp] theorem State.releaseDue_aon (b : BarRef) (now : Nat) : (s.releaseDue b now).aon = s.aon := by
  unfold State.releaseDue
  split <;> simp
@[simp] theorem State.sync_aon (t : Thr) (w : ZWord) (b : BarRef) (mask : BitVec 12) : (s.sync t w b mask).aon = s.aon := by
  simp [State.sync]

end

/-! ## The rows -/

/-- An outcome leaves the map of the channels as it stands in s. -/
def State.leavesMap (s : State) (o : Host.Outcome State Fault Refusal) : Prop := ∀ u, o = .next u → u.aon.remap = s.aon.remap

@[simp] theorem State.leavesMap_next (s u : State) : s.leavesMap (.next u) ↔ u.aon.remap = s.aon.remap := by
  simp [State.leavesMap]

/-- The always-on domain of s is x: the equation under a name of its own, so that the kernel compares two states term by term and
does not run them to their always-on domains. -/
def State.hasAon (x : Aon) (s : State) : Prop := s.aon = x

theorem State.hasAon_ite {q : Prop} [Decidable q] {s u : State} {x : Aon} (hs : s.hasAon x) (hu : u.hasAon x) :
    (if q then s else u).hasAon x := by
  split <;> assumption

theorem State.leavesMap_eventAt {f : State → State} (h : ∀ s, (f s).aon.remap = s.aon.remap) (s : State) (tk : Nat) :
    s.leavesMap (.next (s.eventAt tk f)) := (State.leavesMap_next ..).mpr (State.eventAt_remap h s tk)

theorem State.leavesMap_runPkt {f : State → State} (h : ∀ s, (f s).aon.remap = s.aon.remap) (s : State) (p : Pkt) (type : Byte) :
    s.leavesMap (.next (s.runPkt p type f)) := (State.leavesMap_next ..).mpr (State.runPkt_remap h s p type)

theorem State.leavesMap_issueOk {f : State → State} (h : ∀ s, (f s).aon.remap = s.aon.remap) (s : State) (t : Thr) (w : ZWord)
    (legal : Bool) : s.leavesMap (.next (s.issueOk t w legal f)) := (State.leavesMap_next ..).mpr (State.issueOk_remap h s t w legal)

theorem State.leavesMap_issue {f : State → Except Byte State} (h : ∀ s u, f s = .ok u → u.aon.remap = s.aon.remap) (s : State)
    (t : Thr) (w : ZWord) (legal tk : Bool) : s.leavesMap (.next (s.issue t w legal tk f)) :=
  (State.leavesMap_next ..).mpr (State.issue_remap h s t w legal tk)

section
variable (s : State) (c : Ch) (t : Thr) (tk : Nat) (p : Pkt) (k : Ctx) (n : Cl) (r : Rg) (d : Die) (v : Conv) (w : ZWord)

/-! ### ChanCmd -/

@[simp] theorem execMode_leavesMap : s.leavesMap (execMode t w s) := by simp [execMode]
@[simp] theorem execForceSetpoint_leavesMap : s.leavesMap (execForceSetpoint t w s) := by simp [execForceSetpoint]
@[simp] theorem execForceBase_leavesMap : s.leavesMap (execForceBase t w s) := by simp [execForceBase]
@[simp] theorem execForceParkcode_leavesMap : s.leavesMap (execForceParkcode t w s) := by simp [execForceParkcode]
@[simp] theorem execForceClearcode_leavesMap : s.leavesMap (execForceClearcode t w s) := by simp [execForceClearcode]
@[simp] theorem execForceList_leavesMap : s.leavesMap (execForceList t w s) := by simp [execForceList]
@[simp] theorem execLimit_leavesMap : s.leavesMap (execLimit t w s) := by simp [execLimit]
@[simp] theorem execRange_leavesMap : s.leavesMap (execRange t w s) := by simp [execRange]
@[simp] theorem execLaw_leavesMap : s.leavesMap (execLaw t w s) := by simp [execLaw]
@[simp] theorem execCoef_leavesMap : s.leavesMap (execCoef t w s) := by simp [execCoef]
@[simp] theorem execOpenLoop_leavesMap : s.leavesMap (execOpenLoop t w s) := by simp [execOpenLoop]
@[simp] theorem execCloseLoop_leavesMap : s.leavesMap (execCloseLoop t w s) := by simp [execCloseLoop]
@[simp] theorem execHeel_leavesMap : s.leavesMap (execHeel t w s) := by simp [execHeel]
@[simp] theorem execPark_leavesMap : s.leavesMap (execPark t w s) := by simp [execPark]
@[simp] theorem execTripclr_leavesMap : s.leavesMap (execTripclr t w s) := by simp [execTripclr]
@[simp] theorem execBlank_leavesMap : s.leavesMap (execBlank t w s) := by simp [execBlank]

/-! ### AcqCmd -/

@[simp] theorem execArm_leavesMap : s.leavesMap (execArm t w s) := by simp [execArm]
@[simp] theorem execArmOff_leavesMap : s.leavesMap (execArmOff t w s) := by simp [execArmOff]
@[simp] theorem execStay_leavesMap : s.leavesMap (execStay t w s) := by simp [execStay]
@[simp] theorem execRecSet_leavesMap : s.leavesMap (execRecSet t w s) := by simp [execRecSet]
@[simp] theorem execStrm_leavesMap : s.leavesMap (execStrm t w s) := by simp [execStrm]

/-! ### Arith -/

@[simp] theorem execAdd_leavesMap : s.leavesMap (execAdd t w s) := by simp [execAdd]
@[simp] theorem execSub_leavesMap : s.leavesMap (execSub t w s) := by simp [execSub]
@[simp] theorem execMul_leavesMap : s.leavesMap (execMul t w s) := by simp [execMul]
@[simp] theorem execShl_leavesMap : s.leavesMap (execShl t w s) := by simp [execShl]
@[simp] theorem execShr_leavesMap : s.leavesMap (execShr t w s) := by simp [execShr]
@[simp] theorem execAnd_leavesMap : s.leavesMap (execAnd t w s) := by simp [execAnd]
@[simp] theorem execOr_leavesMap : s.leavesMap (execOr t w s) := by simp [execOr]
@[simp] theorem execXor_leavesMap : s.leavesMap (execXor t w s) := by simp [execXor]
@[simp] theorem execMin_leavesMap : s.leavesMap (execMin t w s) := by simp [execMin]
@[simp] theorem execMax_leavesMap : s.leavesMap (execMax t w s) := by simp [execMax]
@[simp] theorem execSat_leavesMap : s.leavesMap (execSat t w s) := by simp [execSat]
@[simp] theorem execMov_leavesMap : s.leavesMap (execMov t w s) := by
  refine State.leavesMap_issueOk (fun s => ?_) s t w _
  rfl
@[simp] theorem execLdi_leavesMap : s.leavesMap (execLdi t w s) := by
  refine State.leavesMap_issueOk (fun s => ?_) s t w _
  rfl

/-! ### CalCmd -/

@[simp] theorem execCal_leavesMap : s.leavesMap (execCal t w s) := by simp [execCal]
@[simp] theorem execCalRes_leavesMap : s.leavesMap (execCalRes t w s) := by
  unfold execCalRes
  split <;> simp
@[simp] theorem execCalgap_leavesMap : s.leavesMap (execCalgap t w s) := by simp [execCalgap]
@[simp] theorem execSyscalZero_leavesMap : s.leavesMap (execSyscalZero t w s) := by simp [execSyscalZero]
@[simp] theorem execSyscalFull_leavesMap : s.leavesMap (execSyscalFull t w s) := by simp [execSyscalFull]
@[simp] theorem execSyscalApply_leavesMap : s.leavesMap (execSyscalApply t w s) := by simp [execSyscalApply]
@[simp] theorem execSyscalTimeout_leavesMap : s.leavesMap (execSyscalTimeout tk c s) := by
  refine State.leavesMap_eventAt (fun s => ?_) s _
  (repeat' split) <;> simp

/-! ### MeasCmd -/

@[simp] theorem execSeq_leavesMap : s.leavesMap (execSeq t w s) := by simp [execSeq]
@[simp] theorem execInj_leavesMap : s.leavesMap (execInj t w s) := by simp [execInj]
@[simp] theorem execAvg_leavesMap : s.leavesMap (execAvg t w s) := by simp [execAvg]
@[simp] theorem execRead_leavesMap : s.leavesMap (execRead t w s) := by
  unfold execRead
  split <;> simp

/-! ### LoopEv -/

@[simp] theorem execLoopPeriodBoundary_leavesMap : s.leavesMap (execLoopPeriodBoundary c s) := by simp [execLoopPeriodBoundary]
@[simp] theorem execLoopCompute_leavesMap : s.leavesMap (execLoopCompute c s) := by
  unfold execLoopCompute
  split <;> simp

/-! ### RangeEv -/

@[simp] theorem execDacUpdate_leavesMap : s.leavesMap (execDacUpdate tk c s) := by simp [execDacUpdate]
@[simp] theorem execDeglitchHoldEnd_leavesMap : s.leavesMap (execDeglitchHoldEnd c s) := by
  unfold execDeglitchHoldEnd
  split <;> simp [State.dueAt]
@[simp] theorem execOutTypeChangeoverEnd_leavesMap : s.leavesMap (execOutTypeChangeoverEnd c s) := by
  unfold execOutTypeChangeoverEnd
  split <;> simp
@[simp] theorem execRangeMake_leavesMap : s.leavesMap (execRangeMake c s) := by
  unfold execRangeMake
  split <;> simp [State.dueAt]
@[simp] theorem execRangeBreak_leavesMap : s.leavesMap (execRangeBreak c s) := by
  unfold execRangeBreak
  split <;> simp [State.dueAt]
@[simp] theorem execRangeRelease_leavesMap : s.leavesMap (execRangeRelease c s) := by
  unfold execRangeRelease
  split <;> simp
@[simp] theorem execDrainComplete_leavesMap : s.leavesMap (execDrainComplete c s) := by simp [execDrainComplete]
@[simp] theorem execPulseEdge_leavesMap : s.leavesMap (execPulseEdge tk c s) := by
  refine State.leavesMap_eventAt (fun s => ?_) s _
  (repeat' split) <;> simp
@[simp] theorem execComparatorActive_leavesMap (m : Cmp) : s.leavesMap (execComparatorActive tk c m s) := by simp [execComparatorActive]
@[simp] theorem execComparatorInactive_leavesMap (m : Cmp) : s.leavesMap (execComparatorInactive tk c m s) := by
  simp [execComparatorInactive]
@[simp] theorem execBlankingWindowEnd_leavesMap (win : Fin 5) : s.leavesMap (execBlankingWindowEnd c win s) := by
  simp [execBlankingWindowEnd]
@[simp] theorem execEnterTripped_leavesMap : s.leavesMap (execEnterTripped tk c s) := by simp [execEnterTripped]
@[simp] theorem execClrNFall_leavesMap (ns : Nat) : s.leavesMap (execClrNFall tk ns s) := by simp [execClrNFall]
@[simp] theorem execClrOverrideEnd_leavesMap : s.leavesMap (execClrOverrideEnd tk c s) := by simp [execClrOverrideEnd]

/-! ### SampleEv -/

@[simp] theorem execSampleDelivered_leavesMap (ts : Nat) (code : BitVec 16) : s.leavesMap (execSampleDelivered ts c v code s) := by
  unfold execSampleDelivered
  split <;> simp
@[simp] theorem execInjSequenceBegin_leavesMap : s.leavesMap (execInjSequenceBegin tk c v s) := by simp [execInjSequenceBegin]
@[simp] theorem execSeqTakesEffect_leavesMap : s.leavesMap (execSeqTakesEffect tk c v s) := by simp [execSeqTakesEffect]
@[simp] theorem execQuietStartupEnd_leavesMap : s.leavesMap (execQuietStartupEnd tk c v s) := by
  refine State.leavesMap_eventAt (fun s => ?_) s _
  dsimp only
  split <;> simp
@[simp] theorem execResultReadLow_leavesMap (r : Fin 40) : s.leavesMap (execResultReadLow tk c r s) := by simp [execResultReadLow]
@[simp] theorem execResultReadHigh_leavesMap (r : Fin 40) : s.leavesMap (execResultReadHigh tk c r s) := by simp [execResultReadHigh]

/-! ### PedOps -/

@[simp] theorem execPedigreeAppend_leavesMap : s.leavesMap (execPedigreeAppend tk s) := by simp [execPedigreeAppend]
@[simp] theorem execSigningComplete_leavesMap : s.leavesMap (execSigningComplete tk s) := by
  refine State.leavesMap_eventAt (fun s => ?_) s _
  dsimp only
  (repeat' split) <;> simp

/-! ### Season -/

@[simp] theorem execSeasoningCycleStart_leavesMap : s.leavesMap (execSeasoningCycleStart tk r s) := by simp [execSeasoningCycleStart]
@[simp] theorem execSeasoningCycleEnd_leavesMap : s.leavesMap (execSeasoningCycleEnd tk r s) := by simp [execSeasoningCycleEnd]

/-! ### CalEv -/

@[simp] theorem execCalStepStart_leavesMap : s.leavesMap (execCalStepStart tk r s) := by
  refine State.leavesMap_eventAt (fun s => ?_) s _
  dsimp only
  (repeat' split) <;> simp
@[simp] theorem execCalStepEnd_leavesMap (m : StepMeas) : s.leavesMap (execCalStepEnd tk r m s) := by simp [execCalStepEnd]
@[simp] theorem execCalAck_leavesMap : s.leavesMap (execCalAck tk c s) := by
  refine State.leavesMap_eventAt (fun s => ?_) s _
  dsimp only
  (repeat' split) <;> simp
@[simp] theorem execCalTimeout_leavesMap : s.leavesMap (execCalTimeout tk c s) := by
  refine State.leavesMap_eventAt (fun s => ?_) s _
  dsimp only
  split <;> simp

/-! ### Data -/

@[simp] theorem execLd_leavesMap (t : Thr) (w : ZWord) : s.leavesMap (execLd t w s) := by
  refine State.leavesMap_issue (fun s u hu => ?_) s t w _ _
  dsimp only at hu
  split at hu <;> cases hu
  rfl
@[simp] theorem execSt_leavesMap (t : Thr) (w : ZWord) : s.leavesMap (execSt t w s) := by
  refine State.leavesMap_issue (fun s u hu => ?_) s t w _ _
  dsimp only at hu
  repeat' split at hu
  all_goals cases hu
  simp
@[simp] theorem execMovs_leavesMap : s.leavesMap (execMovs t w s) := by simp [execMovs]
@[simp] theorem execMovd_leavesMap : s.leavesMap (execMovd t w s) := by simp [execMovd]
@[simp] theorem execEvt_leavesMap : s.leavesMap (execEvt t w s) := by
  unfold execEvt
  split <;> simp
@[simp] theorem execEmit_leavesMap : s.leavesMap (execEmit t w s) := by simp [execEmit]
@[simp] theorem execEmitCreditAvailable_leavesMap : s.leavesMap (execEmitCreditAvailable tk t s) := by
  refine State.leavesMap_eventAt (fun s => ?_) s _
  dsimp only
  (repeat' split) <;> simp

/-! ### RecordEv -/

@[simp] theorem execTriggerLineEdge_leavesMap (i : Fin 32) (level : Bool) (te : Nat) :
    s.leavesMap (execTriggerLineEdge tk n i level te s) := by
  have thread (l : List Thr) (u : State) : (u.each l fun t s => s.edgeThread t i.1).aon = u.aon :=
    State.each_aon l (by intros; rfl) u
  refine State.leavesMap_eventAt (fun s => ?_) s tk
  dsimp only
  repeat' split
  all_goals simp [thread]
@[simp] theorem execRecordEnd_leavesMap : s.leavesMap (execRecordEnd tk c s) := by
  refine State.leavesMap_eventAt (fun s => ?_) s _
  (repeat' split) <;> simp
@[simp] theorem execRecordFinalize_leavesMap : s.leavesMap (execRecordFinalize tk c s) := by
  refine State.leavesMap_eventAt (fun s => ?_) s _
  (repeat' split) <;> simp
@[simp] theorem execChunkEnd_leavesMap : s.leavesMap (execChunkEnd tk c s) := by simp [execChunkEnd]
@[simp] theorem execMarkSpanClose_leavesMap : s.leavesMap (execMarkSpanClose tk c s) := by
  refine State.leavesMap_eventAt (fun s => ?_) s _
  dsimp only
  split <;> simp
@[simp] theorem execSideRoomReturn_leavesMap : s.leavesMap (execSideRoomReturn tk c s) := by simp [execSideRoomReturn]

/-! ### GenCmd -/

@[simp] theorem execSeg_leavesMap : s.leavesMap (execSeg t w s) := by simp [execSeg]
@[simp] theorem execJump_leavesMap : s.leavesMap (execJump t w s) := by simp [execJump]
@[simp] theorem execRate_leavesMap : s.leavesMap (execRate t w s) := by simp [execRate]
@[simp] theorem execMark_leavesMap : s.leavesMap (execMark t w s) := by simp [execMark]

/-! ### HostPkt -/

@[simp] theorem execNop_leavesMap : s.leavesMap (execNop p s) := by simp [execNop]
@[simp] theorem execRingCreate_leavesMap : s.leavesMap (execRingCreate p s) := by simp [execRingCreate]
@[simp] theorem execRingDestroy_leavesMap : s.leavesMap (execRingDestroy p s) := by
  refine State.leavesMap_runPkt (fun s => ?_) s p _
  dsimp only
  (repeat' split) <;> simp
@[simp] theorem execRingQuery_leavesMap : s.leavesMap (execRingQuery p s) := by simp [execRingQuery]
@[simp] theorem execLoad_leavesMap : s.leavesMap (execLoad p s) := by
  unfold execLoad
  split <;> simp
@[simp] theorem execMemrd_leavesMap : s.leavesMap (execMemrd p s) := by
  refine State.leavesMap_runPkt (fun s => ?_) s p _
  dsimp only
  (repeat' split) <;> simp
@[simp] theorem execStart_leavesMap : s.leavesMap (execStart p s) := by simp [execStart]
@[simp] theorem execStop_leavesMap : s.leavesMap (execStop p s) := by simp [execStop]
@[simp] theorem execPoke_leavesMap : s.leavesMap (execPoke p s) := by
  refine State.leavesMap_runPkt (fun s => ?_) s p _
  rw [State.ok_aon, State.each_aon _ (by intros; rfl)]
@[simp] theorem execChcmd_leavesMap : s.leavesMap (execChcmd p s) := by
  simp only [execChcmd, State.leavesMap_next]
  (repeat' split) <;> simp
@[simp] theorem execResults_leavesMap : s.leavesMap (execResults p s) := by simp [execResults]
@[simp] theorem execReadout_leavesMap : s.leavesMap (execReadout p s) := by
  refine State.leavesMap_runPkt (fun s => ?_) s p _
  dsimp only
  (repeat' split) <;> simp

/-! ### HubPkt -/

@[simp] theorem execRefAssign_leavesMap : s.leavesMap (execRefAssign p s) := by simp [execRefAssign]
@[simp] theorem execPairReinstall_leavesMap : s.leavesMap (execPairReinstall p s) := by simp [execPairReinstall]
@[simp] theorem execSznReport_leavesMap : s.leavesMap (execSznReport p s) := by simp [execSznReport]
@[simp] theorem execFwLoad_leavesMap : s.leavesMap (execFwLoad p s) := by simp [execFwLoad]
@[simp] theorem execFwActivate_leavesMap : s.leavesMap (execFwActivate p s) := by simp [execFwActivate]
@[simp] theorem execFwSwitch_leavesMap : s.leavesMap (execFwSwitch tk s) := by simp [execFwSwitch]
@[simp] theorem execFwActivated_leavesMap : s.leavesMap (execFwActivated tk s) := by simp [execFwActivated]
@[simp] theorem execFwReverted_leavesMap : s.leavesMap (execFwReverted tk s) := by simp [execFwReverted]

/-! ### SecPkt -/

@[simp] theorem execIdGet_leavesMap : s.leavesMap (execIdGet p s) := by simp [execIdGet]
@[simp] theorem execQuote_leavesMap : s.leavesMap (execQuote p s) := by simp [execQuote]
@[simp] theorem execCheckpoint_leavesMap : s.leavesMap (execCheckpoint p s) := by
  refine State.leavesMap_runPkt (fun s => ?_) s p _
  dsimp only
  (repeat' split) <;> simp
@[simp] theorem execPedRead_leavesMap : s.leavesMap (execPedRead p s) := by
  refine State.leavesMap_runPkt (fun s => ?_) s p _
  dsimp only
  (repeat' split) <;> simp
@[simp] theorem execPedCfg_leavesMap : s.leavesMap (execPedCfg p s) := by simp [execPedCfg]
@[simp] theorem execCtxOpen_leavesMap : s.leavesMap (execCtxOpen p s) := by simp [execCtxOpen]
@[simp] theorem execCtxMove_leavesMap : s.leavesMap (execCtxMove p s) := by simp [execCtxMove]
@[simp] theorem execCtxClose_leavesMap : s.leavesMap (execCtxClose p s) := by
  refine State.leavesMap_runPkt (fun s => congrArg Aon.remap (?_ : State.hasAon s.aon _)) s p _
  have moved : (s.moveChs 0x5A (argCtx p 0) 0 (allChs.filter fun c => s.owner.get c == argCtx p 0)).hasAon s.aon := State.moveChs_aon ..
  have disabled := (State.disableRings_aon _ (argCtx p 0)).trans moved
  exact State.hasAon_ite (State.secOk_aon ..) <| State.hasAon_ite (State.secOk_aon ..) <|
    State.hasAon_ite ((State.secOk_aon ..).trans ((State.modCtx_aon ..).trans disabled)) disabled
@[simp] theorem execSvnCommit_leavesMap : s.leavesMap (execSvnCommit p s) := by simp [execSvnCommit]
@[simp] theorem execProvisionXref_leavesMap : s.leavesMap (execProvisionXref p s) := by simp [execProvisionXref]
@[simp] theorem execProvisionSsid_leavesMap : s.leavesMap (execProvisionSsid p s) := by simp [execProvisionSsid]
@[simp] theorem execProvisionMemorg_leavesMap : s.leavesMap (execProvisionMemorg p s) := by simp [execProvisionMemorg]

/-! ### PowerPkt -/

@[simp] theorem execPwrStateDeepSleep_leavesMap : s.leavesMap (execPwrStateDeepSleep p s) := by simp [execPwrStateDeepSleep]
@[simp] theorem execPwrStateStandby_leavesMap : s.leavesMap (execPwrStateStandby p s) := by simp [execPwrStateStandby]
@[simp] theorem execRegionPwrUp_leavesMap : s.leavesMap (execRegionPwrUp p s) := by simp [execRegionPwrUp]
@[simp] theorem execRegionPwrDown_leavesMap : s.leavesMap (execRegionPwrDown p s) := by simp [execRegionPwrDown]
@[simp] theorem execSclkSet_leavesMap : s.leavesMap (execSclkSet p s) := by simp [execSclkSet]
@[simp] theorem execChReset_leavesMap : s.leavesMap (execChReset p s) := by simp [execChReset]
@[simp] theorem execWakeAt_leavesMap : s.leavesMap (execWakeAt p s) := by simp [execWakeAt]
@[simp] theorem execRegionUp_leavesMap (unres act : BitVec 64) : s.leavesMap (execRegionUp tk r unres act s) := by simp [execRegionUp]
@[simp] theorem execRegionDown_leavesMap : s.leavesMap (execRegionDown tk r s) := by simp [execRegionDown]
@[simp] theorem execSclkLocked_leavesMap : s.leavesMap (execSclkLocked tk r s) := by
  refine State.leavesMap_eventAt (fun s => ?_) s _
  dsimp only
  split <;> simp
@[simp] theorem execSampleClockLost_leavesMap (power : Bool) : s.leavesMap (execSampleClockLost tk r power s) := by
  simp [execSampleClockLost]
@[simp] theorem execSampleClockReturn_leavesMap : s.leavesMap (execSampleClockReturn tk r s) := by simp [execSampleClockReturn]
@[simp] theorem execRefFault_leavesMap : s.leavesMap (execRefFault tk r s) := by simp [execRefFault]
@[simp] theorem execThermalSample_leavesMap (temp : Int) : s.leavesMap (execThermalSample tk r temp s) := by simp [execThermalSample]

/-! ### DieEv -/

@[simp] theorem execTickCheck_leavesMap : s.leavesMap (execTickCheck tk s) := by simp [execTickCheck]
@[simp] theorem execDieLinkCrcFail_leavesMap : s.leavesMap (execDieLinkCrcFail tk d s) := by
  refine State.leavesMap_eventAt (fun s => ?_) s tk
  rfl
@[simp] theorem execDieLinkDown_leavesMap : s.leavesMap (execDieLinkDown tk d s) := by
  have intake (l : List Cl) (u : State) : (u.each l fun n s => s.modCl n fun k => { k with intake := 0 }).aon = u.aon :=
    State.each_aon l (by intros; rfl) u
  refine State.leavesMap_eventAt (fun s => ?_) s tk
  dsimp only
  split <;> simp [intake]
@[simp] theorem execDieClockLost_leavesMap : s.leavesMap (execDieClockLost tk d s) := by simp [execDieClockLost]
@[simp] theorem execDieLinkReturn_leavesMap : s.leavesMap (execDieLinkReturn tk d s) := by simp [execDieLinkReturn]
@[simp] theorem execDieCorePllLock_leavesMap (phases : List (Fin 9)) : s.leavesMap (execDieCorePllLock tk d phases s) := by
  have phase (l : List (Cl × Fin 9)) (u : State) : (u.each l fun p s => s.modCl p.1 fun k => { k with phase := p.2 }).aon = u.aon :=
    State.each_aon l (by intros; rfl) u
  refine State.leavesMap_eventAt (fun s => ?_) s tk
  dsimp only
  split <;> simp [phase]
@[simp] theorem execClusterHalt_leavesMap (cl : Cl) (cause : Byte) : s.leavesMap (execClusterHalt tk cl cause s) := by
  simp [execClusterHalt]

/-! ### FabricEv -/

@[simp] theorem execQueueIntegrity_leavesMap (q : QueueRef) (second : Nat) : s.leavesMap (execQueueIntegrity tk q second s) := by
  unfold execQueueIntegrity
  split <;> simp
@[simp] theorem execCoalesceWindowEnd_leavesMap (n : Src) : s.leavesMap (execCoalesceWindowEnd tk n s) := by
  refine State.leavesMap_eventAt (fun s => ?_) s _
  (repeat' split) <;> simp
@[simp] theorem execHeldPacketRelease_leavesMap (n : Src) : s.leavesMap (execHeldPacketRelease tk n s) := by simp [execHeldPacketRelease]

/-! ### Flow -/

@[simp] theorem execJmp_leavesMap (t : Thr) (w : ZWord) : s.leavesMap (execJmp t w s) := by
  refine State.leavesMap_issue (fun s u hu => ?_) s t w _ _
  cases e : s.jumpTo t w <;> rw [e] at hu <;> cases hu
  rfl
@[simp] theorem execBrCond_leavesMap : s.leavesMap (execBrCond t w s) := by simp [execBrCond]
@[simp] theorem execCall_leavesMap (t : Thr) (w : ZWord) : s.leavesMap (execCall t w s) := by
  refine State.leavesMap_issue (fun s u hu => ?_) s t w _ _
  split at hu
  · cases hu
  · cases e : s.jumpTo t w <;> rw [e] at hu <;> cases hu
    rfl
@[simp] theorem execRet_leavesMap : s.leavesMap (execRet t w s) := by
  refine State.leavesMap_issueOk (fun s => ?_) s t w _
  split <;> rfl
@[simp] theorem execLoop_leavesMap : s.leavesMap (execLoop t w s) := by simp [execLoop]

/-! ### GenEv -/

@[simp] theorem execGeneratorStart_leavesMap : s.leavesMap (execGeneratorStart tk c s) := by
  refine State.leavesMap_eventAt (fun s => ?_) s _
  dsimp only
  split <;> simp
@[simp] theorem execGeneratorSample_leavesMap : s.leavesMap (execGeneratorSample c s) := by simp [execGeneratorSample]
@[simp] theorem execFetchBlockArrival_leavesMap (next : Bool) (block : Nat) : s.leavesMap (execFetchBlockArrival tk c next block s) := by
  refine State.leavesMap_eventAt (fun s => ?_) s _
  dsimp only
  (repeat' split) <;> simp
@[simp] theorem execMarkerEdge_leavesMap (m1 level : Bool) : s.leavesMap (execMarkerEdge tk c m1 level s) := by
  refine State.leavesMap_eventAt (fun s => ?_) s _
  (repeat' split) <;> simp
@[simp] theorem execTrgEdge_leavesMap (pin : Fin 16) (rising fast : Bool) :
    s.leavesMap (execTrgEdge tk pin rising fast s) := by simp [execTrgEdge]
@[simp] theorem execClusterTimerExpiry_leavesMap (i : Fin 8) : s.leavesMap (execClusterTimerExpiry n i s) := by
  unfold execClusterTimerExpiry
  split <;> simp

/-! ### PackEv -/

@[simp] theorem execProbeReturn_leavesMap (rtt : BitVec 16) : s.leavesMap (execProbeReturn tk rtt s) := by simp [execProbeReturn]
@[simp] theorem execOriginPulse_leavesMap : s.leavesMap (execOriginPulse tk s) := by
  refine State.leavesMap_eventAt (fun s => ?_) s _
  dsimp only
  split <;> simp
@[simp] theorem execFormTimeout_leavesMap : s.leavesMap (execFormTimeout tk s) := by
  refine State.leavesMap_eventAt (fun s => ?_) s _
  dsimp only
  split <;> simp
@[simp] theorem execPackTriggerDrive_leavesMap (n : Fin 8) : s.leavesMap (execPackTriggerDrive tk n s) := by
  refine State.leavesMap_eventAt (fun s => ?_) s _
  dsimp only
  split <;> simp
@[simp] theorem execPackTriggerLanding_leavesMap (n : Fin 8) : s.leavesMap (execPackTriggerLanding tk n s) := by
  simp [execPackTriggerLanding]
@[simp] theorem execPackKeepPulse_leavesMap : s.leavesMap (execPackKeepPulse tk s) := by simp [execPackKeepPulse]
@[simp] theorem execKeepPulseMissing_leavesMap : s.leavesMap (execKeepPulseMissing tk s) := by simp [execKeepPulseMissing]
@[simp] theorem execPackClkLost_leavesMap : s.leavesMap (execPackClkLost tk s) := by simp [execPackClkLost]

/-! ### MemEv -/

@[simp] theorem execRetrainStart_leavesMap : s.leavesMap (execRetrainStart tk s) := by simp [execRetrainStart]
@[simp] theorem execTrainingComplete_leavesMap (eyes : Vector (Nat × Nat) 4) : s.leavesMap (execTrainingComplete tk eyes s) := by
  refine State.leavesMap_eventAt (fun s => ?_) s _
  dsimp only
  (repeat' split) <;> simp
@[simp] theorem execRefreshDue_leavesMap (rank : Fin 4) (busy waiting : Bool) :
    s.leavesMap (execRefreshDue tk rank busy waiting s) := by simp [execRefreshDue]
@[simp] theorem execMr4RateChange_leavesMap (sub : Fin 4) (hot : Bool) :
    s.leavesMap (execMr4RateChange tk sub hot s) := by simp [execMr4RateChange]
@[simp] theorem execPatrolScrub_leavesMap (res : ScrubRead) : s.leavesMap (execPatrolScrub tk res s) := by simp [execPatrolScrub]
@[simp] theorem execDdrClockStop_leavesMap : s.leavesMap (execDdrClockStop tk s) := by simp [execDdrClockStop]

/-! ### LinkEv -/

@[simp] theorem execRingService_leavesMap (r : RingNo) (ps : List Fetched) :
    s.leavesMap (execRingService tk k r ps s) := by simp [execRingService]
@[simp] theorem execDescriptorFetch_leavesMap (r : RingNo) (ue : Bool) :
    s.leavesMap (execDescriptorFetch tk k r ue s) := by simp [execDescriptorFetch]
@[simp] theorem execCompletionWrite_leavesMap (r : RingNo) : s.leavesMap (execCompletionWrite tk k r s) := by
  refine State.leavesMap_eventAt (fun s => ?_) s _
  dsimp only
  split <;> simp
@[simp] theorem execMsixModerationTimeout_leavesMap (r : RingNo) :
    s.leavesMap (execMsixModerationTimeout tk k r s) := by simp [execMsixModerationTimeout]
@[simp] theorem execDoorbellSqTail_leavesMap (d : Bell) : s.leavesMap (execDoorbellSqTail tk k d s) := by simp [execDoorbellSqTail]
@[simp] theorem execDoorbellCqHead_leavesMap (d : Bell) : s.leavesMap (execDoorbellCqHead tk k d s) := by simp [execDoorbellCqHead]
@[simp] theorem execRegisterWrite_leavesMap (w : PageWrite) : s.leavesMap (execRegisterWrite tk k w s) := by simp [execRegisterWrite]
@[simp] theorem execCrCtlEnable_leavesMap (fresh disable : Bool) (posted : List (RingNo × Hdr)) :
    s.leavesMap (execCrCtlEnable tk k fresh disable posted s) := by simp [execCrCtlEnable]
@[simp] theorem execCrCtlDisable_leavesMap : s.leavesMap (execCrCtlDisable tk k s) := by simp [execCrCtlDisable]
@[simp] theorem execSwreset_leavesMap (key : BitVec 16) : s.leavesMap (execSwreset tk k key s) := by simp [execSwreset]
@[simp] theorem execProbe_leavesMap : s.leavesMap (execProbe tk k s) := by simp [execProbe]
@[simp] theorem execForm_leavesMap : s.leavesMap (execForm tk k s) := by simp [execForm]
@[simp] theorem execRetrain_leavesMap : s.leavesMap (execRetrain tk k s) := by simp [execRetrain]
@[simp] theorem execEvstatPendClear_leavesMap (n : Src) : s.leavesMap (execEvstatPendClear tk k n s) := by simp [execEvstatPendClear]
@[simp] theorem execRegDirectWrite_leavesMap (off : BitVec 20) : s.leavesMap (execRegDirectWrite tk off s) := by simp [execRegDirectWrite]
@[simp] theorem execMsixTableWrite_leavesMap (off : BitVec 15) (data : Word) :
    s.leavesMap (execMsixTableWrite tk off data s) := by simp [execMsixTableWrite]
@[simp] theorem execRcFieldRead_leavesMap (f : RcField) : s.leavesMap (execRcFieldRead tk f s) := by
  unfold execRcFieldRead
  split <;> simp
@[simp] theorem execPmD3hot_leavesMap : s.leavesMap (execPmD3hot tk s) := by simp [execPmD3hot]
@[simp] theorem execD0Entry_leavesMap : s.leavesMap (execD0Entry tk s) := by simp [execD0Entry]
@[simp] theorem execL1Entry_leavesMap : s.leavesMap (execL1Entry tk s) := by simp [execL1Entry]

/-! ### ResetEv -/

@[simp] theorem execPerstNAssert_leavesMap (straps : BitVec 2) (test : Bool) :
    s.leavesMap (execPerstNAssert tk straps test s) := by simp [execPerstNAssert]
@[simp] theorem execResetNAssert_leavesMap (ns : Nat) (straps : BitVec 2) (test : Bool) :
    s.leavesMap (execResetNAssert tk ns straps test s) := by simp [execResetNAssert]
@[simp] theorem execHubBoot_leavesMap (cause : Fin 5) : s.leavesMap (execHubBoot tk cause s) := by simp [execHubBoot]
@[simp] theorem execRefclkLost_leavesMap : s.leavesMap (execRefclkLost tk s) := by simp [execRefclkLost]
@[simp] theorem execHubFault_leavesMap (cause : BitVec 8) : s.leavesMap (execHubFault tk cause s) := by simp [execHubFault]
@[simp] theorem execSupplyFall_leavesMap (u : Supply) : s.leavesMap (execSupplyFall tk u s) := by
  unfold execSupplyFall
  split <;> simp
theorem execSupplyRise_leavesMap (x : Supply) (h : x ≠ .aon) : s.leavesMap (execSupplyRise tk x s) := by
  have gates (l : List Ch) (u : State) : (u.each l fun c s => s.refreshGates c).aon = u.aon := State.each_aon l (by intros; rfl) u
  refine State.leavesMap_eventAt (fun s => ?_) s tk
  dsimp only
  rw [if_neg h, State.ite_aon, gates, ite_self]
@[simp] theorem execDeepSleepEntry_leavesMap : s.leavesMap (execDeepSleepEntry tk s) := by simp [execDeepSleepEntry]
@[simp] theorem execClkreqWake_leavesMap : s.leavesMap (execClkreqWake tk s) := by simp [execClkreqWake]
@[simp] theorem execWakeAtExpiry_leavesMap : s.leavesMap (execWakeAtExpiry tk s) := by
  refine State.leavesMap_eventAt (fun s => ?_) s _
  dsimp only
  split <;> simp
@[simp] theorem execWake_leavesMap (us pulses : Nat) (gap : Bool) : s.leavesMap (execWake tk us pulses gap s) := by simp [execWake]

/-! ### Waits -/

@[simp] theorem execWaitTick_leavesMap : s.leavesMap (execWaitTick t w s) := by simp [execWaitTick]
@[simp] theorem execWaitTrig_leavesMap : s.leavesMap (execWaitTrig t w s) := by
  refine State.leavesMap_issueOk (fun s => ?_) s t w _
  rfl
@[simp] theorem execWaitEvt_leavesMap : s.leavesMap (execWaitEvt t w s) := by simp [execWaitEvt]
@[simp] theorem execWaitTickDone_leavesMap : s.leavesMap (execWaitTickDone t s) := by
  unfold execWaitTickDone
  (repeat' split) <;> simp [State.dueAt]
@[simp] theorem execWaitTrigDone_leavesMap : s.leavesMap (execWaitTrigDone t s) := by
  unfold execWaitTrigDone
  (repeat' split) <;> simp [State.dueAt]
@[simp] theorem execWaitEvtDone_leavesMap : s.leavesMap (execWaitEvtDone tk t s) := by
  refine State.leavesMap_eventAt (fun s => ?_) s _
  dsimp only
  (repeat' split) <;> simp
@[simp] theorem execWaitTimeout_leavesMap : s.leavesMap (execWaitTimeout t s) := by
  unfold execWaitTimeout
  (repeat' split) <;> simp
@[simp] theorem execSyncCluster_leavesMap : s.leavesMap (execSyncCluster t w s) := by simp [execSyncCluster]
@[simp] theorem execSyncPackage_leavesMap : s.leavesMap (execSyncPackage t w s) := by
  unfold execSyncPackage
  split <;> simp
@[simp] theorem execSyncRelease_leavesMap (b : BarRef) : s.leavesMap (execSyncRelease b s) := by
  unfold execSyncRelease
  split <;> simp

end

/-! ## The rows that move the map -/

theorem State.mapOk_of_remap {s u : State} (h : u.aon.remap = s.aon.remap) (hs : s.mapOk) : u.mapOk := fun n => by
  rw [h]
  exact hs n

theorem State.mapOk_of_leavesMap {s u : State} {o : Host.Outcome State Fault Refusal} (h : s.leavesMap o) (ho : o = .next u)
    (hs : s.mapOk) :
    u.mapOk := State.mapOk_of_remap (h u ho) hs

/-- An exchange swaps two places of one cluster's map. -/
theorem State.exchange_remap (s : State) {a b : Ch} (h : clOf a = clOf b) : (s.exchange a b).aon.remap = s.aon.remap.set (clOf a).1
    ((s.aon.remap.get (clOf a)).swap (a.1 % 8) (b.1 % 8) (by omega) (by omega)) (clOf a).2 := by
  have hb : s.physPos b = (s.aon.remap.get (clOf a)).get ⟨b.1 % 8, by omega⟩ := by rw [State.physPos, h]
  have h1 : (s.exchange a b).aon.remap = s.aon.remap.set (clOf a).1 (((s.aon.remap.get (clOf a)).set (a.1 % 8) (s.physPos b)
    (by omega)).set (b.1 % 8) (s.physPos a) (by omega)) (clOf a).2 := rfl
  rw [h1, hb]
  rfl

theorem State.mapOk_exchange {s : State} (hs : s.mapOk) {a b : Ch} (h : clOf a = clOf b) : (s.exchange a b).mapOk := fun n => by
  rw [State.exchange_remap s h, vget_set]
  split
  · exact (Vector.swap_perm _ _).toList.nodup_iff.mpr (hs _)
  · exact hs n

theorem State.clOf_of_remapCheck {s : State} {i j : Nat} {x : Ch × Ch} (h : s.remapCheck i j = .ok x) : clOf x.1 = clOf x.2 := by
  unfold State.remapCheck at h
  split at h
  · dsimp only at h
    split at h
    · cases h
    next hc =>
      split at h
      · cases h
      · split at h <;> cases h
        exact not_not.mp hc
  · cases h

theorem execRemap_mapOk {p : Pkt} {s u : State} (h : execRemap p s = .next u) (hs : s.mapOk) : u.mapOk := by
  cases h
  refine State.runPkt_map (P := fun m => ∀ n, (m.get n).toList.Nodup) (fun s hs => ?_) s p _ hs
  dsimp only
  split
  · simpa using hs
  next a b e =>
    have hx : (s.exchange a b).mapOk := State.mapOk_exchange hs (State.clOf_of_remapCheck e)
    exact State.mapOk_of_remap (by simp) hx

/-- VDD_AON's rise puts every channel back on its own place (R318). -/
theorem State.mapOk_aonRise (s : State) : s.aonRise.mapOk := State.mapOk_reset

theorem execVddAonRise_mapOk {tk : Nat} {s u : State} (h : execVddAonRise tk s = .next u) : u.mapOk := by
  cases h
  exact State.mapOk_of_remap (State.settle_remap _) (State.mapOk_aonRise _)

theorem execSupplyRise_mapOk {tk : Nat} {x : Supply} {s u : State} (h : execSupplyRise tk x s = .next u) (hs : s.mapOk) : u.mapOk := by
  by_cases hx : x = .aon
  · subst hx
    cases h
    refine State.mapOk_of_remap (State.settle_remap _) ?_
    dsimp only
    split
    · exact State.mapOk_of_remap (by simp) hs
    · exact State.mapOk_aonRise _
  · exact State.mapOk_of_leavesMap (execSupplyRise_leavesMap s tk x hx) h hs

theorem pktExec_mapOk {p : Pkt} {s u : State} (h : pktExec p s = .next u) (hs : s.mapOk) : u.mapOk := by
  unfold pktExec at h
  split at h
  case h_16 => exact execRemap_mapOk h hs
  all_goals exact State.mapOk_of_leavesMap (by simp) h hs

theorem execFenceRelease_mapOk {tk : Nat} {k : Ctx} {r : RingNo} {s u : State} (h : execFenceRelease tk k r s = .next u) (hs : s.mapOk) :
    u.mapOk := by
  unfold execFenceRelease at h
  split at h
  · split at h
    · exact pktExec_mapOk h hs
    · exact State.mapOk_of_leavesMap (by simp) h hs
  · exact State.mapOk_of_leavesMap (by simp) h hs

/-- Each row keeps the map but REMAP, which swaps two places of it, and the rise of VDD_AON, which resets it. -/
theorem exec_mapOk {i : Instr} {s u : State} (h : exec i s = .next u) (hs : s.mapOk) : u.mapOk := by
  cases i
  case remap => exact execRemap_mapOk h hs
  case supplyRise => exact execSupplyRise_mapOk h hs
  case vddAonRise => exact execVddAonRise_mapOk h
  case fenceRelease => exact execFenceRelease_mapOk h hs
  all_goals exact State.mapOk_of_leavesMap (by simp [exec]) h hs

/-! ## One step -/

theorem latheSlot_mapOk {s u : State} {n : Cl} (h : s.latheSlot n = .next u) (hs : s.mapOk) : u.mapOk := by
  unfold State.latheSlot at h
  dsimp only at h
  split at h
  · split at h
    · exact exec_mapOk h hs
    · exact State.mapOk_of_leavesMap (by simp) h hs
  · cases h
    exact hs

theorem latheSlots_mapOk {l : List Cl} {s u : State} (h : latheSlots l s = .next u) (hs : s.mapOk) : u.mapOk := by
  induction l generalizing s with
  | nil =>
    cases h
    exact hs
  | cons n l ih =>
    unfold latheSlots at h
    split at h
    next e => exact ih h (latheSlot_mapOk e hs)
    all_goals cases h

theorem idleTick_mapOk {s u : State} (h : s.idleTick = .next u) (hs : s.mapOk) : u.mapOk := by
  unfold State.idleTick at h
  split at h
  · cases h
    exact hs
  · exact latheSlots_mapOk h (State.mapOk_of_remap (by simp) hs)

/-- Settles O60: one lemma per operation shows that only REMAP and the rise of VDD_AON write the map, and each of the two writes a map
in which every thread of a cluster has a place of its own. -/
theorem keepsMap : Obligations.KeepsMap := by
  intro s u hs h
  unfold step at h
  split at h
  · exact idleTick_mapOk h hs
  · exact exec_mapOk h hs

end Sys2Proof.Machine
end

section
/-! PROOFS. What the operations on channels, threads and regions leave alone: each keeps `calm`, which holds the state of every
channel and of every thread, and everything outside them but memory, Pedigree and the event fabric. -/

namespace Sys2Proof.Machine

/-- What the mode rules of a channel speak of: its state, its freeze, its mode and the values that it holds. -/
def Channel.core (h : Channel) : Channel :=
  { Channel.reset with
    st := h.st, frozen := h.frozen, mode := h.mode, modeStored := h.modeStored, coef := h.coef, setpoint := h.setpoint
    vlimH := h.vlimH, vlimL := h.vlimL }

/-- A thread's state alone. -/
def Thread.core (h : Thread) : Thread := { Thread.reset with st := h.st }

/-- A cluster without what its threads hold beside their states, and without its barriers. -/
def Cluster.core (n : Cluster) : Cluster := { n with thr := n.thr.map Thread.core, bars := Vector.replicate 4 .empty }

/-- A region without the step of its calibration engine. -/
def Region.core (g : Region) : Region := { g with busy := false, kind := 0, stepConv := .a, stepSlot := 0, preempt := 0 }

/-- `bare`, and of channels, threads and regions their core alone, without package barriers, memory and Pedigree. -/
def State.calm (s : State) : State :=
  { s.bare with
    freeCtr := 0, chan := s.chan.map Channel.core, clus := s.clus.map Cluster.core, rgn := s.rgn.map Region.core
    bars := Vector.replicate 8 .empty, mem := .reset, acq := [], ped := .reset }

/-- A new entry with the same image under g leaves the mapped vector. -/
theorem vmap_set_of {α β : Type} {n : Nat} (g : α → β) (v : Vector α n) (i : Fin n) (x : α) (h : g x = g (v.get i)) :
    (v.set i.1 x i.2).map g = v.map g := by
  ext j hj
  rw [Vector.getElem_map, Vector.getElem_set, Vector.getElem_map]
  split
  next e => subst e; exact h
  · rfl

/-- `calm` looks at nothing but `bare`. -/
theorem State.calm_congr {s u : State} (hb : u.bare = s.bare) : u.calm = s.calm := by
  have : ∀ x : State, x.calm = { x.bare with
    freeCtr := 0, chan := x.bare.chan.map Channel.core, clus := x.bare.clus.map Cluster.core, rgn := x.bare.rgn.map Region.core
    bars := Vector.replicate 8 .empty, mem := .reset, acq := [], ped := .reset } := fun _ => rfl
  rw [this, this, hb]

/-! ### Updates that keep a core -/

theorem State.modCh_calm {s : State} {c : Ch} {f : Channel → Channel} (h : (f (s.ch c)).core = (s.ch c).core) :
    (s.modCh c f).calm = s.calm :=
  congrArg (fun v => { s.calm with chan := v }) (vmap_set_of Channel.core s.chan c _ h)

theorem State.modCl_calm {s : State} {n : Cl} {f : Cluster → Cluster} (h : (f (s.cl n)).core = (s.cl n).core) :
    (s.modCl n f).calm = s.calm :=
  congrArg (fun v => { s.calm with clus := v }) (vmap_set_of Cluster.core s.clus n _ h)

theorem State.modRg_calm {s : State} {r : Rg} {f : Region → Region} (h : (f (s.rg r)).core = (s.rg r).core) :
    (s.modRg r f).calm = s.calm :=
  congrArg (fun v => { s.calm with rgn := v }) (vmap_set_of Region.core s.rgn r _ h)

theorem State.modTh_calm {s : State} {t : Thr} {f : Thread → Thread} (h : (f (s.th t)).st = (s.th t).st) :
    (s.modTh t f).calm = s.calm := by
  refine State.modCl_calm ?_
  unfold Cluster.core
  dsimp only
  rw [vmap_set_of Thread.core (s.cl t.cl).thr t.k]
  exact congrArg (fun x => { Thread.reset with st := x }) h

/-! ### The operations -/

@[simp] theorem State.ite_calm (p : Prop) [Decidable p] (s u : State) : (if p then s else u).calm = if p then s.calm else u.calm :=
  apply_ite ..

@[simp] theorem State.each_calm {α : Type} (l : List α) {f : α → State → State} (h : ∀ a s, (f a s).calm = s.calm) (s : State) :
    (s.each l f).calm = s.calm := by
  induction l generalizing s with
  | nil => rfl
  | cons a l ih => exact (ih (f a s)).trans (h a s)

@[simp] theorem State.modCh_calm_of (s : State) (c : Ch) {f : Channel → Channel} (h : ∀ x, (f x).core = x.core) :
    (s.modCh c f).calm = s.calm := State.modCh_calm (h _)
@[simp] theorem State.modCl_calm_of (s : State) (n : Cl) {f : Cluster → Cluster} (h : ∀ x, (f x).core = x.core) :
    (s.modCl n f).calm = s.calm := State.modCl_calm (h _)
@[simp] theorem State.modRg_calm_of (s : State) (r : Rg) {f : Region → Region} (h : ∀ x, (f x).core = x.core) :
    (s.modRg r f).calm = s.calm := State.modRg_calm (h _)
@[simp] theorem State.modTh_calm_of (s : State) (t : Thr) {f : Thread → Thread} (h : ∀ x, (f x).st = x.st) :
    (s.modTh t f).calm = s.calm := State.modTh_calm (h _)
@[simp] theorem State.acq_calm (s : State) (m : List Host.Cell) : { s with acq := m }.calm = s.calm := rfl
@[simp] theorem State.mem_calm (s : State) (m : MemCtl) : { s with mem := m }.calm = s.calm := rfl
@[simp] theorem State.ped_calm (s : State) (m : Ped) : { s with ped := m }.calm = s.calm := rfl
@[simp] theorem State.bars_calm (s : State) (m : Vector Barrier 8) : { s with bars := m }.calm = s.calm := rfl
@[simp] theorem State.raiseAt_calm (s : State) (n : Src) (code : Nat) (d : Word) (t : Nat) : (s.raiseAt n code d t).calm = s.calm :=
  State.calm_congr (State.bare_raiseAt ..)
@[simp] theorem State.raise_calm (s : State) (n : Src) (code : Nat) (d : Word) : (s.raise n code d).calm = s.calm :=
  State.calm_congr (State.bare_raise ..)
@[simp] theorem State.raiseHub_calm (s : State) (h : Fin 112) (d : Word) : (s.raiseHub h d).calm = s.calm :=
  State.calm_congr (State.bare_raiseHub ..)
@[simp] theorem State.settle_calm (s : State) : s.settle.calm = s.calm := State.calm_congr (State.bare_settle s)
@[simp] theorem State.advance_calm (s : State) (t : Nat) : (s.advance t).calm = s.calm := State.calm_congr (State.bare_advance s t)
@[simp] theorem State.setPState_calm (s : State) (p : PState) : (s.setPState p).calm = s.calm := State.calm_congr (State.bare_setPState s p)

section
variable (s : State) (c : Ch) (t tk b : Nat) (p : Pkt) (k : Ctx) (n : Cl) (r : Rg) (d : Die) (v : Conv) (w : Word)

@[simp] theorem State.modBar_calm (b : BarRef) (f : Barrier → Barrier) : (s.modBar b f).calm = s.calm := by
  cases b with
  | cluster n i => exact State.modCl_calm rfl
  | package i => rfl
@[simp] theorem State.withdraw_calm (t : Thr) (b : BarRef) : (s.withdraw t b).calm = s.calm := by simp [State.withdraw]
@[simp] theorem State.latchEvtAt_calm (t : Thr) (now : Nat) : (s.latchEvtAt t b now).calm = s.calm := by
  refine State.modTh_calm ?_
  dsimp only
  (repeat' split) <;> rfl
@[simp] theorem State.chEvAt_calm (e : ChEv) (detail : Word) : (s.chEvAt c e detail t).calm = s.calm := by
  unfold State.chEvAt
  split <;> simp
@[simp] theorem State.modGen_calm (f : GenSt → GenSt) : (s.modGen c f).calm = s.calm := State.modCh_calm rfl
@[simp] theorem State.genStop_calm : (s.genStop c t).calm = s.calm := by simp [State.genStop]
@[simp] theorem State.modCap_calm (f : CapSt → CapSt) : (s.modCap c f).calm = s.calm := State.modCh_calm rfl
@[simp] theorem State.disarm_calm : (s.disarm c).calm = s.calm := State.modCh_calm rfl
@[simp] theorem State.endRec_calm : (s.endRec c).calm = s.calm := State.modCh_calm rfl
@[simp] theorem State.cutRec_calm (fl : Word) : (s.cutRec c b fl).calm = s.calm := by
  unfold State.cutRec
  split <;> simp
@[simp] theorem State.truncRec_calm : (s.truncRec c b).calm = s.calm := by simp [State.truncRec]
@[simp] theorem State.logUe_calm (finder lch : Nat) : (s.logUe finder lch b).calm = s.calm := by
  unfold State.logUe
  dsimp only
  rw [State.raiseHub_calm]
  refine congrArg (fun v => { s.calm with chan := v }) ?_
  ext i hi
  simp [Channel.core, State.ch, Vector.get]
@[simp] theorem State.acqPut_calm (lch base size tot : Nat) (bs : List Byte) : (s.acqPut lch base size tot bs).calm = s.calm := by
  unfold State.acqPut
  dsimp only
  split
  · rfl
  · refine (State.each_calm _ (fun b s => ?_) _).trans rfl
    split
    · rfl
    · exact (State.logUe_calm _ b 6 lch).trans rfl
@[simp] theorem State.sideWrite_calm (bs : List Byte) : (s.sideWrite c bs).calm = s.calm := by simp [State.sideWrite]
@[simp] theorem State.side_calm (q : Nat) (bs : List Byte) : (s.side c q bs).calm = s.calm := by simp [State.side]
@[simp] theorem State.closeStream_calm : (s.closeStream c b).calm = s.calm := by simp [State.closeStream]
@[simp] theorem State.refreshGates_calm : (s.refreshGates c).calm = s.calm := State.modCh_calm rfl
@[simp] theorem State.genArm_calm : (s.genArm c t).calm = s.calm := by
  refine State.modCh_calm ?_
  split
  · split <;> rfl
  · rfl
@[simp] theorem State.modTrip_calm (f : TripSt → TripSt) : (s.modTrip c f).calm = s.calm := State.modCh_calm rfl
@[simp] theorem State.stepOff_calm : (s.stepOff r).calm = s.calm := by
  unfold State.stepOff
  refine (State.modRg_calm rfl).trans ?_
  split
  · exact State.modCh_calm rfl
  · rfl
@[simp] theorem State.stepDiscard_calm : (s.stepDiscard r).calm = s.calm := by
  unfold State.stepDiscard
  split
  · exact (State.modRg_calm rfl).trans (State.stepOff_calm s r)
  · rfl
@[simp] theorem State.stepDisturb_calm : (s.stepDisturb c).calm = s.calm := by simp [State.stepDisturb]
@[simp] theorem State.latchTrip_calm (m : Cmp) : (s.latchTrip c m t).calm = s.calm := by simp [State.latchTrip]
@[simp] theorem State.evalCmp_calm (m : Cmp) : (s.evalCmp c m t).calm = s.calm := by simp [State.evalCmp]
@[simp] theorem State.evalTrip_calm : (s.evalTrip c t).calm = s.calm := by simp [State.evalTrip]
@[simp] theorem State.openWin_calm (i : Fin 5) (len : Nat) (mask : BitVec 4) : (s.openWin c i t len mask).calm = s.calm := by
  simp [State.openWin]
@[simp] theorem State.pulseEdgeFx_calm (act : Bool) : (s.pulseEdgeFx c act t).calm = s.calm := by
  simp only [State.pulseEdgeFx, State.openWin_calm, State.refreshGates_calm]
  exact State.modCh_calm rfl
@[simp] theorem State.pulseStart_calm : (s.pulseStart c t).calm = s.calm := by
  simp only [State.pulseStart, State.ite_calm, State.refreshGates_calm, State.pulseEdgeFx_calm, ite_self]
  exact State.modCh_calm rfl
@[simp] theorem State.pulseStop_calm : (s.pulseStop c t).calm = s.calm := by
  simp only [State.pulseStop, State.ite_calm, State.pulseEdgeFx_calm, ite_self]
  exact State.modCh_calm rfl
@[simp] theorem State.pulseCheck_calm : (s.pulseCheck c t).calm = s.calm := by
  have seen (x : Bool) : (s.modCh c fun h => { h with pulseSeen := x }).calm = s.calm := State.modCh_calm rfl
  simp [State.pulseCheck, seen]
@[simp] theorem State.stimFollow_calm : (s.stimFollow c t).calm = s.calm := by
  simp only [State.stimFollow, State.refreshGates_calm, State.genArm_calm, State.pulseCheck_calm]
  refine State.modCh_calm ?_
  split <;> rfl
@[simp] theorem State.latchEvt_calm (t : Thr) : (s.latchEvt t b).calm = s.calm := by simp [State.latchEvt]
@[simp] theorem State.chEv_calm (e : ChEv) (detail : Word) : (s.chEv c e detail).calm = s.calm := by simp [State.chEv]
@[simp] theorem State.rangeCut_calm : (s.rangeCut c t).calm = s.calm := by
  unfold State.rangeCut
  split
  · split
    · rfl
    · exact State.modCh_calm rfl
  · rfl
@[simp] theorem State.flushDac_calm : (s.flushDac c).calm = s.calm := State.modCh_calm rfl
@[simp] theorem State.modLoop_calm (f : LoopSt → LoopSt) : (s.modLoop c f).calm = s.calm := State.modCh_calm rfl
@[simp] theorem State.openEng_calm : (s.openEng c).calm = s.calm := State.modCh_calm rfl
@[simp] theorem State.defCancel_calm : (s.defCancel c t).calm = s.calm := by
  unfold State.defCancel
  refine (State.modCh_calm rfl).trans ?_
  simp
@[simp] theorem State.stimStop_calm : (s.stimStop c t).calm = s.calm := by simp [State.stimStop]
@[simp] theorem State.capPark_calm : (s.capPark c b).calm = s.calm := by simp [State.capPark]
@[simp] theorem State.modConv_calm (f : ConvSt → ConvSt) : (s.modConv c v f).calm = s.calm := by
  refine State.modCh_calm ?_
  split <;> rfl
@[simp] theorem State.dropUrgent_calm : (s.dropUrgent c v).calm = s.calm := by simp [State.dropUrgent]
@[simp] theorem State.stepUrgent_calm : (s.stepUrgent c v).calm = s.calm := by simp [State.stepUrgent]
@[simp] theorem State.pedQueueAt_calm (kind : Byte) (lch : Nat) (body : List Byte) (after : PedAfter) :
    (s.pedQueueAt kind lch body after t).calm = s.calm := by
  simp [State.pedQueueAt]
@[simp] theorem State.acqWrite_calm (lch : Nat) (a : Nat) (bs : List Byte) : (s.acqWrite lch a bs).calm = s.calm := by
  simp [State.acqWrite]
@[simp] theorem State.touchMem_calm : s.touchMem.calm = s.calm := by simp [State.touchMem]
@[simp] theorem State.pedQueue_calm (kind : Byte) (lch : Nat) (body : List Byte) (after : PedAfter) :
    (s.pedQueue kind lch body after).calm = s.calm := by
  simp [State.pedQueue]
@[simp] theorem State.used_calm : s.used.calm = s.calm := rfl
@[simp] theorem State.modRec_calm (q : Nat) (f : Rec → Rec) : (s.modRec c q f).calm = s.calm := State.modCh_calm rfl
@[simp] theorem State.flushGap_calm (q : Nat) (b : Bool) : (s.flushGap c q b).calm = s.calm := by
  unfold State.flushGap
  split <;> simp
@[simp] theorem State.gapTo_calm (q : Nat) (b : Bool) (i : Nat) (cause : Nat) : (s.gapTo c q b i cause).calm = s.calm := by
  unfold State.gapTo
  split <;> simp
@[simp] theorem State.flushRng_calm (q : Nat) (b : Bool) (i : Nat) : (s.flushRng c q b i).calm = s.calm := by
  unfold State.flushRng
  split <;> simp
@[simp] theorem State.finalize_calm : (s.finalize c).calm = s.calm := by
  unfold State.finalize
  split
  · rfl
  · simp only [State.pedQueue_calm, State.modCap_calm]
    exact (State.acq_calm _ _).trans (by simp)
@[simp] theorem State.forwardRes_calm : (s.forwardRes c).calm = s.calm := by
  unfold State.forwardRes
  refine (State.each_calm _ (fun x s => ?_) _).trans (State.modCh_calm rfl)
  dsimp only
  split <;> simp
@[simp] theorem State.finalizeAll_calm : (s.finalizeAll c).calm = s.calm := by simp [State.finalizeAll]
@[simp] theorem State.modIv_calm (e : Fin 16) (f : Interval → Interval) : (s.modIv c v e f).calm = s.calm := by simp [State.modIv]
@[simp] theorem State.commitRes_calm (r : Fin 40) (ts : Nat) : (s.commitRes c r w ts).calm = s.calm := by
  have res (g : ResReg) (u : State) : (u.modCh c fun h => { h with res := h.res.set r.1 g r.2 }).calm = u.calm := State.modCh_calm rfl
  have rq (x : RqItem) (u : State) : (u.modCh c fun h => { h with rq := h.rq ++ [x] }).calm = u.calm := State.modCh_calm rfl
  simp only [State.commitRes, State.ite_calm, State.chEv_calm, State.modConv_calm, rq, res, ite_self]
@[simp] theorem State.closeIv_calm (e : Fin 16) (ranging : Bool) : (s.closeIv c v e ranging).calm = s.calm := by simp [State.closeIv]
@[simp] theorem State.closeIvs_calm (ranging : Bool) : (s.closeIvs c v ranging).calm = s.calm := by simp [State.closeIvs]
@[simp] theorem State.convOp_calm (o : ConvOp) : (s.convOp c v o).calm = s.calm := by
  unfold State.convOp
  split <;> simp
@[simp] theorem State.convOps_calm (ts : Nat) : (s.convOps c v ts).calm = s.calm := by simp [State.convOps]
@[simp] theorem State.convLost_calm : (s.convLost c v t).calm = s.calm := by simp [State.convLost]
@[simp] theorem State.convBack_calm : (s.convBack c v t).calm = s.calm := by simp [State.convBack]
@[simp] theorem State.latchRg_calm : (s.latchRg r b).calm = s.calm := by simp [State.latchRg]
@[simp] theorem State.latchAll_calm : (s.latchAll b).calm = s.calm := by simp [State.latchAll]
@[simp] theorem State.cutReceived_calm : (s.cutReceived c).calm = s.calm := by simp [State.cutReceived]
@[simp] theorem State.closeWins_calm : (s.closeWins c).calm = s.calm := by simp [State.closeWins]
@[simp] theorem State.deliverGroup_calm (n : Src) : (s.deliverGroup n).calm = s.calm := by
  refine State.calm_congr ?_
  unfold State.deliverGroup
  split
  · rfl
  · dsimp only
    (repeat' split) <;> simp
end

/-! ### The counts through the event fabric -/

/-- What each operation of a list keeps, the list keeps. -/
theorem State.each_frame {α β : Type} (g : State → β) (l : List α) {f : α → State → State} (h : ∀ a s, g (f a s) = g s) (s : State) :
    g (s.each l f) = g s := by
  induction l generalizing s with
  | nil => rfl
  | cons a l ih => exact (ih (f a s)).trans (h a s)
@[simp] theorem State.each_tick {α : Type} (l : List α) {f : α → State → State} (h : ∀ a s, (f a s).tick = s.tick) (s : State) :
    (s.each l f).tick = s.tick := State.each_frame State.tick l h s
@[simp] theorem State.each_dieTick {α : Type} (l : List α) {f : α → State → State} (h : ∀ a s, (f a s).dieTick = s.dieTick) (s : State) :
    (s.each l f).dieTick = s.dieTick := State.each_frame State.dieTick l h s
@[simp] theorem State.ite_tick (p : Prop) [Decidable p] (s u : State) : (if p then s else u).tick = if p then s.tick else u.tick :=
  apply_ite ..
@[simp] theorem State.ite_dieTick (p : Prop) [Decidable p] (s u : State) : (if p then s else u).dieTick =
    if p then s.dieTick else u.dieTick :=
  apply_ite ..
section
variable (s : State) (c : Ch) (t tk b : Nat) (p : Pkt) (k : Ctx) (n : Cl) (r : Rg) (d : Die) (v : Conv) (w : Word)
@[simp] theorem State.unjournal_tick (o : OutPkt) : (s.unjournal o).tick = s.tick := by simp [State.unjournal]
@[simp] theorem State.unjournal_dieTick (o : OutPkt) : (s.unjournal o).dieTick = s.dieTick := by simp [State.unjournal]
@[simp] theorem State.msix_tick (v : Nat) : (s.msix v).tick = s.tick := by simp [State.msix]
@[simp] theorem State.msix_dieTick (v : Nat) : (s.msix v).dieTick = s.dieTick := by simp [State.msix]
@[simp] theorem State.writeOut_tick (o : OutPkt) : (s.writeOut o).tick = s.tick := by simp [State.writeOut]
@[simp] theorem State.writeOut_dieTick (o : OutPkt) : (s.writeOut o).dieTick = s.dieTick := by simp [State.writeOut]
@[simp] theorem State.writeEv_tick (n : Src) (h : HeldEv) : (s.writeEv n h).tick = s.tick := by simp [State.writeEv]
@[simp] theorem State.writeEv_dieTick (n : Src) (h : HeldEv) : (s.writeEv n h).dieTick = s.dieTick := by simp [State.writeEv]
@[simp] theorem State.sendEv_tick (n : Src) (f : Fold) (coal msi : Bool) : (s.sendEv n f coal msi).tick = s.tick := by simp [State.sendEv]
@[simp] theorem State.sendEv_dieTick (n : Src) (f : Fold) (coal msi : Bool) : (s.sendEv n f coal msi).dieTick = s.dieTick := by
  simp [State.sendEv]
@[simp] theorem State.endWindow_tick (n : Src) : (s.endWindow n).tick = s.tick := by
  simp only [State.endWindow]
  (repeat' split) <;> simp
@[simp] theorem State.endWindow_dieTick (n : Src) : (s.endWindow n).dieTick = s.dieTick := by
  simp only [State.endWindow]
  (repeat' split) <;> simp
@[simp] theorem State.foldHeld_tick (n : Src) (x : Ev) : (s.foldHeld n x).tick = s.tick := rfl
@[simp] theorem State.foldHeld_dieTick (n : Src) (x : Ev) : (s.foldHeld n x).dieTick = s.dieTick := rfl
@[simp] theorem State.packEv_tick (n : Src) (x : Ev) (msi : Bool) : (s.packEv n x msi).tick = s.tick := by
  simp only [State.packEv]
  (repeat' split) <;> simp
@[simp] theorem State.packEv_dieTick (n : Src) (x : Ev) (msi : Bool) : (s.packEv n x msi).dieTick = s.dieTick := by
  simp only [State.packEv]
  (repeat' split) <;> simp
@[simp] theorem State.deliver_tick (n : Src) (x : Ev) : (s.deliver n x).tick = s.tick := by simp [State.deliver]
@[simp] theorem State.deliver_dieTick (n : Src) (x : Ev) : (s.deliver n x).dieTick = s.dieTick := by simp [State.deliver]
@[simp] theorem State.raiseAt_tick (n : Src) (code : Nat) (detail : Word) : (s.raiseAt n code detail t).tick = s.tick := by
  simp [State.raiseAt]
@[simp] theorem State.raiseAt_dieTick (n : Src) (code : Nat) (detail : Word) : (s.raiseAt n code detail t).dieTick = s.dieTick := by
  simp [State.raiseAt]
@[simp] theorem State.raise_tick (n : Src) (code : Nat) (detail : Word) : (s.raise n code detail).tick = s.tick := by simp [State.raise]
@[simp] theorem State.raise_dieTick (n : Src) (code : Nat) (detail : Word) : (s.raise n code detail).dieTick = s.dieTick := by
  simp [State.raise]
@[simp] theorem State.raiseHub_tick (h : Fin 112) (detail : Word) : (s.raiseHub h detail).tick = s.tick := by simp [State.raiseHub]
@[simp] theorem State.raiseHub_dieTick (h : Fin 112) (detail : Word) : (s.raiseHub h detail).dieTick = s.dieTick := by
  simp [State.raiseHub]
@[simp] theorem State.setPState_tick (p : PState) : (s.setPState p).tick = s.tick := by simp [State.setPState]
@[simp] theorem State.setPState_dieTick (p : PState) : (s.setPState p).dieTick = s.dieTick := by simp [State.setPState]
@[simp] theorem State.settle_tick : s.settle.tick = s.tick := by
  unfold State.settle
  split <;> simp
@[simp] theorem State.settle_dieTick : s.settle.dieTick = s.dieTick := by
  unfold State.settle
  split <;> simp
@[simp] theorem State.latchEvtAt_tick (t : Thr) (now : Nat) : (s.latchEvtAt t b now).tick = s.tick := rfl
@[simp] theorem State.latchEvtAt_dieTick (t : Thr) (now : Nat) : (s.latchEvtAt t b now).dieTick = s.dieTick := rfl
@[simp] theorem State.latchAll_tick : (s.latchAll b).tick = s.tick := by
  unfold State.latchAll
  refine State.each_tick _ (fun n s => ?_) s
  rw [State.ite_tick, State.each_tick _ (by intros; rfl), ite_self]
@[simp] theorem State.latchAll_dieTick : (s.latchAll b).dieTick = s.dieTick := by
  unfold State.latchAll
  refine State.each_dieTick _ (fun n s => ?_) s
  rw [State.ite_dieTick, State.each_dieTick _ (by intros; rfl), ite_self]
end

/-! ### What two states that agree in `calm` share -/

theorem State.core_of_calm {s u : State} (h : u.calm = s.calm) (c : Ch) : (u.ch c).core = (s.ch c).core := by
  have hv : u.chan.map Channel.core = s.chan.map Channel.core := congrArg State.chan h
  simpa [State.ch, Vector.get] using congrArg (fun v => v.get c) hv

theorem State.st_of_calm {s u : State} (h : u.calm = s.calm) (c : Ch) : (u.ch c).st = (s.ch c).st := by
  have hc := congrArg Channel.st (State.core_of_calm h c)
  exact hc

theorem State.pack_of_calm {s u : State} (h : u.calm = s.calm) : u.pack = s.pack := by
  have e := congrArg State.pack h
  exact e

theorem State.die_of_calm {s u : State} (h : u.calm = s.calm) : u.die = s.die := by
  have e := congrArg State.die h
  exact e

/-- A change of a channel that speaks of its core alone. -/
theorem State.calm_modCh {s u : State} (h : u.calm = s.calm) (c : Ch) {f : Channel → Channel}
    (hf : ∀ x y, x.core = y.core → (f x).core = (f y).core) : (u.modCh c f).calm = (s.modCh c f).calm := by
  have e (x : State) : (x.modCh c f).calm = { x.calm with chan := x.calm.chan.set c.1 (f (x.ch c)).core c.2 } :=
    congrArg (fun v => { x.calm with chan := v }) (Vector.map_set ..)
  rw [e, e, h, hf _ _ (State.core_of_calm h c)]

/-! ### Changes of a channel's state -/

/-- Only channel c's state becomes x. -/
def State.putSt (s : State) (c : Ch) (x : ChSt) : State := s.modCh c fun h => { h with st := x }

theorem State.calm_putSt {s u : State} (h : u.calm = s.calm) (c : Ch) (x : ChSt) : (u.putSt c x).calm = (s.putSt c x).calm :=
  State.calm_modCh h c fun a b e => by
    unfold Channel.core at e ⊢
    simp only [Channel.mk.injEq] at e ⊢
    simp_all

theorem State.putSt_same (s : State) (c : Ch) {x : ChSt} (h : (s.ch c).st = x) : (s.putSt c x).calm = s.calm := by
  subst h
  exact State.modCh_calm rfl

theorem State.setSt_calm (s : State) (c : Ch) (x : ChSt) (t : Nat) : (s.setSt c x t).calm = (s.putSt c x).calm := by
  unfold State.setSt
  dsimp only
  split
  next h => exact (State.putSt_same s c h).symm
  · exact State.chEvAt_calm ..

theorem State.toHeld_calm (s : State) (c : Ch) (t : Nat) : (s.toHeld c t).calm = (s.putSt c .held).calm := by
  unfold State.toHeld
  simp only [State.stimFollow_calm, State.flushDac_calm, State.openEng_calm, State.setSt_calm]
  exact State.calm_putSt ((State.modCh_calm rfl).trans (State.stepDisturb_calm s c)) c .held

/-- What the loss of the sample clock makes of a channel's state (T12). -/
def heldSt (x : ChSt) : ChSt := if x = .off ∨ x = .tripped then x else .held

theorem State.toHeldClock_calm (s : State) (c : Ch) (t : Nat) :
    (s.toHeldClock c t).calm = (s.putSt c (heldSt (s.ch c).st)).calm := by
  have run : ((((s.rangeCut c t).defCancel c t).modCh c fun h => { h with safeStep := false }).toHeld c t).calm =
      (s.putSt c .held).calm := by
    rw [State.toHeld_calm]
    refine State.calm_putSt ?_ c .held
    rw [State.modCh_calm rfl, State.defCancel_calm, State.rangeCut_calm]
  have stay {x : ChSt} (h : (s.ch c).st = x) : (s.putSt c x).calm = s.calm := State.putSt_same s c h
  unfold State.toHeldClock
  cases h : (s.ch c).st <;> simp [run, stay h, heldSt]

theorem State.chLost_calm (s : State) (c : Ch) (t : Nat) : (s.chLost c t).calm = (s.putSt c (heldSt (s.ch c).st)).calm := by
  unfold State.chLost
  split
  next h =>
    have h : (s.ch c).st = .off := by simpa using h
    rw [h]
    exact (State.putSt_same s c h).symm
  · have e : (((s.convLost c .a t).convLost c .b t).modLoop c fun l => { l with flight := [], acc := [] }).calm = s.calm := by simp
    dsimp only
    rw [State.toHeldClock_calm, State.st_of_calm e]
    exact State.calm_putSt e c _

end Sys2Proof.Machine
end

section
/-! PROOFS. The Pack bus (8.8, 1.7): the realignment of a die, and the rows that form a Pack and leave it. -/

namespace Sys2Proof.Machine

@[simp] theorem State.settle_pack (s : State) : s.settle.pack = s.pack := State.pack_of_calm (State.settle_calm s)
@[simp] theorem State.advance_pack (s : State) (t : Nat) : (s.advance t).pack = s.pack := State.pack_of_calm (State.advance_calm s t)
@[simp] theorem State.raise_pack (s : State) (n : Src) (code : Nat) (d : Word) : (s.raise n code d).pack = s.pack :=
  State.pack_of_calm (State.raise_calm ..)
@[simp] theorem State.raiseHub_pack (s : State) (h : Fin 112) (d : Word) : (s.raiseHub h d).pack = s.pack :=
  State.pack_of_calm (State.raiseHub_calm ..)
@[simp] theorem State.latchAll_pack (s : State) (b : Nat) : (s.latchAll b).pack = s.pack := State.pack_of_calm (State.latchAll_calm ..)
@[simp] theorem State.latchRg_pack (s : State) (r : Rg) (b : Nat) : (s.latchRg r b).pack = s.pack :=
  State.pack_of_calm (State.latchRg_calm ..)

@[simp] theorem State.chLost_pack (s : State) (c : Ch) (t : Nat) : (s.chLost c t).pack = s.pack :=
  (State.pack_of_calm (State.chLost_calm s c t)).trans rfl

@[simp] theorem State.rgLostEvent_pack (s : State) (r : Rg) (power : Bool) : (s.rgLostEvent r power).pack = s.pack := by
  have lost : (s.rgLost r).pack = s.pack := by
    unfold State.rgLost
    exact (State.each_frame State.pack _ (by simp) _).trans ((State.pack_of_calm (State.stepDiscard_calm ..)).trans rfl)
  simp only [State.rgLostEvent, apply_ite State.pack, State.raise_pack, State.latchRg_pack, lost, ite_self]

/-- Choosing a reference changes, of the Pack state, the note of the reference alone (R36). -/
theorem State.setRef_pack (s : State) (on : Bool) : (s.setRef on).pack = { s.pack with onPack := on } := by
  unfold State.setRef
  split
  next h =>
    have h : s.pack.onPack = on := by simpa using h
    rw [← h]
  · exact State.each_frame State.pack _ (by simp) _

/-- What the loss of alignment leaves of the Pack state (R244). -/
theorem State.alignLost_pack (s : State) (cause : Nat) : (s.alignLost cause).pack = { s.pack with
    formed := false, loaded := false, forming := none, lost := true, trgPend := [], driven := 0, onPack := false
    sticky := s.pack.sticky ||| wd (2 ^ 18) } := by
  simp only [State.alignLost, State.raiseHub_pack, State.latchAll_pack, State.setRef_pack, State.packStick]

/-- The package has left its Pack with the loss on record. -/
def State.packLost (u : State) : Prop :=
  u.pack.formed = false ∧ u.pack.loaded = false ∧ u.pack.forming = none ∧ u.pack.lost = true
    ∧ u.pack.trgPend = [] ∧ u.pack.driven = 0 ∧ u.pack.onPack = false ∧ bit u.pack.sticky 18 = true

theorem State.packLost_alignLost (s : State) (cause : Nat) : (s.alignLost cause).settle.packLost := by
  unfold State.packLost
  rw [State.settle_pack, State.alignLost_pack]
  refine ⟨rfl, rfl, rfl, rfl, rfl, rfl, rfl, ?_⟩
  simp [bit, wd]

/-! ### Realignment (R28) -/

/-- The activities of die d moved by x ticks: its channels, its clusters and its regions (R28). -/
def State.shiftDie (s : State) (d : Die) (x : Int) : State :=
  ((s.each (chsOfDie d) fun c s => s.modCh c fun h => h.shift x fun k => s.idxAt c (sh x (s.sTick c k))).each
    (clsOfDie d) fun n s => s.modCl n (Cluster.shift x)).each (rgsOfDie d) fun r s => s.modRg r (Region.shift x)

/-- The late waits of a die's threads end (R28). -/
def State.lateDie (s : State) (d : Die) : State := s.each (clsOfDie d) fun n s => s.each (thrsOf n) fun t s => s.lateWait t

theorem State.realign_eq (s : State) (d : Die) :
    s.realign d = State.lateDie { s.shiftDie d (s.tick - s.dt d) with
      dieTick := (s.shiftDie d (s.tick - s.dt d)).dieTick.set d.1 (s.shiftDie d (s.tick - s.dt d)).tick d.2 } d := by
  simp only [State.realign, State.lateDie, State.shiftDie]

theorem State.shiftDie_frame {β : Type} (g : State → β) (hch : ∀ s c f, g (State.modCh s c f) = g s)
    (hcl : ∀ s n f, g (State.modCl s n f) = g s) (hrg : ∀ s r f, g (State.modRg s r f) = g s) (s : State) (d : Die) (x : Int) :
    g (s.shiftDie d x) = g s := by
  unfold State.shiftDie
  rw [State.each_frame g _ fun r s => hrg s r _, State.each_frame g _ fun n s => hcl s n _, State.each_frame g _ fun c s => hch s c _]

theorem State.lateDie_frame {β : Type} (g : State → β) (hcl : ∀ s n f, g (State.modCl s n f) = g s) (s : State) (d : Die) :
    g (s.lateDie d) = g s := by
  have late (t : Thr) (s : State) : g (s.lateWait t) = g s := by
    unfold State.lateWait State.modTh
    exact hcl ..
  unfold State.lateDie
  exact State.each_frame g _ (fun n s => State.each_frame g _ late s) s

/-- A realignment moves nothing outside the die's channels, clusters, regions and count. -/
theorem State.realign_frame {β : Type} (g : State → β) (hch : ∀ s c f, g (State.modCh s c f) = g s)
    (hcl : ∀ s n f, g (State.modCl s n f) = g s) (hrg : ∀ s r f, g (State.modRg s r f) = g s)
    (hdt : ∀ (s : State) v, g { s with dieTick := v } = g s) (s : State) (d : Die) : g (s.realign d) = g s := by
  rw [State.realign_eq, State.lateDie_frame g hcl, hdt, State.shiftDie_frame g hch hcl hrg]

@[simp] theorem State.realign_tick (s : State) (d : Die) : (s.realign d).tick = s.tick :=
  State.realign_frame State.tick (fun _ _ _ => rfl) (fun _ _ _ => rfl) (fun _ _ _ => rfl) (fun _ _ => rfl) s d
@[simp] theorem State.realign_pack (s : State) (d : Die) : (s.realign d).pack = s.pack :=
  State.realign_frame State.pack (fun _ _ _ => rfl) (fun _ _ _ => rfl) (fun _ _ _ => rfl) (fun _ _ => rfl) s d
@[simp] theorem State.realign_die (s : State) (d : Die) : (s.realign d).die = s.die :=
  State.realign_frame State.die (fun _ _ _ => rfl) (fun _ _ _ => rfl) (fun _ _ _ => rfl) (fun _ _ => rfl) s d

/-- A realigned die counts as the hub does. -/
theorem State.realign_dieTick (s : State) (d : Die) : (s.realign d).dieTick = s.dieTick.set d.1 s.tick d.2 := by
  rw [State.realign_eq, State.lateDie_frame State.dieTick fun _ _ _ => rfl]
  dsimp only
  rw [State.shiftDie_frame State.dieTick (fun _ _ _ => rfl) (fun _ _ _ => rfl) (fun _ _ _ => rfl),
    State.shiftDie_frame State.tick (fun _ _ _ => rfl) (fun _ _ _ => rfl) (fun _ _ _ => rfl)]

@[simp] theorem State.realign_dt (s : State) (d e : Die) : (s.realign d).dt e = if e = d then s.tick else s.dt e := by
  simp only [State.dt, State.realign_dieTick, vget_set, eq_comm]

/-- The die takes the hub's count where its core clock runs. -/
def State.follow (s : State) (d : Die) : State := if (s.die.get d).clkOk then s.realign d else s

@[simp] theorem State.follow_tick (s : State) (d : Die) : (s.follow d).tick = s.tick := by simp [State.follow]
@[simp] theorem State.follow_die (s : State) (d : Die) : (s.follow d).die = s.die := by simp [State.follow, apply_ite State.die]
@[simp] theorem State.follow_pack (s : State) (d : Die) : (s.follow d).pack = s.pack := by simp [State.follow, apply_ite State.pack]
theorem State.follow_dt (s : State) (d e : Die) : (s.follow d).dt e = if e = d ∧ (s.die.get d).clkOk = true then s.tick else s.dt e := by
  unfold State.follow
  split
  next h => simp [h]
  next h => simp [h]

theorem State.loadTick_eq (s : State) (t : Nat) :
    s.loadTick t = (State.follow { s.shiftHub ((t : Int) - s.tick) with tick := t } 0).follow 1 := rfl

/-- A new s.tick, with every die that has its clock counting as the hub does (R241). -/
theorem State.loadTick_dt (s : State) (t : Nat) (d : Die) (h : (s.die.get d).clkOk = true) : (s.loadTick t).dt d = t := by
  have hs : (s.shiftHub ((t : Int) - s.tick)).die = s.die := rfl
  rw [State.loadTick_eq]
  simp only [State.follow_dt, State.follow_tick, State.follow_die, hs]
  match d, h with
  | 0, h => simp [h]
  | 1, h => simp [h]

@[simp] theorem State.loadTick_tick (s : State) (t : Nat) : (s.loadTick t).tick = t := by simp [State.loadTick_eq]
@[simp] theorem State.loadTick_formed (s : State) (t : Nat) : (s.loadTick t).pack.formed = s.pack.formed := by
  simp [State.loadTick_eq, State.shiftHub]

/-! ### The rows -/

/-- A row that completes in u ends as u is. -/
theorem State.ends_of {s : State} {i : Instr} {P : State → Prop} {u : State} (he : exec i s = .next u) (h : P u) : s.ends i P :=
  ⟨u, he, h⟩

/-- An event row turns the state at its tick into what its event does to it. -/
theorem State.turns_of {s : State} {i : Instr} {tk : Nat} {f g : State → State} (he : exec i s = .next (s.eventAt tk f))
    (h : (f (s.advance tk)).bare = (g (s.advance tk)).bare) : s.turns i tk g :=
  ⟨_, he, (State.bare_eventAt s tk f).trans h⟩

theorem State.setRef_of_eq (s : State) (on : Bool) (h : s.pack.onPack = on) : s.setRef on = s := by
  simp [State.setRef, h]

/-- Settles O53: each row's event, clause by clause; the loss of alignment through what it leaves of the Pack state (`alignLost_pack`),
the origin pulse through the count that every die with a clock takes (`loadTick_dt`). -/
theorem packRows : Obligations.PackRows := by
  unfold Obligations.PackRows
  intro s tk rtt n
  dsimp only
  have hp : (s.advance tk).pack = s.pack := State.advance_pack s tk
  have lost {i : Instr} {u : State} (cause : Nat) (he : exec i s = .next u.settle) (h : u = (s.advance tk).alignLost cause) :
      s.ends i State.packLost := ⟨_, he, h ▸ State.packLost_alignLost _ cause⟩
  refine ⟨fun h => ?_, fun t hf hl ht => ?_, fun t hf hl ht hon => ?_, fun x hx => ⟨fun hn hb => ?_, fun hn => ?_⟩, fun h => ?_,
    fun hl hm => ?_, fun hl h1 h2 => ?_, fun hl hk => ?_, fun h => ?_⟩
  · refine State.turns_of rfl ?_
    rw [hp, if_pos h]
  · refine State.ends_of rfl ?_
    have hd : (s.advance tk).die = s.die := State.die_of_calm (State.advance_calm s tk)
    simp only [State.eventAt, hp, hf, hl, Bool.false_or, decide_eq_true_eq, if_neg (Nat.not_lt.mpr ht), State.settle_pack,
      State.settle_tick, State.dt, State.settle_dieTick]
    refine ⟨State.loadTick_tick _ _, trivial, (State.loadTick_tick _ _).symm, by rw [State.loadTick_formed, hp], fun d h => ?_⟩
    exact (State.loadTick_dt _ _ d (hd ▸ h)).trans (State.loadTick_tick _ _).symm
  · refine State.turns_of rfl ?_
    simp only [hp, hf, hl, Bool.false_or, decide_eq_true_eq, if_neg (Nat.not_lt.mpr ht)]
    rw [State.setRef_of_eq]
    · rfl
    · exact hon
  · refine State.turns_of rfl ?_
    simp only [hp, hx, hb]
    cases hl : s.pack.lastTrg.get n with
    | none => rfl
    | some l =>
      have far : ¬ x.2 < l + 4 := fun h => hn ⟨l, hl, h⟩
      simp only [far, decide_false, Bool.not_true, Bool.or_self, Bool.false_eq_true, if_false]
  · refine State.turns_of rfl ?_
    simp only [hp, hx]
    rcases hn with ⟨l, hl, h⟩ | hb
    · simp only [hl, h, decide_true, Bool.true_or, if_true]
    · simp only [hb, Bool.not_false, Bool.or_true, if_true]
  · refine State.turns_of rfl ?_
    rw [hp, if_pos h]
  · refine State.turns_of rfl ?_
    have near : ¬ (1 < (s.advance tk).tick % 65536 ∧ (s.advance tk).tick % 65536 < 65535) := by omega
    simp only [hp, hl, Bool.not_true, Bool.false_eq_true, if_false, if_neg near]
    cases hf : s.pack.formed
    · simp only [Bool.false_eq_true, if_false, State.bare_raiseHub, Bool.false_and]
    · simp only [if_true, Bool.true_and]
  · refine lost 1 rfl ?_
    simp only [hp, hl]
    simp only [Bool.not_true, Bool.false_eq_true, if_false, if_pos (And.intro h1 h2)]
  · refine lost 2 rfl ?_
    simp [hl, hk]
  · refine lost 0 rfl ?_
    simp only [hp, if_pos h]

end Sys2Proof.Machine
end

section
/-! PROOFS. The loss of a die and of a cluster (1.3, 1.5): what a freeze, a halt and the abortion of items leave, the groups of events that
a die keeps, and the tick check. -/

namespace Sys2Proof.Machine

/-! ### Completion beside the items -/

/-- `apart` looks at nothing but `bare`. -/
theorem State.apart_congr {s u : State} (hb : u.bare = s.bare) : u.apart = s.apart := by
  have e (x : State) : x.apart =
      { x.bare with items := [], journal := [], ctxs := x.bare.ctxs.map fun k => { k with isOpen := false } } := rfl
  rw [e, e, hb]

@[simp] theorem State.ite_apart (p : Prop) [Decidable p] (s u : State) : (if p then s else u).apart = if p then s.apart else u.apart :=
  apply_ite ..

@[simp] theorem State.journal_apart (s : State) (l : List JEnt) : { s with journal := l }.apart = s.apart := rfl
@[simp] theorem State.items_apart (s : State) (l : List Pkt) : { s with items := l }.apart = s.apart := rfl
@[simp] theorem State.setRing_apart (s : State) (k : Ctx) (r : RingNo) (g : Ring) : (s.setRing k r g).apart = s.apart :=
  State.apart_congr (State.bare_setRing ..)
@[simp] theorem State.mark_apart (s : State) (p : Pkt) (n : Fin 3) : (s.mark p n).apart = s.apart := rfl

@[simp] theorem State.each_apart {α : Type} (l : List α) {f : α → State → State} (h : ∀ a s, (f a s).apart = s.apart) (s : State) :
    (s.each l f).apart = s.apart := State.each_frame State.apart l h s

theorem State.close_apart (s : State) (k : Ctx) : (s.modCtx k fun c => { c with isOpen := false }).apart = s.apart :=
  congrArg (fun v => { s.apart with ctxs := v })
    (vmap_set_of (fun k : CtxState => { k with isOpen := false }) s.ctxs k { s.ctxs.get k with isOpen := false } rfl)

@[simp] theorem State.unjournal_apart (s : State) (o : OutPkt) : (s.unjournal o).apart = s.apart := by simp [State.unjournal]

@[simp] theorem State.writeOut_apart (s : State) (o : OutPkt) : (s.writeOut o).apart = s.apart := by
  have msix (u : State) (v : Nat) : (u.msix v).apart = u.apart := State.apart_congr (State.bare_msix u v)
  simp only [State.writeOut, State.ite_apart, msix, State.unjournal_apart, ite_self]
  exact State.apart_congr rfl

@[simp] theorem State.post_apart (s : State) (o : OutPkt) : (s.post o).apart = s.apart := by
  unfold State.post
  split
  · exact State.writeOut_apart s o
  · exact State.apart_congr rfl

/-- The packet that waits for a ring pair to close completes (R368, R450). -/
def State.closeItem (s : State) (k : Ctx) (g : Ring) (p : Pkt) : State :=
  let d := p.hdr.type == 0x03
  let s := if d then s else s.modCtx k fun c => { c with isOpen := false }
  ({ s with items := eraseFirst (samePkt p) s.items }.mark p 2).post
    { OutPkt.blank p.ctx p.ring 0x80 with
      seq := p.hdr.seq, tag := p.hdr.tag, ptype := p.hdr.type, res0 := if d then g.sqTail - g.sqHead else 0 }

/-- A ring pair closes, and what waited for it completes, which may close further ones. -/
def State.closeRing (s : State) (m : Nat) (k : Ctx) (r : RingNo) : State :=
  (s.setRing k r Ring.closed).each (s.items.filter (waitsClose k r)) fun p u =>
    (u.closeItem k (s.ring k r) p).drainN m p.ctx p.ring

theorem State.drainN_succ (m : Nat) (s : State) (k : Ctx) (r : RingNo) : s.drainN (m + 1) k r =
    if s.canClose k r then if r = 0 then s.closeRing m k r else (s.closeRing m k r).drainN m k 0 else s := rfl

@[simp] theorem State.closeItem_apart (s : State) (k : Ctx) (g : Ring) (p : Pkt) : (s.closeItem k g p).apart = s.apart := by
  unfold State.closeItem
  dsimp only
  rw [State.post_apart, State.mark_apart, State.items_apart]
  split
  · rfl
  · exact State.close_apart s k

@[simp] theorem State.drainN_apart (m : Nat) (s : State) (k : Ctx) (r : RingNo) : (s.drainN m k r).apart = s.apart := by
  induction m generalizing s k r with
  | zero => rfl
  | succ m ih => simp [State.drainN_succ, State.closeRing, ih]

/-- A completion moves the items, the pages that wait for them and the event fabric alone. -/
@[simp] theorem State.complete_apart (s : State) (p : Pkt) (status code : Byte) (res0 : Word) (res1 : DWord) (pay : List Byte) :
    (s.complete p status code res0 res1 pay).apart = s.apart := by
  simp [State.complete, State.drainRing, State.modRing]

@[simp] theorem State.abortItems_apart (s : State) (code : Byte) (f : Pkt → Bool) : (s.abortItems code f).apart = s.apart := by
  simp [State.abortItems]

/-! ### The items that a completion leaves -/

theorem eraseFirst_eq_eraseP {α : Type} (f : α → Bool) (l : List α) : eraseFirst f l = l.eraseP f := by
  induction l with
  | nil => rfl
  | cons a l ih => rw [eraseFirst, List.eraseP_cons, ih, ← Bool.cond_eq_ite]

@[simp] theorem State.unjournal_items (s : State) (o : OutPkt) : (s.unjournal o).items = s.items := by
  simp [State.unjournal, apply_ite State.items]
@[simp] theorem State.msix_items (s : State) (v : Nat) : (s.msix v).items = s.items := by simp [State.msix, apply_ite State.items]
@[simp] theorem State.writeOut_items (s : State) (o : OutPkt) : (s.writeOut o).items = s.items := by
  simp [State.writeOut, apply_ite State.items, State.setRing]
@[simp] theorem State.post_items (s : State) (o : OutPkt) : (s.post o).items = s.items := by
  simp [State.post, apply_ite State.items]

/-- The items of u stand among those of s, in their order. -/
theorem State.each_sublist {α : Type} (l : List α) {f : α → State → State} (h : ∀ a s, (f a s).items.Sublist s.items) (s : State) :
    (s.each l f).items.Sublist s.items := by
  induction l generalizing s with
  | nil => exact List.Sublist.refl _
  | cons a l ih => exact (ih (f a s)).trans (h a s)

theorem State.closeItem_items (s : State) (k : Ctx) (g : Ring) (p : Pkt) : (s.closeItem k g p).items.Sublist s.items := by
  unfold State.closeItem
  dsimp only
  rw [State.post_items]
  show (eraseFirst _ _).Sublist _
  rw [eraseFirst_eq_eraseP]
  split <;> exact List.eraseP_sublist

theorem State.drainN_items (m : Nat) (s : State) (k : Ctx) (r : RingNo) : (s.drainN m k r).items.Sublist s.items := by
  induction m generalizing s k r with
  | zero => exact List.Sublist.refl _
  | succ m ih =>
    have close : (s.closeRing m k r).items.Sublist s.items :=
      (State.each_sublist _ (fun p u => (ih _ _ _).trans (State.closeItem_items u k _ p)) _).trans (List.Sublist.refl _)
    rw [State.drainN_succ]
    split
    · split
      · exact close
      · exact (ih _ _ _).trans close
    · exact List.Sublist.refl _

theorem State.complete_items (s : State) (p : Pkt) (status code : Byte) (res0 : Word) (res1 : DWord) (pay : List Byte) :
    (s.complete p status code res0 res1 pay).items.Sublist (s.items.eraseP (samePkt p)) := by
  refine (State.drainN_items _ _ _ _).trans ?_
  rw [State.post_items]
  show (eraseFirst _ _).Sublist _
  rw [eraseFirst_eq_eraseP]

/-! ### Aborted items -/

theorem countP_eraseP {α : Type} (f : α → Bool) (l : List α) : (l.eraseP f).countP f = l.countP f - 1 := by
  induction l with
  | nil => rfl
  | cons a l ih =>
    cases h : f a
    · rw [List.eraseP_cons_of_neg (by simp [h]), List.countP_cons_of_neg (by simp [h]), List.countP_cons_of_neg (by simp [h]), ih]
    · rw [List.eraseP_cons_of_pos h, List.countP_cons_of_pos h, Nat.add_sub_cancel]

theorem samePkt_iff (p q : Pkt) : samePkt p q = true ↔ (p.ctx, p.ring, p.hdr) = (q.ctx, q.ring, q.hdr) := by
  simp [samePkt, and_assoc]

theorem samePkt_congr {p q : Pkt} (h : samePkt p q = true) : samePkt p = samePkt q := by
  funext x
  rw [Bool.eq_iff_iff, samePkt_iff, samePkt_iff, (samePkt_iff p q).1 h]

/-- Where a list of completions names every item of a kind as often as it stands among the items, none of the kind is left. -/
theorem State.items_each_complete {f : Pkt → Bool} {code : Byte} (l : List Pkt) (s : State)
    (h : ∀ q, f q = true → s.items.countP (samePkt q) ≤ l.countP (samePkt q)) :
    ∀ p ∈ (s.each l fun p s => s.complete p stAborted code 0 0 []).items, f p = false := by
  induction l generalizing s with
  | nil =>
    intro p hp
    by_contra hf
    have hpos : 0 < s.items.countP (samePkt p) := List.countP_pos_iff.mpr ⟨p, hp, (samePkt_iff p p).2 rfl⟩
    have hz := h p (by simpa using hf)
    rw [List.countP_nil] at hz
    omega
  | cons a l ih =>
    refine ih _ fun q hq => ?_
    refine ((State.complete_items s a stAborted code 0 0 []).countP_le).trans ?_
    have hc := h q hq
    rw [List.countP_cons] at hc
    split at hc
    next ha =>
      rw [← samePkt_congr ha, countP_eraseP]
      omega
    next ha =>
      exact (List.eraseP_sublist.countP_le).trans hc

/-- No item of an aborted kind is left (R395, R397). -/
theorem State.abortItems_none (s : State) (code : Byte) {f : Pkt → Bool} (hf : ∀ p q, samePkt p q = true → f p = f q) :
    ∀ p ∈ (s.abortItems code f).items, f p = false := by
  refine State.items_each_complete _ s fun q hq => ?_
  rw [List.countP_filter]
  refine (List.countP_congr fun x _ => ?_).le
  simp only [Bool.and_eq_true]
  exact ⟨fun hx => ⟨hx, hf q x hx ▸ hq⟩, fun hx => hx.1⟩

theorem vget_map {α β : Type} {n : Nat} (g : α → β) (v : Vector α n) (i : Fin n) : (v.map g).get i = g (v.get i) :=
  Vector.getElem_map g i.2

theorem State.chan_of_apart {s u : State} (h : u.apart = s.apart) : u.chan = s.chan := by
  have e := congrArg State.chan h
  exact e
theorem State.clus_of_apart {s u : State} (h : u.apart = s.apart) : u.clus = s.clus := by
  have e := congrArg State.clus h
  exact e
theorem State.die_of_apart {s u : State} (h : u.apart = s.apart) : u.die = s.die := by
  have e := congrArg State.die h
  exact e
theorem State.items_of_calm {s u : State} (h : u.calm = s.calm) : u.items = s.items := by
  have e := congrArg State.items h
  exact e
theorem State.frozen_of_calm {s u : State} (h : u.calm = s.calm) (c : Ch) : (u.ch c).frozen = (s.ch c).frozen := by
  have hc := congrArg Channel.frozen (State.core_of_calm h c)
  exact hc
theorem State.cl_of_calm {s u : State} (h : u.calm = s.calm) (n : Cl) : (u.cl n).core = (s.cl n).core := by
  have hv : u.clus.map Cluster.core = s.clus.map Cluster.core := congrArg State.clus h
  simpa [State.cl, Vector.get] using congrArg (fun v => v.get n) hv
theorem State.thSt_of_calm {s u : State} (h : u.calm = s.calm) (t : Thr) : (u.th t).st = (s.th t).st := by
  have hv := congrArg (fun n => (n.thr.get t.k).st) (State.cl_of_calm h t.cl)
  simpa [Cluster.core, Thread.core, State.th, vget_map] using hv

/-! ### Freeze and halt -/

/-- Channel c in stimulus freeze, unless it is Off (R13). -/
def State.putFrozen (s : State) (c : Ch) : State :=
  if (s.ch c).st = .off then s else s.modCh c fun h => { h with frozen := true }

theorem State.freezeAt_calm (s : State) (c : Ch) (t : Nat) : (s.freezeAt c t).calm = (s.putFrozen c).calm := by
  unfold State.freezeAt State.putFrozen
  by_cases ho : (s.ch c).st = .off
  · simp [ho]
  · by_cases hf : (s.ch c).frozen
    · simp only [hf, Bool.true_or, if_true, if_neg ho]
      refine (State.modCh_calm ?_).symm
      rw [← hf]
    · simp [ho, hf]

/-- u holds every channel in the state that it has in s, frozen where it is so in s, and no thread runs or waits that does not in s. -/
structure State.Stiller (s u : State) : Prop where
  st : ∀ c, (u.ch c).st = (s.ch c).st
  frozen : ∀ c, (s.ch c).frozen = true → (u.ch c).frozen = true
  busy : ∀ t, (s.th t).busy = false → (u.th t).busy = false

theorem State.Stiller.refl (s : State) : s.Stiller s := ⟨fun _ => rfl, fun _ h => h, fun _ h => h⟩
theorem State.Stiller.trans {s u v : State} (h : s.Stiller u) (k : u.Stiller v) : s.Stiller v :=
  ⟨fun c => (k.st c).trans (h.st c), fun c hc => k.frozen c (h.frozen c hc), fun t ht => k.busy t (h.busy t ht)⟩

theorem State.stiller_of_calm {s u : State} (h : u.calm = s.calm) : s.Stiller u where
  st := State.st_of_calm h
  frozen c hc := (State.frozen_of_calm h c).trans hc
  busy t ht := by rwa [Thread.busy, State.thSt_of_calm h t]

theorem State.stiller_of_eq {s u : State} (hc : u.chan = s.chan) (hn : u.clus = s.clus) : s.Stiller u := by
  constructor <;> simp [State.ch, State.th, State.cl, hc, hn]

theorem State.stiller_each {α : Type} (l : List α) {f : α → State → State} (h : ∀ a (s : State), s.Stiller (f a s)) (s : State) :
    s.Stiller (s.each l f) := by
  induction l generalizing s with
  | nil => exact .refl s
  | cons a l ih => exact (h a s).trans (ih (f a s))

theorem State.stiller_putFrozen (s : State) (c : Ch) : s.Stiller (s.putFrozen c) := by
  unfold State.putFrozen
  split
  · exact .refl s
  · refine ⟨fun d => ?_, fun d hd => ?_, fun _ h => h⟩ <;> by_cases h : d = c
    · subst h; simp
    · rw [State.ch_modCh_ne _ _ h]
    · subst h; simp
    · rwa [State.ch_modCh_ne _ _ h]

theorem State.stiller_freezeAt (s : State) (c : Ch) (t : Nat) : s.Stiller (s.freezeAt c t) :=
  (State.stiller_putFrozen s c).trans (State.stiller_of_calm (State.freezeAt_calm s c t))

theorem State.frozen_freezeAt (s : State) (c : Ch) (t : Nat) (h : ((s.freezeAt c t).ch c).st ≠ .off) :
    ((s.freezeAt c t).ch c).frozen = true := by
  have hs : (s.ch c).st ≠ .off := fun e => h (((State.stiller_freezeAt s c t).st c).trans e)
  rw [State.frozen_of_calm (State.freezeAt_calm s c t), State.putFrozen, if_neg hs, State.ch_modCh_self]

@[simp] theorem State.putFrozen_items (s : State) (c : Ch) : (s.putFrozen c).items = s.items := by
  simp [State.putFrozen, apply_ite State.items]
@[simp] theorem State.putFrozen_die (s : State) (c : Ch) : (s.putFrozen c).die = s.die := by
  simp [State.putFrozen, apply_ite State.die]
@[simp] theorem State.freezeAt_items (s : State) (c : Ch) (t : Nat) : (s.freezeAt c t).items = s.items :=
  (State.items_of_calm (State.freezeAt_calm s c t)).trans (State.putFrozen_items s c)
@[simp] theorem State.freezeAt_die (s : State) (c : Ch) (t : Nat) : (s.freezeAt c t).die = s.die :=
  (State.die_of_calm (State.freezeAt_calm s c t)).trans (State.putFrozen_die s c)

@[simp] theorem State.dropWait_calm (s : State) (t : Thr) : (s.dropWait t).calm = s.calm := by
  unfold State.dropWait
  refine (State.modTh_calm rfl).trans ?_
  (repeat' split) <;> simp

/-- Thread t halted. -/
def State.putHalted (s : State) (t : Thr) (cause : Byte) (tf : Nat) : State :=
  (s.dropWait t).modTh t fun h => { h with st := .halted, cause := cause, tfTick := wd tf }

theorem State.halt_eq (s : State) (t : Thr) (cause : Byte) (tf : Nat) : s.halt t cause tf =
    match thCh t with
    | some c => (s.putHalted t cause tf).freezeAt c tf
    | none => s.putHalted t cause tf := rfl

theorem State.stiller_putHalted (s : State) (t : Thr) (cause : Byte) (tf : Nat) : s.Stiller (s.putHalted t cause tf) := by
  refine (State.stiller_of_calm (State.dropWait_calm s t)).trans ⟨fun _ => rfl, fun _ h => h, fun u hu => ?_⟩
  unfold State.putHalted
  by_cases h : u = t
  · subst h
    simp [Thread.busy]
  · rwa [State.th_modTh_ne _ _ h]

theorem State.stiller_halt (s : State) (t : Thr) (cause : Byte) (tf : Nat) : s.Stiller (s.halt t cause tf) := by
  rw [State.halt_eq]
  split
  · exact (State.stiller_putHalted ..).trans (State.stiller_freezeAt ..)
  · exact State.stiller_putHalted ..

theorem State.busy_halt (s : State) (t : Thr) (cause : Byte) (tf : Nat) : ((s.halt t cause tf).th t).busy = false := by
  have halted : ((s.putHalted t cause tf).th t).busy = false := by simp [State.putHalted, Thread.busy]
  rw [State.halt_eq]
  split
  · exact (State.stiller_freezeAt ..).busy t halted
  · exact halted

@[simp] theorem State.halt_items (s : State) (t : Thr) (cause : Byte) (tf : Nat) : (s.halt t cause tf).items = s.items := by
  have h : (s.putHalted t cause tf).items = s.items := (State.items_of_calm (State.dropWait_calm s t) :)
  rw [State.halt_eq]
  split <;> simp [h]
@[simp] theorem State.halt_die (s : State) (t : Thr) (cause : Byte) (tf : Nat) : (s.halt t cause tf).die = s.die := by
  have h : (s.putHalted t cause tf).die = s.die := (State.die_of_calm (State.dropWait_calm s t) :)
  rw [State.halt_eq]
  split <;> simp [h]

/-- What each operation brings about for its own element, and no later one undoes. -/
theorem State.each_all {α : Type} (P : α → State → Prop) (l : List α) {f : α → State → State} (hit : ∀ a s, P a (f a s))
    (keep : ∀ a b s, P a s → P a (f b s)) (s : State) : ∀ a ∈ l, P a (s.each l f) := by
  induction l generalizing s with
  | nil => intro a ha; cases ha
  | cons b l ih =>
    intro a ha
    rcases List.mem_cons.1 ha with rfl | ha
    · show P a (State.each (f a s) l f)
      have : ∀ (l : List α) (u : State), P a u → P a (u.each l f) := fun l => by
        induction l with
        | nil => exact fun _ h => h
        | cons b l ih => exact fun u h => ih _ (keep a b u h)
      exact this l _ (hit a s)
    · exact ih (f b s) a ha

/-- Thread t halts if it runs or waits. -/
def State.haltBusy (s : State) (t : Thr) (cause : Byte) : State :=
  if (s.th t).busy then s.halt t cause (s.issueTick t (s.thNow t)) else s

theorem State.stiller_haltBusy (s : State) (t : Thr) (cause : Byte) : s.Stiller (s.haltBusy t cause) := by
  unfold State.haltBusy
  split
  · exact State.stiller_halt ..
  · exact .refl s

theorem State.busy_haltBusy (s : State) (t : Thr) (cause : Byte) : ((s.haltBusy t cause).th t).busy = false := by
  unfold State.haltBusy
  split
  · exact State.busy_halt ..
  next h => simpa using h

@[simp] theorem State.haltBusy_items (s : State) (t : Thr) (cause : Byte) : (s.haltBusy t cause).items = s.items := by
  simp [State.haltBusy, apply_ite State.items]
@[simp] theorem State.haltBusy_die (s : State) (t : Thr) (cause : Byte) : (s.haltBusy t cause).die = s.die := by
  simp [State.haltBusy, apply_ite State.die]

/-- The threads of cluster n halt. -/
def State.haltCl (s : State) (n : Cl) (cause : Byte) : State := s.each (thrsOf n) fun t s => s.haltBusy t cause

theorem State.stiller_haltCl (s : State) (n : Cl) (cause : Byte) : s.Stiller (s.haltCl n cause) :=
  State.stiller_each _ (fun t s => State.stiller_haltBusy s t cause) s

theorem mem_thrsOf (t : Thr) : t ∈ thrsOf t.cl := List.mem_map.2 ⟨t.k, List.mem_finRange _, rfl⟩

theorem State.busy_haltCl (s : State) (t : Thr) (cause : Byte) : ((s.haltCl t.cl cause).th t).busy = false :=
  State.each_all (fun t s => (State.th s t).busy = false) _ (fun t s => State.busy_haltBusy s t cause)
    (fun t u s h => (State.stiller_haltBusy s u cause).busy t h) s t (mem_thrsOf t)

@[simp] theorem State.haltCl_items (s : State) (n : Cl) (cause : Byte) : (s.haltCl n cause).items = s.items :=
  State.each_frame State.items _ (by simp) s
@[simp] theorem State.haltCl_die (s : State) (n : Cl) (cause : Byte) : (s.haltCl n cause).die = s.die :=
  State.each_frame State.die _ (by simp) s

theorem mem_clsOfDie : ∀ (d : Die) (n : Cl), dieOfCl n = d → n ∈ clsOfDie d := by decide

theorem State.haltDie_eq (s : State) (d : Die) : s.haltDie d = s.each (clsOfDie d) fun n s => s.haltCl n causeDieHalt := by
  simp only [State.haltDie, State.haltCl, State.haltBusy]

theorem State.stiller_haltDie (s : State) (d : Die) : s.Stiller (s.haltDie d) := by
  rw [State.haltDie_eq]
  exact State.stiller_each _ (fun n s => State.stiller_haltCl s n _) s

theorem State.busy_haltDie (s : State) (d : Die) (t : Thr) (h : dieOfCl t.cl = d) : ((s.haltDie d).th t).busy = false := by
  rw [State.haltDie_eq]
  refine State.each_all (fun n s => ∀ t : Thr, t.cl = n → (State.th s t).busy = false) _ (fun n s t ht => ?_)
    (fun n m s hs t ht => (State.stiller_haltCl s m _).busy t (hs t ht)) s t.cl (mem_clsOfDie d _ h) t rfl
  subst ht
  exact State.busy_haltCl s t _

@[simp] theorem State.haltDie_items (s : State) (d : Die) : (s.haltDie d).items = s.items := by
  rw [State.haltDie_eq]
  exact State.each_frame State.items _ (by simp) s
@[simp] theorem State.haltDie_die (s : State) (d : Die) : (s.haltDie d).die = s.die := by
  rw [State.haltDie_eq]
  exact State.each_frame State.die _ (by simp) s

/-! ### The groups that a die keeps (R415) -/

/-- The group that each source keeps while its die's link is down. -/
def State.grps (s : State) : Vector (Option Fold) 1024 := s.ev.map EvSource.grp

@[simp] theorem State.ite_grps (p : Prop) [Decidable p] (s u : State) : (if p then s else u).grps = if p then s.grps else u.grps :=
  apply_ite ..

theorem State.modEv_grps (s : State) (n : Src) (f : EvSource → EvSource) (h : ∀ e, (f e).grp = e.grp) : (s.modEv n f).grps = s.grps :=
  vmap_set_of EvSource.grp s.ev n _ (h _)

@[simp] theorem State.msix_grps (s : State) (v : Nat) : (s.msix v).grps = s.grps := by
  unfold State.msix
  split <;> rfl

theorem State.writeOut_ev (s : State) (o : OutPkt) : (s.writeOut o).ev = s.ev := by
  simp [State.writeOut, State.unjournal, State.msix, apply_ite State.ev, State.setRing]

@[simp] theorem State.writeEv_grps (s : State) (n : Src) (h : HeldEv) : (s.writeEv n h).grps = s.grps := by
  have w : (s.writeOut (s.evPkt n h)).grps = s.grps := congrArg (Vector.map EvSource.grp) (State.writeOut_ev ..)
  have hw (u : State) (k : Hub) : { u with hub := k }.grps = u.grps := rfl
  have hs (u : State) (q : Vector Nat 64) : { u with evSeq := q }.grps = u.grps := rfl
  have hl (u : State) (q : Nat) : { u with evLost := q }.grps = u.grps := rfl
  have hold : (s.modEv n fun e => { e with held := e.held ++ [h] }).grps = s.grps := State.modEv_grps s n _ fun _ => rfl
  simp only [State.writeEv, State.ite_grps, hl, hw, hs, State.msix_grps, w, hold, ite_self]

@[simp] theorem State.sendEv_grps (s : State) (n : Src) (f : Fold) (coal msi : Bool) : (s.sendEv n f coal msi).grps = s.grps := by
  have w : (s.each (s.evDest n) fun d u =>
      u.writeEv n { ctx := d.1, ring := d.2, fold := f, coal := coal, msi := msi && d.1 == s.srcOwner n }).grps = s.grps :=
    State.each_frame State.grps _ (fun _ _ => State.writeEv_grps ..) s
  unfold State.sendEv
  dsimp only
  split
  · rw [State.modEv_grps _ _ _ (by intro; rfl)]
    exact w
  · exact w

@[simp] theorem State.endWindow_grps (s : State) (n : Src) : (s.endWindow n).grps = s.grps := by
  have w : (s.modEv n fun e => { e with win := none, fold := none }).grps = s.grps := State.modEv_grps s n _ fun _ => rfl
  unfold State.endWindow
  dsimp only
  split
  · split
    · exact (State.sendEv_grps ..).trans w
    · exact w
  · exact w

@[simp] theorem State.foldHeld_grps (s : State) (n : Src) (x : Ev) : (s.foldHeld n x).grps = s.grps :=
  State.modEv_grps s n _ fun _ => rfl

@[simp] theorem State.packEv_grps (s : State) (n : Src) (x : Ev) (msi : Bool) : (s.packEv n x msi).grps = s.grps := by
  simp only [State.packEv]
  (repeat' split) <;> simp [State.modEv_grps]

@[simp] theorem State.deliver_grps (s : State) (n : Src) (x : Ev) : (s.deliver n x).grps = s.grps := by
  simp [State.deliver, State.modEv_grps]

theorem srcDie_eq_none {n : Src} (h : 912 ≤ n.1) : srcDie n = none := by
  unfold srcDie
  rw [dif_neg (by omega), dif_neg (by omega), dif_neg (by omega)]

/-- An event of a source that no die owns. -/
theorem State.raiseHub_grps (s : State) (h : Fin 112) (d : Word) : (s.raiseHub h d).grps = s.grps := by
  have hn : srcDie (hubSrc h) = none := srcDie_eq_none (Nat.le_add_right 912 h.1)
  simp [State.raiseHub, State.raise, State.raiseAt, hn]

@[simp] theorem State.settle_grps (s : State) : s.settle.grps = s.grps := by
  have set (p : PState) : (s.setPState p).grps = s.grps := by
    unfold State.setPState
    dsimp only
    split
    · rfl
    · exact State.raiseHub_grps ..
  unfold State.settle
  split <;> simp [set]

/-- The group of a source is delivered and kept no more. -/
theorem State.deliverGroup_grps (s : State) (n : Src) : (s.deliverGroup n).grps = s.grps.set n.1 none n.2 := by
  have gone : (s.modEv n fun e => { e with grp := none }).grps = s.grps.set n.1 none n.2 := Vector.map_set ..
  have more (u : State) (k : Nat) : (u.modEv n fun e => { e with occ := satAdd 0xFFFF e.occ k, pend := true }).grps = u.grps :=
    State.modEv_grps u n _ fun _ => rfl
  unfold State.deliverGroup
  split
  next h =>
    have h : s.grps.get n = none := (vget_map EvSource.grp s.ev n).trans h
    rw [← h, vset_get]
  · dsimp only
    (repeat' split) <;> simp only [State.deliver_grps, State.sendEv_grps, State.msix_grps, more, gone]

/-- Every source of a list has its group delivered. -/
theorem State.deliverGroups_grps (l : List Src) (s : State) : ∀ n ∈ l, (s.each l fun n s => s.deliverGroup n).grps.get n = none :=
  State.each_all (fun n s => (State.grps s).get n = none) l
    (fun n s => by rw [State.deliverGroup_grps, vget_set, if_pos rfl])
    (fun n m s h => by
      rw [State.deliverGroup_grps, vget_set]
      split
      · rfl
      · exact h) s

theorem onDie_congr (d : Die) (p q : Pkt) (h : samePkt p q = true) : onDie d p = onDie d q := by
  have e : p.hdr = q.hdr := congrArg (·.2.2) ((samePkt_iff p q).1 h)
  simp [onDie, e]

theorem onCluster_congr (n : Cl) (p q : Pkt) (h : samePkt p q = true) : onCluster n p = onCluster n q := by
  have e : p.hdr = q.hdr := congrArg (·.2.2) ((samePkt_iff p q).1 h)
  simp [onCluster, e]

/-- A powered channel of c is in stimulus freeze. -/
def State.still (s : State) (c : Ch) : Prop := (s.ch c).st ≠ .off → (s.ch c).frozen = true

theorem State.Stiller.still {s u : State} (h : s.Stiller u) {c : Ch} (hc : s.still c) : u.still c :=
  fun ho => h.frozen c (hc (h.st c ▸ ho))

theorem State.still_freeze (s : State) (c : Ch) : (s.freeze c).still c := State.frozen_freezeAt s c _

theorem State.stiller_freeze (s : State) (c : Ch) : s.Stiller (s.freeze c) := State.stiller_freezeAt s c _

@[simp] theorem State.freeze_items (s : State) (c : Ch) : (s.freeze c).items = s.items := State.freezeAt_items ..
@[simp] theorem State.freeze_die (s : State) (c : Ch) : (s.freeze c).die = s.die := State.freezeAt_die ..

theorem State.stiller_modCl (s : State) (n : Cl) (f : Cluster → Cluster) (h : ∀ x, (f x).thr = x.thr) : s.Stiller (s.modCl n f) := by
  refine ⟨fun _ => rfl, fun _ h => h, fun t ht => ?_⟩
  unfold State.th
  by_cases e : t.cl = n
  · subst e
    rwa [State.cl_modCl_self, h]
  · rwa [State.cl_modCl_ne _ _ e]

theorem State.stiller_abortItems (s : State) (code : Byte) (f : Pkt → Bool) : s.Stiller (s.abortItems code f) :=
  State.stiller_of_eq (State.chan_of_apart (State.abortItems_apart ..)) (State.clus_of_apart (State.abortItems_apart ..))

theorem mem_chsOfRg (c : Ch) : c ∈ chsOfRg (rgOf c) :=
  List.mem_map.2 ⟨⟨c.1 % 16, by omega⟩, List.mem_finRange _, Fin.ext (by simp only [rgOf]; omega)⟩

theorem mem_rgsOfDie : ∀ r : Rg, r ∈ rgsOfDie (dieOfRg r) := by decide

theorem mem_chsOfDie {d : Die} {c : Ch} (h : dieOfCh c = d) : c ∈ chsOfDie d :=
  List.mem_flatMap.2 ⟨rgOf c, h ▸ mem_rgsOfDie (rgOf c), mem_chsOfRg c⟩

theorem mem_chsOfCl (c : Ch) : c ∈ chsOfCl (clOf c) :=
  List.mem_map.2 ⟨⟨c.1 % 8, by omega⟩, List.mem_finRange _, Fin.ext (by simp only [clOf, chOf]; omega)⟩

/-- What a die that is lost leaves: its threads halted, its powered channels frozen, and no item on it. -/
def State.dieOut (u : State) (d : Die) : Prop :=
  u.halted (fun t => dieOfCl t.cl = d) (fun c => dieOfCh c = d) ∧ ∀ p ∈ u.items, onDie d p = false

/-- The items in a cluster's intake are dropped. -/
def State.dropIntake (s : State) (n : Cl) : State := s.modCl n fun k => { k with intake := 0 }

@[simp] theorem State.dropIntake_items (s : State) (n : Cl) : (s.dropIntake n).items = s.items := rfl
@[simp] theorem State.dropIntake_die (s : State) (n : Cl) : (s.dropIntake n).die = s.die := rfl
theorem State.stiller_dropIntake (s : State) (n : Cl) : s.Stiller (s.dropIntake n) := State.stiller_modCl s n _ fun _ => rfl

@[simp] theorem State.cutReceived_items (s : State) (c : Ch) : (s.cutReceived c).items = s.items :=
  State.items_of_calm (State.cutReceived_calm ..)
@[simp] theorem State.cutReceived_die (s : State) (c : Ch) : (s.cutReceived c).die = s.die :=
  State.die_of_calm (State.cutReceived_calm ..)
@[simp] theorem State.closeWins_items (s : State) (c : Ch) : (s.closeWins c).items = s.items :=
  State.items_of_calm (State.closeWins_calm ..)
@[simp] theorem State.closeWins_die (s : State) (c : Ch) : (s.closeWins c).die = s.die :=
  State.die_of_calm (State.closeWins_calm ..)
theorem State.stiller_closeWins (s : State) (c : Ch) : s.Stiller (s.closeWins c) := State.stiller_of_calm (State.closeWins_calm s c)
@[simp] theorem State.raiseHub_items (s : State) (h : Fin 112) (d : Word) : (s.raiseHub h d).items = s.items :=
  State.items_of_calm (State.raiseHub_calm ..)
@[simp] theorem State.raiseHub_die (s : State) (h : Fin 112) (d : Word) : (s.raiseHub h d).die = s.die :=
  State.die_of_calm (State.raiseHub_calm ..)
@[simp] theorem State.abortItems_die (s : State) (code : Byte) (f : Pkt → Bool) : (s.abortItems code f).die = s.die :=
  State.die_of_apart (State.abortItems_apart ..)

/-- The package's loss of a die's link (R29, R31, R395); x is the detail of the event. -/
def State.linkDown (s : State) (d : Die) (x : Word) : State :=
  let s := ((s.modDie d fun x => { x with linkUp := false, replay := false }).abortItems 0x60 (onDie d)).raiseHub (if d = 0 then 0 else 1) x
  let s := (s.each (chsOfDie d) fun c s => s.cutReceived c).each (chsOfDie d) fun c s => s.freeze c
  (s.haltDie d).each (clsOfDie d) fun n s => s.dropIntake n

/-- A die's loss of its core clock (R395, R181). -/
def State.clockDown (s : State) (d : Die) (x : Word) : State :=
  ((((s.each (chsOfDie d) fun c s => (s.freeze c).closeWins c).haltDie d).abortItems 0x61 (onDie d)).raiseHub
    (if d = 0 then 2 else 3) x).modDie d fun x => { x with clkOk := false }

theorem State.linkDown_die (s : State) (d : Die) (x : Word) :
    (s.linkDown d x).die.get d = { s.die.get d with linkUp := false, replay := false } := by
  have e : (s.linkDown d x).die = (s.modDie d fun x => { x with linkUp := false, replay := false }).die := by
    simp only [State.linkDown]
    rw [State.each_frame State.die _ (by simp), State.haltDie_die, State.each_frame State.die _ (by simp),
      State.each_frame State.die _ (by simp), State.raiseHub_die, State.abortItems_die]
  rw [e]
  exact (vget_set ..).trans (if_pos rfl)

theorem State.linkDown_dieOut (s : State) (d : Die) (x : Word) : (s.linkDown d x).dieOut d := by
  have drop (u : State) : u.Stiller (u.each (clsOfDie d) fun n s => s.dropIntake n) :=
    State.stiller_each _ (fun n s => State.stiller_dropIntake s n) u
  unfold State.linkDown
  refine ⟨⟨fun t ht => ?_, fun c hc => ?_⟩, ?_⟩
  · exact (drop _).busy t (State.busy_haltDie _ d t ht)
  · refine ((State.stiller_haltDie _ d).trans (drop _)).still ?_
    exact State.each_all (fun c s => State.still s c) _ (fun c s => State.still_freeze s c)
      (fun c e s h => (State.stiller_freeze s e).still h) _ c (mem_chsOfDie hc)
  · dsimp only
    rw [State.each_frame State.items _ (by simp), State.haltDie_items, State.each_frame State.items _ (by simp),
      State.each_frame State.items _ (by simp), State.raiseHub_items]
    exact State.abortItems_none _ _ (onDie_congr d)

theorem State.clockDown_die (s : State) (d : Die) (x : Word) :
    (s.clockDown d x).die.get d = { s.die.get d with clkOk := false } := by
  refine (vget_set ..).trans ((if_pos rfl).trans ?_)
  rw [State.raiseHub_die, State.abortItems_die, State.haltDie_die, State.each_frame State.die _ (by simp)]

theorem State.clockDown_dieOut (s : State) (d : Die) (x : Word) : (s.clockDown d x).dieOut d := by
  have rest (u : State) : u.Stiller (((u.abortItems 0x61 (onDie d)).raiseHub (if d = 0 then 2 else 3) x).modDie d fun x =>
      { x with clkOk := false }) :=
    ((State.stiller_abortItems u _ _).trans (State.stiller_of_calm (State.raiseHub_calm ..))).trans (State.stiller_of_eq rfl rfl)
  unfold State.clockDown
  refine ⟨⟨fun t ht => ?_, fun c hc => ?_⟩, ?_⟩
  · exact (rest _).busy t (State.busy_haltDie _ d t ht)
  · refine ((State.stiller_haltDie _ d).trans (rest _)).still ?_
    exact State.each_all (fun c s => State.still s c) _ (fun c s => (State.stiller_closeWins _ c).still (State.still_freeze s c))
      (fun c e s h => ((State.stiller_freeze s e).trans (State.stiller_closeWins _ e)).still h) _ c (mem_chsOfDie hc)
  · show ∀ p ∈ (State.raiseHub _ _ _).items, _
    rw [State.raiseHub_items]
    exact State.abortItems_none _ _ (onDie_congr d)

/-- What a cluster that faults leaves. -/
def State.clOut (u : State) (n : Cl) : Prop :=
  u.halted (fun t => t.cl = n) (fun c => clOf c = n) ∧ (u.cl n).intake = 0 ∧ ∀ p ∈ u.items, onCluster n p = false

theorem State.clusterFault_eq (s : State) (n : Cl) (cause : Byte) : s.clusterFault n cause =
    (((((s.each (chsOfCl n) fun c s => s.freeze c).haltCl n causeClusterHalt).dropIntake n).abortItems 0x62 (onCluster n)).raise
      (clSrc n 0) 0x100 (cause.setWidth 32)) := by
  simp only [State.clusterFault, State.haltCl, State.haltBusy, State.dropIntake]

theorem State.clusterFault_clOut (s : State) (n : Cl) (cause : Byte) : (s.clusterFault n cause).clOut n := by
  have rest (u : State) : u.Stiller ((u.abortItems 0x62 (onCluster n)).raise (clSrc n 0) 0x100 (cause.setWidth 32)) :=
    (State.stiller_abortItems u _ _).trans (State.stiller_of_calm (State.raise_calm ..))
  have clus (u : State) : ((u.abortItems 0x62 (onCluster n)).raise (clSrc n 0) 0x100 (cause.setWidth 32)).clus = u.clus :=
    (State.clus_of_bare (State.bare_raise ..)).trans (State.clus_of_apart (State.abortItems_apart ..))
  rw [State.clusterFault_eq]
  refine ⟨⟨fun t ht => ?_, fun c hc => ?_⟩, ?_, ?_⟩
  · subst ht
    exact ((State.stiller_dropIntake _ _).trans (rest _)).busy t (State.busy_haltCl _ t _)
  · subst hc
    refine (((State.stiller_haltCl _ _ _).trans (State.stiller_dropIntake _ _)).trans (rest _)).still ?_
    exact State.each_all (fun c s => State.still s c) _ (fun c s => State.still_freeze s c)
      (fun c e s h => (State.stiller_freeze s e).still h) _ c (mem_chsOfCl c)
  · unfold State.cl
    rw [clus]
    exact congrArg Cluster.intake ((vget_set ..).trans (if_pos rfl))
  · rw [State.items_of_calm (State.raise_calm ..)]
    exact State.abortItems_none _ _ (onCluster_congr n)

/-! ### The tick check (R27) -/

theorem mem_pedInsert (p e : PedEv) (l : List PedEv) : e ∈ pedInsert p l ↔ e = p ∨ e ∈ l := by
  induction l with
  | nil => simp [pedInsert]
  | cons q l ih =>
    unfold pedInsert
    split
    · simp
    · rw [List.mem_cons, ih, List.mem_cons]
      tauto

theorem State.ped_of_bare {s u : State} (h : u.bare = s.bare) : u.ped = s.ped := by
  have e := congrArg State.ped h
  exact e

@[simp] theorem State.realign_ped (s : State) (d : Die) : (s.realign d).ped = s.ped :=
  State.realign_frame State.ped (fun _ _ _ => rfl) (fun _ _ _ => rfl) (fun _ _ _ => rfl) (fun _ _ => rfl) s d

/-- The Pedigree entry of a die that realigns, and the event. -/
def State.tellRealign (s : State) (d : Die) (body : List Byte) : State :=
  ((s.pedQueue 0x11 0 body .none).latchAll 29).raiseHub 4 (wd d.1)

theorem State.checkDie_eq (s : State) (d : Die) : ∃ body, s.checkDie d =
    if (s.die.get d).clkOk = true ∧ s.dt d ≠ s.tick then (s.realign d).tellRealign d body else s := by
  refine ⟨leBytes 8 d.1 ++ leBytes 8 (s.dt d) ++ leBytes 8 (s.realign d).tick
    ++ chMask fun c => dieOfCh c == d && (s.ch c).cap.cur.isSome, ?_⟩
  unfold State.checkDie State.tellRealign
  simp only [Bool.and_eq_true, bne_iff_ne]

@[simp] theorem State.tellRealign_tick (s : State) (d : Die) (body : List Byte) : (s.tellRealign d body).tick = s.tick := by
  simp [State.tellRealign, State.pedQueue, State.pedQueueAt]
@[simp] theorem State.tellRealign_dieTick (s : State) (d : Die) (body : List Byte) : (s.tellRealign d body).dieTick = s.dieTick := by
  simp [State.tellRealign, State.pedQueue, State.pedQueueAt]
@[simp] theorem State.tellRealign_die (s : State) (d : Die) (body : List Byte) : (s.tellRealign d body).die = s.die := by
  refine State.die_of_calm ?_
  simp [State.tellRealign]
theorem State.latchAll_ped (s : State) (b : Nat) : (s.latchAll b).ped = s.ped := by
  unfold State.latchAll
  refine State.each_frame State.ped _ (fun n s => ?_) s
  split
  · exact State.each_frame State.ped _ (f := fun t s => s.latchEvtAt t b _) (fun _ _ => rfl) s
  · rfl

/-- The entry waits for its place in the chain, behind no other that is lost (R457). -/
theorem State.mem_tellRealign (s : State) (d : Die) (body : List Byte) :
    (∃ e ∈ (s.tellRealign d body).ped.wait, e.kind = 0x11 ∧ e.tick = s.tick)
      ∧ ∀ e ∈ s.ped.wait, e ∈ (s.tellRealign d body).ped.wait := by
  have hp : (s.tellRealign d body).ped = (s.pedQueue 0x11 0 body .none).ped :=
    (State.ped_of_bare (State.bare_raiseHub ..)).trans (State.latchAll_ped ..)
  rw [hp]
  simp only [State.pedQueue, State.pedQueueAt, mem_pedInsert]
  exact ⟨⟨_, .inl rfl, rfl, rfl⟩, fun e he => .inr he⟩

/-- Die d has its clock and a count of its own. -/
def State.offCount (s : State) (d : Die) : Prop := (s.die.get d).clkOk = true ∧ s.dt d ≠ s.tick

theorem State.checkDie_of_not (s : State) (d : Die) (h : ¬ s.offCount d) : s.checkDie d = s := by
  obtain ⟨body, e⟩ := State.checkDie_eq s d
  exact e.trans (if_neg h)

theorem State.checkDie_of (s : State) (d : Die) (h : s.offCount d) : ∃ body, s.checkDie d = (s.realign d).tellRealign d body := by
  obtain ⟨body, e⟩ := State.checkDie_eq s d
  exact ⟨body, e.trans (if_pos h)⟩

@[simp] theorem State.checkDie_tick (s : State) (d : Die) : (s.checkDie d).tick = s.tick := by
  obtain ⟨body, e⟩ := State.checkDie_eq s d
  simp [e]

@[simp] theorem State.checkDie_die (s : State) (d : Die) : (s.checkDie d).die = s.die := by
  obtain ⟨body, e⟩ := State.checkDie_eq s d
  simp [e, apply_ite State.die]

theorem State.checkDie_dt (s : State) (d e : Die) :
    (s.checkDie d).dt e = if e = d ∧ (s.die.get d).clkOk = true then s.tick else s.dt e := by
  by_cases h : s.offCount d
  · obtain ⟨body, hb⟩ := State.checkDie_of s d h
    rw [hb, State.dt, State.tellRealign_dieTick]
    refine (State.realign_dt s d e).trans ?_
    simp [h.1]
  · rw [State.checkDie_of_not s d h]
    split
    next he =>
      obtain ⟨rfl, hk⟩ := he
      by_contra hn
      exact h ⟨hk, hn⟩
    · rfl

theorem State.checkDie_wait (s : State) (d : Die) : ∀ e ∈ s.ped.wait, e ∈ (s.checkDie d).ped.wait := by
  intro e he
  by_cases h : s.offCount d
  · obtain ⟨body, hb⟩ := State.checkDie_of s d h
    rw [hb]
    exact (State.mem_tellRealign _ d body).2 e (by rwa [State.realign_ped])
  · rwa [State.checkDie_of_not s d h]

theorem State.checkDie_entry (s : State) (d : Die) (h : s.offCount d) :
    ∃ e ∈ (s.checkDie d).ped.wait, e.kind = 0x11 ∧ e.tick = s.tick := by
  obtain ⟨body, hb⟩ := State.checkDie_of s d h
  rw [hb]
  obtain ⟨e, he, hk, ht⟩ := (State.mem_tellRealign (s.realign d) d body).1
  exact ⟨e, he, hk, ht.trans (State.realign_tick s d)⟩

/-- Both dies checked. -/
theorem State.checkDies_dt (s : State) (d : Die) (h : (s.die.get d).clkOk = true) : ((s.checkDie 0).checkDie 1).dt d = s.tick := by
  simp only [State.checkDie_dt, State.checkDie_tick, State.checkDie_die]
  match d, h with
  | 0, h => simp [h]
  | 1, h => simp [h]

theorem State.checkDies_entry (s : State) (d : Die) (h : s.offCount d) :
    ∃ e ∈ ((s.checkDie 0).checkDie 1).ped.wait, e.kind = 0x11 ∧ e.tick = s.tick := by
  match d, h with
  | 0, h =>
    obtain ⟨e, he, hx⟩ := State.checkDie_entry s 0 h
    exact ⟨e, State.checkDie_wait _ 1 e he, hx⟩
  | 1, h =>
    have h1 : (s.checkDie 0).offCount 1 := by simpa [State.offCount, State.checkDie_dt] using h
    simpa using State.checkDie_entry _ 1 h1

/-! ### The rows -/

/-- An entry per key: each key's last writer is its only one. -/
theorem State.each_all_keys {α κ : Type} (key : α → κ) (P : α → State → Prop) {f : α → State → State} (hit : ∀ a s, P a (f a s))
    (keep : ∀ a b s, key b ≠ key a → P a s → P a (f b s)) (l : List α) (h : (l.map key).Nodup) (s : State) :
    ∀ a ∈ l, P a (s.each l f) := by
  induction l generalizing s with
  | nil => intro a ha; cases ha
  | cons b l ih =>
    rw [List.map_cons, List.nodup_cons] at h
    intro a ha
    rcases List.mem_cons.1 ha with rfl | ha
    · have stay : ∀ (l : List α) (u : State), key a ∉ l.map key → P a u → P a (u.each l f) := fun l => by
        induction l with
        | nil => exact fun _ _ h => h
        | cons b l ih =>
          intro u hn hu
          rw [List.map_cons, List.mem_cons, not_or] at hn
          exact ih _ hn.2 (keep a b u (Ne.symm hn.1) hu)
      exact stay l _ h.1 (hit a s)
    · exact ih h.2 (f b s) a ha

/-- The issue phase of a cluster is fixed (R245). -/
def State.setPhase (s : State) (p : Cl × Fin 9) : State := s.modCl p.1 fun k => { k with phase := p.2 }

theorem State.setPhase_die (p : Cl × Fin 9) (s : State) : (s.setPhase p).die = s.die := rfl
theorem State.setPhase_tick (p : Cl × Fin 9) (s : State) : (s.setPhase p).tick = s.tick := rfl
theorem State.setPhase_dieTick (p : Cl × Fin 9) (s : State) : (s.setPhase p).dieTick = s.dieTick := rfl

/-- The core clock of a die locks: it counts as the hub does, and its clusters take their phases (R27, R245). -/
def State.pllLock (s : State) (d : Die) (phases : List (Fin 9)) : State :=
  ((s.modDie d fun x => { x with clkOk := true }).realign d).each ((clsOfDie d).zip phases) fun p s => s.setPhase p

theorem nodup_clsOfDie : ∀ d, (clsOfDie d).Nodup := by decide

theorem State.pllLock_phase (s : State) (d : Die) (phases : List (Fin 9)) :
    ∀ p ∈ (clsOfDie d).zip phases, ((s.pllLock d phases).cl p.1).phase = p.2 := by
  refine State.each_all_keys Prod.fst (fun p s => (State.cl s p.1).phase = p.2) (fun p s => ?_) (fun p q s hn h => ?_) _ ?_ _
  · rw [State.setPhase, State.cl_modCl_self]
  · rwa [State.setPhase, State.cl_modCl_ne _ _ (Ne.symm hn)]
  · rw [List.zip_eq_zip_take_min, List.map_fst_zip (by simp)]
    exact (nodup_clsOfDie d).sublist (List.take_sublist ..)

theorem State.pllLock_die (s : State) (d : Die) (phases : List (Fin 9)) :
    (s.pllLock d phases).die.get d = { s.die.get d with clkOk := true } := by
  unfold State.pllLock
  rw [State.each_frame State.die _ State.setPhase_die, State.realign_die]
  exact (vget_set ..).trans (if_pos rfl)

theorem State.pllLock_dt (s : State) (d : Die) (phases : List (Fin 9)) : (s.pllLock d phases).dt d = (s.pllLock d phases).tick := by
  unfold State.dt State.pllLock
  rw [State.each_frame State.dieTick _ State.setPhase_dieTick, State.each_frame State.tick _ State.setPhase_tick, State.realign_tick]
  exact (State.realign_dt _ d d).trans (if_pos rfl)

/-- A die's link is back: the groups of its sources are delivered (R415). -/
def State.linkBack (s : State) (d : Die) : State :=
  (s.modDie d fun x => { x with linkUp := true }).each ((List.finRange 1024).filter fun n => srcDie n == some d) fun n s =>
    s.deliverGroup n

theorem State.linkBack_bare (s : State) (d : Die) : (s.linkBack d).bare = (s.modDie d fun x => { x with linkUp := true }).bare := by
  refine State.bare_each _ _ (fun n s => ?_) _
  unfold State.deliverGroup
  split
  · rfl
  · dsimp only
    (repeat' split) <;> simp

theorem State.linkBack_grp (s : State) (d : Die) (n : Src) (h : srcDie n = some d) : (s.linkBack d).grps.get n = none :=
  State.deliverGroups_grps _ _ n (List.mem_filter.2 ⟨List.mem_finRange n, by simp [h]⟩)

/-! Time that passes and the power state that follows -/

theorem State.dieOut_settle {u : State} {d : Die} (h : u.dieOut d) : u.settle.dieOut d := by
  have k : u.Stiller u.settle := State.stiller_of_calm (State.settle_calm u)
  refine ⟨⟨fun t ht => k.busy t (h.1.1 t ht), fun c hc => k.still (h.1.2 c hc)⟩, ?_⟩
  rw [State.items_of_calm (State.settle_calm u)]
  exact h.2

theorem State.clOut_settle {u : State} {n : Cl} (h : u.clOut n) : u.settle.clOut n := by
  have k : u.Stiller u.settle := State.stiller_of_calm (State.settle_calm u)
  refine ⟨⟨fun t ht => k.busy t (h.1.1 t ht), fun c hc => k.still (h.1.2 c hc)⟩, ?_, ?_⟩
  · rw [State.cl, State.clus_of_bare (State.bare_settle u)]
    exact h.2.1
  · rw [State.items_of_calm (State.settle_calm u)]
    exact h.2.2

theorem State.clOut_used {u : State} {n : Cl} (h : u.clOut n) : u.used.clOut n := h

/-- An event row ends as what its event makes of the state at its tick, once the power state has followed. -/
theorem State.ends_event {s : State} {i : Instr} {P : State → Prop} {tk : Nat} {f : State → State} {u : State}
    (he : exec i s = .next (s.eventAt tk f)) (hu : f (s.advance tk) = u) (h : P u.settle) : s.ends i P :=
  ⟨_, he, show P (f (s.advance tk)).settle from hu ▸ h⟩

/-- Settles O57: each row's event, clause by clause; what a lost die and a faulted cluster leave is `linkDown_dieOut`,
`clockDown_dieOut` and `clusterFault_clOut`. -/
theorem dieRows : Obligations.DieRows := by
  unfold Obligations.DieRows
  intro s tk second d c n cause phases
  dsimp only
  have hd : (s.advance tk).die = s.die := State.die_of_calm (State.advance_calm s tk)
  have hch : (s.advance tk).ch c = s.ch c := by simp [State.ch]
  have hcl : (s.advance tk).cl n = s.cl n := by simp [State.cl]
  have hrg (r : Rg) : (s.advance tk).rg r = s.rg r := by simp [State.rg]
  refine ⟨State.ends_event rfl rfl fun d h => ?_, fun h => State.turns_of rfl ?_, fun h => State.ends_event rfl rfl ?_,
    State.turns_of rfl rfl, fun h => State.ends_event (u := (s.advance tk).linkDown d _) rfl (if_neg ?_) ⟨?_, ?_⟩,
    fun h => State.ends_event (u := (s.advance tk).clockDown d _) rfl (if_neg ?_) ⟨?_, ?_⟩,
    fun h => ⟨State.turns_of rfl ?_, State.ends_event (u := (s.advance tk).linkBack d) rfl (if_neg ?_) fun n hn => ?_⟩,
    fun h hr => State.ends_event (u := (s.advance tk).pllLock d phases) rfl (if_neg ?_) ⟨?_, ?_, ?_⟩,
    fun h => State.ends_event (u := (s.advance tk).clusterFault n cause) rfl (if_pos ?_) ?_, fun h => State.turns_of rfl ?_,
    fun ho hs => State.turns_of rfl ?_, fun ho hs => State.turns_of rfl ?_,
    fun hr hs => State.ends_event rfl (if_neg ?_) (State.clOut_settle (State.clOut_used (State.clusterFault_clOut ..))),
    fun hs => State.turns_of rfl ?_⟩
  · rw [State.dt, State.settle_dieTick, State.settle_tick]
    exact (State.checkDies_dt _ d (hd ▸ h)).trans (by simp)
  · have sync (d : Die) : ¬ (s.advance tk).offCount d := fun hb => h d ⟨hd ▸ hb.1, hb.2⟩
    rw [State.checkDie_of_not _ 0 (sync 0), State.checkDie_of_not _ 1 (sync 1)]
    rfl
  · rw [State.ped_of_bare (State.bare_settle _)]
    exact State.checkDies_entry _ d ⟨hd.symm ▸ h.1, h.2⟩
  · simp [hd, h]
  · rw [State.die_of_calm (State.settle_calm _), State.linkDown_die, hd]
  · exact State.dieOut_settle (State.linkDown_dieOut ..)
  · simp [hd, h]
  · rw [State.die_of_calm (State.settle_calm _), State.clockDown_die, hd]
  · exact State.dieOut_settle (State.clockDown_dieOut ..)
  · simp only [hd, h, Bool.false_eq_true, if_false]
    exact State.linkBack_bare _ d
  · simp [hd, h]
  · refine (vget_map EvSource.grp _ n).symm.trans ?_
    exact (congrArg (fun v => v.get n) (State.settle_grps _)).trans (State.linkBack_grp _ d n hn)
  · obtain ⟨r, hr, ho⟩ := hr
    simp only [hd, h, Bool.false_or, Bool.not_eq_true', Bool.not_eq_false, List.any_eq_true]
    exact ⟨r, hr, (hrg r).symm ▸ ho⟩
  · rw [State.die_of_calm (State.settle_calm _), State.pllLock_die, hd]
  · rw [State.dt, State.settle_dieTick, State.settle_tick]
    exact State.pllLock_dt ..
  · intro p hp
    exact (congrArg (fun v => (v.get p.1).phase) (State.clus_of_bare (State.bare_settle _))).trans (State.pllLock_phase _ d phases p hp)
  · rw [hrg, h]
  · exact State.clOut_settle (State.clusterFault_clOut ..)
  · simp [hrg, h]
  · simp only [hch]
    rw [if_neg (not_or.2 ⟨hs, ho⟩)]
    exact State.bare_chEvAt ..
  · simp only [hch]
    rw [if_neg (not_or.2 ⟨hs, ho⟩)]
    exact State.bare_chEvAt ..
  · simp [hcl, hrg, hs, hr]
  · simp only [hch, hs, true_or, if_true]
    rfl

end Sys2Proof.Machine
end

section
/-! PROOFS. Regions that lose their clock or their power (1.2, 19.4): what their channels and clusters keep. -/

namespace Sys2Proof.Machine

/-! ### Operations on one channel -/

/-- `calm` without the channels. -/
def State.env (s : State) : State := { s.calm with chan := Vector.replicate 96 .reset }

theorem State.env_of_calm {s u : State} (h : u.calm = s.calm) : u.env = s.env := by
  unfold State.env
  rw [h]

@[simp] theorem State.modCh_env (s : State) (c : Ch) (f : Channel → Channel) : (s.modCh c f).env = s.env := rfl

theorem State.env_eq {s u v : State} (h : u.calm = v.calm) (hv : v.env = s.env) : u.env = s.env := (State.env_of_calm h).trans hv

/-- F speaks of a channel's core alone. -/
def OnCore (F : Channel → Channel) : Prop := ∀ x y, x.core = y.core → (F x).core = (F y).core

/-- An operation for each channel of a list, beside what `calm` leaves out a change F of that channel alone: each channel of the list
ends as F of what it was. -/
theorem State.core_each {f : Ch → State → State} {F : Channel → Channel} (hF : OnCore F)
    (h : ∀ c s, (f c s).calm = (s.modCh c F).calm) (l : List Ch) (hl : l.Nodup) (s : State) :
    (∀ c ∈ l, ((s.each l f).ch c).core = (F (s.ch c)).core) ∧ ∀ c, c ∉ l → ((s.each l f).ch c).core = (s.ch c).core := by
  induction l generalizing s with
  | nil => exact ⟨fun c hc => absurd hc List.not_mem_nil, fun _ _ => rfl⟩
  | cons a l ih =>
    rw [List.nodup_cons] at hl
    have at_ (c : Ch) : ((f a s).ch c).core = ((s.modCh a F).ch c).core := State.core_of_calm (h a s) c
    obtain ⟨hin, hout⟩ := ih hl.2 (f a s)
    refine ⟨fun c hc => ?_, fun c hc => ?_⟩
    · rcases List.mem_cons.1 hc with rfl | hc
      · exact (hout c hl.1).trans ((at_ c).trans (by rw [State.ch_modCh_self]))
      · have hne : c ≠ a := fun e => hl.1 (e ▸ hc)
        exact (hin c hc).trans (hF _ _ ((at_ c).trans (by rw [State.ch_modCh_ne _ _ hne])))
    · rw [List.mem_cons, not_or] at hc
      exact (hout c hc.2).trans ((at_ c).trans (by rw [State.ch_modCh_ne _ _ hc.1]))

theorem State.env_each {α : Type} (l : List α) {f : α → State → State} (h : ∀ a s, (f a s).env = s.env) (s : State) :
    (s.each l f).env = s.env := State.each_frame State.env l h s

/-! ### What two states that agree in `env` share -/

theorem State.rg_of_env {s u : State} (h : u.env = s.env) (r : Rg) : (u.rg r).core = (s.rg r).core := by
  have hv : u.rgn.map Region.core = s.rgn.map Region.core := congrArg State.rgn h
  exact (vget_map ..).symm.trans ((congrArg (fun v => v.get r) hv).trans (vget_map ..))

theorem State.cl_of_env {s u : State} (h : u.env = s.env) (n : Cl) : (u.cl n).core = (s.cl n).core := by
  have hv : u.clus.map Cluster.core = s.clus.map Cluster.core := congrArg State.clus h
  exact (vget_map ..).symm.trans ((congrArg (fun v => v.get n) hv).trans (vget_map ..))

theorem State.sclk_of_env {s u : State} (h : u.env = s.env) : u.aon.sclk = s.aon.sclk := by
  have e := congrArg (fun x => x.aon.sclk) h
  exact e
theorem State.remap_of_env {s u : State} (h : u.env = s.env) : u.aon.remap = s.aon.remap := by
  have e := congrArg (fun x => x.aon.remap) h
  exact e
theorem State.phys_of_env {s u : State} (h : u.env = s.env) : u.phys = s.phys := by
  have e := congrArg State.phys h
  exact e
theorem State.hotLock_of_env {s u : State} (h : u.env = s.env) : u.hotLock = s.hotLock := by
  have e := congrArg State.hotLock h
  exact e
theorem State.supplies_of_env {s u : State} (h : u.env = s.env) : u.supplies = s.supplies := by
  have e := congrArg State.supplies h
  exact e
theorem State.items_of_env {s u : State} (h : u.env = s.env) : u.items = s.items := by
  have e := congrArg State.items h
  exact e
theorem State.journal_of_env {s u : State} (h : u.env = s.env) : u.journal = s.journal := by
  have e := congrArg State.journal h
  exact e
theorem State.thSt_of_env {s u : State} (h : u.env = s.env) (t : Thr) : (u.th t).st = (s.th t).st := by
  have hv := congrArg (fun n => (n.thr.get t.k).st) (State.cl_of_env h t.cl)
  simpa [Cluster.core, Thread.core, State.th, vget_map] using hv

theorem nodup_chsOfRg (r : Rg) : (chsOfRg r).Nodup := by
  refine (List.nodup_finRange 16).map fun a b h => ?_
  simp only [Fin.mk.injEq] at h
  omega

/-! ### A region that loses its clock or its reference (R15, R24) -/

theorem onCore_heldSt : OnCore fun h => { h with st := heldSt h.st } := fun x y e => by
  unfold Channel.core at e ⊢
  simp only [Channel.mk.injEq] at e ⊢
  simp_all

theorem State.putSt_heldSt (s : State) (c : Ch) : s.putSt c (heldSt (s.ch c).st) = s.modCh c fun h => { h with st := heldSt h.st } :=
  State.modCh_congr _ _ _ _ rfl

/-- All the channels of a list lose their clock. -/
def State.heldAll (s u : State) (l : List Ch) : Prop := ∀ c ∈ l, (u.ch c).st = heldSt (s.ch c).st

theorem State.heldAll_each {f : Ch → State → State} (h : ∀ c s, (f c s).calm = (State.putSt s c (heldSt (s.ch c).st)).calm) (s : State)
    (r : Rg) : s.heldAll (s.each (chsOfRg r) f) (chsOfRg r) := by
  intro c hc
  have e := (State.core_each onCore_heldSt (fun c s => (h c s).trans (congrArg State.calm (State.putSt_heldSt s c))) _
    (nodup_chsOfRg r) s).1 c hc
  have hs := congrArg Channel.st e
  exact hs

theorem State.env_putSt (s : State) (c : Ch) (x : ChSt) : (s.putSt c x).env = s.env := rfl

/-- The region's step is discarded, and its channels go on without their clock as `lost` says. -/
def State.rgHeld (s : State) (r : Rg) (g : Region → Region) (lost : Ch → State → State) : State :=
  ((s.modRg r g).stepDiscard r).each (chsOfRg r) lost

theorem State.rgHeld_held {lost : Ch → State → State} (h : ∀ c s, (lost c s).calm = (State.putSt s c (heldSt (s.ch c).st)).calm)
    (s : State) (r : Rg) (g : Region → Region) : s.heldAll (s.rgHeld r g lost) (chsOfRg r) := by
  intro c hc
  refine (State.heldAll_each h _ r c hc).trans (congrArg heldSt ?_)
  exact (State.st_of_calm (State.stepDiscard_calm ..) c).trans rfl

theorem State.rgHeld_rg {lost : Ch → State → State} (h : ∀ c s, (lost c s).calm = (State.putSt s c (heldSt (s.ch c).st)).calm)
    (s : State) (r : Rg) (g : Region → Region) : ((s.rgHeld r g lost).rg r).core = (g (s.rg r)).core := by
  have e : (s.rgHeld r g lost).env = (s.modRg r g).env :=
    (State.env_each _ (fun c s => State.env_eq (h c s) (State.env_putSt ..)) _).trans (State.env_of_calm (State.stepDiscard_calm ..))
  rw [State.rg_of_env e, State.rg_modRg_self]

theorem State.rgLostEvent_held (s : State) (r : Rg) (power : Bool) (ho : (s.rg r).on = true) (hk : (s.rg r).clkOk = true) :
    ((s.rgLostEvent r power).settle.rg r).clkOk = false ∧ s.heldAll (s.rgLostEvent r power).settle (chsOfRg r) := by
  have e : (s.rgLostEvent r power).settle.calm = (s.rgLost r).calm := by
    unfold State.rgLostEvent
    rw [if_pos (by simp [ho, hk]), State.settle_calm]
    split <;> simp
  have lost (c : Ch) (s : State) : (State.chLost s c (s.now c)).calm = (State.putSt s c (heldSt (s.ch c).st)).calm :=
    State.chLost_calm s c _
  refine ⟨?_, fun c hc => ?_⟩
  · have hr := (State.rg_of_env (State.env_of_calm e) r).trans (State.rgHeld_rg lost s r fun g => { g with clkOk := false })
    have hc := congrArg Region.clkOk hr
    exact hc
  · exact (State.st_of_calm e c).trans (State.rgHeld_held lost s r (fun g => { g with clkOk := false }) c hc)

/-- The reference of region r fails (R24). -/
def State.refLost (s : State) (r : Rg) : State :=
  ((s.rgHeld r (fun g => { g with refOk := false }) fun c s => s.toHeldClock c (s.bnd c)).latchRg r 28).raise (rgSrc r 1) 0x208 0

theorem State.refLost_held (s : State) (r : Rg) :
    ((s.refLost r).settle.rg r).refOk = false ∧ s.heldAll (s.refLost r).settle (chsOfRg r) := by
  have lost (c : Ch) (s : State) : (State.toHeldClock s c (s.bnd c)).calm = (State.putSt s c (heldSt (s.ch c).st)).calm :=
    State.toHeldClock_calm s c _
  have e : (s.refLost r).settle.calm =
      (s.rgHeld r (fun g => { g with refOk := false }) fun c s => s.toHeldClock c (s.bnd c)).calm := by
    simp [State.refLost]
  refine ⟨?_, fun c hc => ?_⟩
  · have hr := (State.rg_of_env (State.env_of_calm e) r).trans (State.rgHeld_rg lost s r fun g => { g with refOk := false })
    have hc := congrArg Region.refOk hr
    exact hc
  · exact (State.st_of_calm e c).trans (State.rgHeld_held lost s r (fun g => { g with refOk := false }) c hc)

/-! ### A clock that returns (R129) -/

/-- A powered channel has its clock again. -/
def State.chBack (s : State) (c : Ch) : State :=
  if (s.ch c).st == .off then s else (s.convBack c .a (s.now c)).convBack c .b (s.now c)

@[simp] theorem State.chBack_calm (s : State) (c : Ch) : (s.chBack c).calm = s.calm := by simp [State.chBack]

/-- The clock of region r is back. -/
def State.rgBack (s : State) (r : Rg) : State := (s.modRg r fun g => { g with clkOk := true }).each (chsOfRg r) fun c s => s.chBack c

theorem State.rgBack_calm (s : State) (r : Rg) : (s.rgBack r).calm = (s.modRg r fun g => { g with clkOk := true }).calm :=
  State.each_calm _ (fun c s => State.chBack_calm s c) _

/-! ### A region that powers down (R478) -/

@[simp] theorem State.bare_pstateFollow (s : State) : s.pstateFollow.bare = s.bare := by
  unfold State.pstateFollow
  dsimp only
  split
  · split <;> simp
  · split <;> simp
  · split <;> simp
  · rfl

@[simp] theorem State.pstateFollow_calm (s : State) : s.pstateFollow.calm = s.calm := State.calm_congr (State.bare_pstateFollow s)

theorem State.rgn_of_bare {s u : State} (h : u.bare = s.bare) : u.rgn = s.rgn := by
  have e := congrArg State.rgn h
  exact e

/-- A cluster without power: its threads Idle, its timers and barriers clear. -/
def Cluster.idle (k : Cluster) : Cluster :=
  { k with thr := Vector.replicate 9 Thread.reset, tmr := Vector.replicate 8 none, bars := Vector.replicate 4 Barrier.empty, lines := 0 }

/-- Cluster n without power. -/
def State.idleCl (s : State) (n : Cl) : State := s.modCl n Cluster.idle

theorem State.idleCl_rgn (n : Cl) (s : State) : (s.idleCl n).rgn = s.rgn := rfl

/-- Region r and its clusters without power. -/
def State.rgOut (s : State) (r : Rg) : State := (s.modRg r Region.powerDown).each (clsOfRg r) fun n s => s.idleCl n

theorem State.downEnd_bare (s : State) (r : Rg) : (s.downEnd r).rgn = (s.rgOut r).rgn ∧ (s.downEnd r).clus = (s.rgOut r).clus := by
  have e : (s.downEnd r).bare = (if (rgsOfDie (dieOfRg r)).any fun x => ((s.rgOut r).rg x).on then s.rgOut r
      else (s.rgOut r).modDie (dieOfRg r) fun x => { x with clkOk := false }).bare := by
    unfold State.downEnd
    rw [State.bare_pstateFollow, State.bare_raiseHub]
    rfl
  rw [State.rgn_of_bare e, State.clus_of_bare e]
  split <;> exact ⟨rfl, rfl⟩

theorem State.rgOut_rg (s : State) (r : Rg) : (s.rgOut r).rg r = (s.rg r).powerDown := by
  have e : (s.rgOut r).rgn = (s.modRg r Region.powerDown).rgn := State.each_frame State.rgn _ State.idleCl_rgn _
  rw [State.rg, e]
  exact State.rg_modRg_self s r _

/-- The SRAMs of instructions and data of every cluster. -/
def State.srams (s : State) : Vector (Memory × Memory) 12 := s.clus.map fun k => (k.imem, k.dmem)

theorem State.idleCl_srams (n : Cl) (s : State) : (s.idleCl n).srams = s.srams :=
  vmap_set_of (fun k : Cluster => (k.imem, k.dmem)) s.clus n _ rfl

theorem State.rgOut_cl (s : State) (r : Rg) (n : Cl) (h : n ∈ clsOfRg r) : ((s.rgOut r).cl n).thr = Vector.replicate 9 Thread.reset
    ∧ ((s.rgOut r).cl n).imem = (s.cl n).imem ∧ ((s.rgOut r).cl n).dmem = (s.cl n).dmem := by
  have thr : ((s.rgOut r).cl n).thr = Vector.replicate 9 Thread.reset := by
    refine State.each_all (fun n s => (State.cl s n).thr = Vector.replicate 9 Thread.reset) _ (fun n s => ?_) (fun n m s hs => ?_) _ n h
    · rw [State.idleCl, State.cl_modCl_self]
      rfl
    · by_cases e : n = m
      · rw [e, State.idleCl, State.cl_modCl_self]
        rfl
      · rwa [State.idleCl, State.cl_modCl_ne _ _ e]
  have ram : (s.rgOut r).srams = s.srams := State.each_frame State.srams _ State.idleCl_srams _
  have hn := (vget_map ..).symm.trans ((congrArg (fun v => v.get n) ram).trans (vget_map ..))
  exact ⟨thr, congrArg Prod.fst hn, congrArg Prod.snd hn⟩

end Sys2Proof.Machine
end

section
/-! PROOFS. A region that locks (19.3): the completions that go out to the host. -/

namespace Sys2Proof.Machine

/-! ### What goes out to the host -/

/-- From s to u packets have been written to the host or wait for room, and none that was there is gone. -/
def State.Out (s u : State) : Prop := ∃ l m, u.hostOut = l ++ s.hostOut ∧ u.cqWait = s.cqWait ++ m

theorem State.Out.refl (s : State) : s.Out s := ⟨[], [], rfl, (List.append_nil _).symm⟩

theorem State.out_of_eq {s u : State} (hh : u.hostOut = s.hostOut) (hc : u.cqWait = s.cqWait) : s.Out u :=
  ⟨[], [], hh, hc.trans (List.append_nil _).symm⟩

theorem State.Out.trans {s u v : State} (h : s.Out u) (k : u.Out v) : s.Out v := by
  obtain ⟨l, m, hl, hm⟩ := h
  obtain ⟨l', m', hl', hm'⟩ := k
  exact ⟨l' ++ l, m ++ m', by rw [hl', hl, List.append_assoc], by rw [hm', hm, List.append_assoc]⟩

theorem State.out_each {α : Type} (l : List α) {f : α → State → State} (h : ∀ a s, State.Out s (f a s))
    (s : State) : s.Out (s.each l f) := by
  induction l generalizing s with
  | nil => exact .refl s
  | cons a l ih => exact (h a s).trans (ih (f a s))

theorem State.out_ite (p : Prop) [Decidable p] {s u v : State} (hu : s.Out u) (hv : s.Out v) : s.Out (if p then u else v) := by
  split
  · exact hu
  · exact hv

theorem State.out_msix (s : State) (v : Nat) : s.Out (s.msix v) := State.out_ite _ (State.out_of_eq rfl rfl) (State.out_of_eq rfl rfl)

/-- The packet has gone out between s and u: written to the host with the limit of its ring, or waiting for room. -/
def State.sent (s u : State) (o : OutPkt) : Prop :=
  ∃ l m, u.hostOut = l ++ s.hostOut ∧ u.cqWait = s.cqWait ++ m ∧ ∃ x ∈ l ++ m, { x with limit := 0 } = o

theorem State.sent.out {s u : State} {o : OutPkt} (h : s.sent u o) : s.Out u := by
  obtain ⟨l, m, hl, hm, -⟩ := h
  exact ⟨l, m, hl, hm⟩

theorem State.sent.after {s u v : State} {o : OutPkt} (h : s.sent u o) (k : u.Out v) : s.sent v o := by
  obtain ⟨l, m, hl, hm, x, hx, ho⟩ := h
  obtain ⟨l', m', hl', hm'⟩ := k
  refine ⟨l' ++ l, m ++ m', by rw [hl', hl, List.append_assoc], by rw [hm', hm, List.append_assoc], x, ?_, ho⟩
  simp only [List.mem_append] at hx ⊢
  tauto

theorem State.sent.before {s u v : State} {o : OutPkt} (h : u.sent v o) (k : s.Out u) : s.sent v o := by
  obtain ⟨l, m, hl, hm, x, hx, ho⟩ := h
  obtain ⟨l', m', hl', hm'⟩ := k
  refine ⟨l ++ l', m' ++ m, by rw [hl, hl', List.append_assoc], by rw [hm, hm', List.append_assoc], x, ?_, ho⟩
  simp only [List.mem_append] at hx ⊢
  tauto

theorem State.writeOut_out (s : State) (o : OutPkt) :
    (s.writeOut o).hostOut = { o with limit := (s.ring o.ctx o.ring).limit } :: s.hostOut ∧ (s.writeOut o).cqWait = s.cqWait := by
  constructor
  · simp [State.writeOut, State.unjournal, State.msix, apply_ite State.hostOut]
  · simp [State.writeOut, State.unjournal, State.msix, apply_ite State.cqWait]

theorem State.sent_writeOut (s : State) (o : OutPkt) : s.sent (s.writeOut o) { o with limit := 0 } := by
  obtain ⟨hh, hc⟩ := State.writeOut_out s o
  exact ⟨[_], [], hh, hc.trans (List.append_nil _).symm, _, List.mem_singleton_self _, rfl⟩

theorem State.sent_post (s : State) (o : OutPkt) : s.sent (s.post o) { o with limit := 0 } := by
  unfold State.post
  split
  · exact State.sent_writeOut s o
  · exact ⟨[], [o], rfl, rfl, o, by simp, rfl⟩

theorem State.out_closeItem (s : State) (k : Ctx) (g : Ring) (p : Pkt) : s.Out (s.closeItem k g p) := by
  have pages : s.Out (if p.hdr.type == 0x03 then s else s.modCtx k fun c => { c with isOpen := false }) :=
    State.out_ite _ (.refl s) (State.out_of_eq rfl rfl)
  exact (pages.trans (State.out_of_eq rfl rfl)).trans (State.sent_post _ _).out

theorem State.out_drainN (m : Nat) (s : State) (k : Ctx) (r : RingNo) : s.Out (s.drainN m k r) := by
  induction m generalizing s k r with
  | zero => exact .refl s
  | succ m ih =>
    have close : s.Out (s.closeRing m k r) := by
      have set : s.Out (s.setRing k r Ring.closed) := State.out_of_eq rfl rfl
      unfold State.closeRing
      exact set.trans (State.out_each _ (fun p u => (State.out_closeItem u k _ p).trans (ih _ _ _)) _)
    rw [State.drainN_succ]
    exact State.out_ite _ (State.out_ite _ close (close.trans (ih _ _ _))) (.refl s)

/-- A packet's completion goes out. -/
theorem State.sent_complete (s : State) (p : Pkt) (status code : Byte) (res0 : Word) (res1 : DWord) (pay : List Byte) :
    s.sent (s.complete p status code res0 res1 pay) { OutPkt.blank p.ctx p.ring 0x80 with
      status := status, seq := p.hdr.seq, tag := p.hdr.tag, code := code, ptype := p.hdr.type, res0 := res0, res1 := res1
      pay := pay } := by
  have mark : s.Out (({ s with items := eraseFirst (samePkt p) s.items }.mark p 2).modRing p.ctx p.ring fun g =>
      { g with lastSeq := p.hdr.seq }) := State.out_of_eq rfl rfl
  unfold State.complete State.drainRing
  exact ((State.sent_post _ _).before mark).after (State.out_drainN ..)

/-! Events -/

theorem State.out_writeEv (s : State) (n : Src) (h : HeldEv) : s.Out (s.writeEv n h) := by
  have w : s.Out (s.writeOut (s.evPkt n h)) := (State.sent_writeOut _ _).out
  unfold State.writeEv
  refine State.out_ite _ (State.out_of_eq rfl rfl) (State.out_ite _ ?_ (State.out_of_eq rfl rfl))
  have q (u : State) (v : Vector Nat 64) : u.Out { u with evSeq := v } := State.out_of_eq rfl rfl
  exact State.out_ite _ ((w.trans (q _ _)).trans (State.out_msix ..)) (w.trans (q _ _))

theorem State.out_modEv (s : State) (n : Src) (f : EvSource → EvSource) : s.Out (s.modEv n f) := State.out_of_eq rfl rfl

theorem State.out_sendEv (s : State) (n : Src) (f : Fold) (coal msi : Bool) : s.Out (s.sendEv n f coal msi) := by
  have w : s.Out (s.each (s.evDest n) fun d u =>
      u.writeEv n { ctx := d.1, ring := d.2, fold := f, coal := coal, msi := msi && d.1 == s.srcOwner n }) :=
    State.out_each _ (fun _ _ => State.out_writeEv ..) s
  exact State.out_ite _ (w.trans (State.out_modEv ..)) w

theorem State.out_endWindow (s : State) (n : Src) : s.Out (s.endWindow n) := by
  unfold State.endWindow
  dsimp only
  split
  · split
    · exact (State.out_modEv ..).trans (State.out_sendEv ..)
    · exact State.out_modEv ..
  · exact State.out_modEv ..

/-- A window that has ended is closed before an event is packed. -/
def State.packLate (s : State) (n : Src) : State :=
  match (s.ev.get n).win with
  | some w => if w ≤ s.tick then s.endWindow n else s
  | none => s

/-- An event is packed once no ended window stands open. -/
def State.packNow (s : State) (n : Src) (x : Ev) (msi : Bool) : State :=
  let e := s.ev.get n
  if !e.held.isEmpty then
    let s := s.foldHeld n x
    if msi then s.msix (s.srcVec n) else s
  else match e.win with
    | some _ =>
      let f := match e.fold with
        | some f => f.add x
        | none => { n := 1, first := x.tick, ev := x }
      let s := s.modEv n fun e => { e with fold := some f }
      if msi then s.msix (s.srcVec n) else s
    | none => s.sendEv n { n := 1, first := x.tick, ev := x } false msi

theorem State.packEv_eq (s : State) (n : Src) (x : Ev) (msi : Bool) : s.packEv n x msi = (s.packLate n).packNow n x msi := rfl

theorem State.out_packEv (s : State) (n : Src) (x : Ev) (msi : Bool) : s.Out (s.packEv n x msi) := by
  have late : s.Out (s.packLate n) := by
    unfold State.packLate
    split
    · exact State.out_ite _ (State.out_endWindow ..) (.refl s)
    · exact .refl s
  have now (u : State) : u.Out (u.packNow n x msi) := by
    have ring {v : State} (h : u.Out v) : u.Out (if msi then v.msix (v.srcVec n) else v) :=
      State.out_ite _ (h.trans (State.out_msix ..)) h
    unfold State.packNow
    dsimp only
    split
    · exact ring (State.out_of_eq rfl rfl)
    · split
      · exact ring (State.out_modEv ..)
      · exact State.out_sendEv ..
  rw [State.packEv_eq]
  exact late.trans (now _)

theorem State.out_deliver (s : State) (n : Src) (x : Ev) : s.Out (s.deliver n x) := by
  have mod (f : EvSource → EvSource) (msi : Bool) : s.Out (if bit (s.ev.get n).cfg 30 then (s.modEv n f).packEv n x msi
      else if msi then (s.modEv n f).msix ((s.modEv n f).srcVec n) else s.modEv n f) :=
    (State.out_modEv s n f).trans (State.out_ite _ (State.out_packEv ..) (State.out_ite _ (State.out_msix ..) (.refl _)))
  unfold State.deliver
  exact State.out_ite _ (.refl s) (mod _ _)

theorem State.out_raiseAt (s : State) (n : Src) (code : Nat) (d : Word) (t : Nat) : s.Out (s.raiseAt n code d t) :=
  State.out_ite _ (State.out_modEv ..) (State.out_deliver ..)

theorem State.out_raiseHub (s : State) (h : Fin 112) (d : Word) : s.Out (s.raiseHub h d) := State.out_raiseAt ..

theorem State.out_settle (s : State) : s.Out s.settle := by
  have set (p : PState) : s.Out (s.setPState p) := by
    unfold State.setPState
    exact State.out_ite _ (.refl s) ((State.out_of_eq rfl rfl).trans (State.out_raiseHub ..))
  unfold State.settle
  split
  · exact State.out_ite _ (set _) (.refl s)
  · exact State.out_ite _ (.refl s) (set _)
  · exact .refl s

theorem State.out_chEvAt (s : State) (c : Ch) (e : ChEv) (d : Word) (t : Nat) : s.Out (s.chEvAt c e d t) := by
  unfold State.chEvAt
  refine State.Out.trans ?_ (State.out_raiseAt ..)
  split
  · exact State.out_of_eq rfl rfl
  · exact .refl s

/-! A clock that returns -/

theorem State.out_modConv (s : State) (c : Ch) (v : Conv) (f : ConvSt → ConvSt) : s.Out (s.modConv c v f) := State.out_of_eq rfl rfl

theorem State.out_commitRes (s : State) (c : Ch) (r : Fin 40) (w : Word) (ts : Nat) : s.Out (s.commitRes c r w ts) := by
  have mod (u : State) (f : Channel → Channel) : u.Out (u.modCh c f) := State.out_of_eq rfl rfl
  have event (u : State) : u.Out (if bit w 2 then u.chEv c .injRes (wd r.1) else u) :=
    State.out_ite _ (State.out_chEvAt ..) (.refl u)
  unfold State.commitRes
  refine State.Out.trans ?_ (event _)
  exact State.out_ite _ (State.out_ite _ ((mod ..).trans (mod ..)) ((mod ..).trans (State.out_modConv ..))) (mod ..)

theorem State.out_closeIvs (s : State) (c : Ch) (v : Conv) (ranging : Bool) : s.Out (s.closeIvs c v ranging) := by
  refine State.out_each _ (fun e u => ?_) s
  unfold State.closeIv
  refine State.out_ite _ (.refl u) (State.Out.trans (State.out_modConv ..) (State.out_commitRes ..))

theorem State.out_convBack (s : State) (c : Ch) (v : Conv) (t : Nat) : s.Out (s.convBack c v t) := by
  have drop (u : State) : u.Out (u.dropUrgent c v) := (State.out_modConv ..).trans (State.out_chEvAt ..)
  have back : s.Out ((s.closeIvs c v false).modConv c v fun x => { x with abandoned := false, wts := max x.wts t }) :=
    (State.out_closeIvs ..).trans (State.out_modConv ..)
  unfold State.convBack
  exact State.out_ite _ (back.trans (drop _)) back

/-! ### A relocked region (R470) -/

/-- A channel whose counts restart at sample boundary k, at tick t. -/
def Channel.recount (k t : Nat) (h : Channel) : Channel :=
  { h with
    rhist := [], loop := { h.loop with mark := k, lastB := t }, convA := { h.convA with mark := k, wmark := k }
    convB := { h.convB with mark := k, wmark := k } }

theorem Channel.core_recount (k t : Nat) (h : Channel) : (h.recount k t).core = h.core := rfl

/-- A powered channel at the lock: open intervals close, and its counts restart at the next sample boundary. -/
def State.relockCh (s : State) (c : Ch) : State :=
  if (s.ch c).st == .off then s
  else
    let t := s.now c
    let k := s.sIdx c t + 1
    ((s.convBack c .a t).convBack c .b t).modCh c (Channel.recount k t)

theorem State.out_relockCh (s : State) (c : Ch) : s.Out (s.relockCh c) := by
  have mod (u : State) (f : Channel → Channel) : u.Out (u.modCh c f) := State.out_of_eq rfl rfl
  unfold State.relockCh
  exact State.out_ite _ (.refl s) (((State.out_convBack ..).trans (State.out_convBack ..)).trans (mod ..))

theorem State.relockCh_calm (s : State) (c : Ch) : (s.relockCh c).calm = s.calm := by
  unfold State.relockCh
  split
  · rfl
  · rw [State.modCh_calm_of _ c (Channel.core_recount _ _), State.convBack_calm, State.convBack_calm]

/-- Region r with its new clock, and the always-on note of it. -/
def State.newClock (s : State) (r : Rg) (p q : Nat) : State :=
  let s := s.modRg r fun g => { g with p := p, q := q, clkOk := true, relock := none }
  { s with aon := { s.aon with sclk := s.aon.sclk.set r.1 (p, q) r.2 } }

theorem State.relockEnd_eq (s : State) (r : Rg) (p q : Nat) : s.relockEnd r p q =
    ((s.newClock r p q).each (chsOfRg r) fun c s => s.relockCh c).raiseHub 99 (wd (r.1 + at_ p 8 + at_ q 16)) := rfl

theorem State.relockEnd_calm (s : State) (r : Rg) (p q : Nat) : (s.relockEnd r p q).calm = (s.newClock r p q).calm := by
  rw [State.relockEnd_eq, State.raiseHub_calm]
  exact State.each_calm _ (fun c s => State.relockCh_calm s c) _

theorem State.out_relockEnd (s : State) (r : Rg) (p q : Nat) : s.Out (s.relockEnd r p q) := by
  have new : s.Out (s.newClock r p q) := State.out_of_eq rfl rfl
  rw [State.relockEnd_eq]
  exact (new.trans (State.out_each _ (fun c s => State.out_relockCh s c) _)).trans (State.out_raiseHub ..)

/-- The completion of packet p without an error. -/
def okPkt (p : Pkt) : OutPkt := { OutPkt.blank p.ctx p.ring 0x80 with
  status := 0, seq := p.hdr.seq, tag := p.hdr.tag, code := 0, ptype := p.hdr.type, res0 := 0, res1 := 0, pay := [] }

theorem State.sent_secOk (s : State) (p : Pkt) : s.sent (s.secOk p 0) (okPkt p) := State.sent_complete ..

/-- Every packet of a list completes. -/
def State.okAll (s : State) (l : List Pkt) : State := s.each l fun p s => s.secOk p 0

@[simp] theorem State.okAll_apart (s : State) (l : List Pkt) : (s.okAll l).apart = s.apart :=
  State.each_apart l (fun p s => State.complete_apart s p _ _ _ _ _) s

theorem State.out_okAll (s : State) (l : List Pkt) : s.Out (s.okAll l) := State.out_each l (fun p s => (State.sent_secOk s p).out) s

theorem State.sent_okAll (s : State) (l : List Pkt) : ∀ p ∈ l, s.sent (s.okAll l) (okPkt p) := by
  induction l generalizing s with
  | nil => exact fun p hp => absurd hp List.not_mem_nil
  | cons a l ih =>
    intro p hp
    rcases List.mem_cons.1 hp with rfl | hp
    · exact (State.sent_secOk s p).after (State.out_okAll _ l)
    · exact (ih _ p hp).before (State.sent_secOk s a).out

/-- The items that are left are fewer, where one of the list stood among them. -/
theorem State.okAll_items (s : State) (l : List Pkt) (hl : l ≠ []) (h : ∀ p ∈ l, p ∈ s.items) :
    (s.okAll l).items.length < s.items.length := by
  obtain ⟨a, l, rfl⟩ := List.exists_cons_of_ne_nil hl
  have ha : a ∈ s.items := h a List.mem_cons_self
  have rest : ((s.secOk a 0).okAll l).items.Sublist (s.secOk a 0).items :=
    State.each_sublist l (fun p s => (State.complete_items s p _ _ _ _ _).trans List.eraseP_sublist) _
  have head : (s.secOk a 0).items.Sublist (s.items.eraseP (samePkt a)) := State.complete_items ..
  have gone := List.length_eraseP_add_one ha ((samePkt_iff a a).2 rfl)
  have := (rest.trans head).length_le
  show ((s.secOk a 0).okAll l).items.length < _
  omega

theorem State.completed_okAll (s u : State) (l : List Pkt) (hs : s.Out u) (hi : u.items = s.items) (h : ∀ p ∈ l, p ∈ s.items) :
    ∀ p ∈ l, s.completed (u.okAll l).settle p 0 0 0 0 [] := by
  intro p hp
  have hn : l ≠ [] := List.ne_nil_of_mem hp
  refine ⟨?_, ((State.sent_okAll u l p hp).before hs).after (State.out_settle _)⟩
  rw [State.items_of_calm (State.settle_calm _), ← hi]
  exact State.okAll_items u l hn fun p hp => hi ▸ h p hp

theorem State.rgn_of_apart {s u : State} (h : u.apart = s.apart) : u.rgn = s.rgn := by
  have e := congrArg State.rgn h
  exact e
theorem State.sclk_of_apart {s u : State} (h : u.apart = s.apart) : u.aon.sclk = s.aon.sclk := by
  have e := congrArg (fun x => x.aon.sclk) h
  exact e

end Sys2Proof.Machine
end

section
/-! PROOFS. A region that shuts down (19.6): its threads halt, and it stays on its way down. -/

namespace Sys2Proof.Machine

/-! ### A region that is shut down (R484) -/

@[simp] theorem State.setSt_env (s : State) (c : Ch) (x : ChSt) (t : Nat) : (s.setSt c x t).env = s.env :=
  State.env_eq (State.setSt_calm s c x t) (State.env_putSt s c x)
@[simp] theorem State.stimStop_env (s : State) (c : Ch) (t : Nat) : (s.stimStop c t).env = s.env :=
  State.env_of_calm (State.stimStop_calm ..)
@[simp] theorem State.flushDac_env (s : State) (c : Ch) : (s.flushDac c).env = s.env := rfl
@[simp] theorem State.openEng_env (s : State) (c : Ch) : (s.openEng c).env = s.env := rfl
@[simp] theorem State.capPark_env (s : State) (c : Ch) (b : Nat) : (s.capPark c b).env = s.env := State.env_of_calm (State.capPark_calm ..)
@[simp] theorem State.stepDisturb_env (s : State) (c : Ch) : (s.stepDisturb c).env = s.env := State.env_of_calm (State.stepDisturb_calm ..)
@[simp] theorem State.rangeCut_env (s : State) (c : Ch) (t : Nat) : (s.rangeCut c t).env = s.env :=
  State.env_of_calm (State.rangeCut_calm ..)
@[simp] theorem State.defCancel_env (s : State) (c : Ch) (t : Nat) : (s.defCancel c t).env = s.env :=
  State.env_of_calm (State.defCancel_calm ..)

@[simp] theorem State.ite_env (p : Prop) [Decidable p] (s u : State) : (if p then s else u).env = if p then s.env else u.env := apply_ite ..

@[simp] theorem State.toOff_env (s : State) (c : Ch) (t : Nat) : (s.toOff c t).env = s.env := by simp [State.toOff]
@[simp] theorem State.toTripped_env (s : State) (c : Ch) (t : Nat) : (s.toTripped c t).env = s.env := by simp [State.toTripped]
@[simp] theorem State.toDraining_env (s : State) (c : Ch) (t : Nat) : (s.toDraining c t).env = s.env := by simp [State.toDraining]
@[simp] theorem State.downCh_env (s : State) (c : Ch) : (s.downCh c).env = s.env := by
  have trip : (s.tripFirst c).env = s.env := by simp [State.tripFirst, State.tripAt]
  unfold State.downCh
  dsimp only
  split <;> simp [trip]

/-- What the shutdown of a region reads and sets of each region. -/
def Region.flags (g : Region) : Bool × Bool × Bool := (g.on, g.seqDown, g.cool)

theorem State.flags_of_env {s u : State} (h : u.env = s.env) (x : Rg) : (u.rg x).flags = (s.rg x).flags := by
  have e := congrArg Region.flags (State.rg_of_env h x)
  exact e

theorem State.flags_modRg (s : State) (r x : Rg) (f : Region → Region) (h : ∀ g, (f g).flags = g.flags) :
    ((s.modRg r f).rg x).flags = (s.rg x).flags := by
  by_cases e : x = r
  · rw [e, State.rg_modRg_self, h]
  · rw [State.rg_modRg_ne _ _ e]

/-- `env` without the clusters. -/
def State.base (s : State) : State := { s.env with clus := Vector.replicate 12 .reset }

theorem State.base_of_env {s u : State} (h : u.env = s.env) : u.base = s.base := by
  unfold State.base
  rw [h]

theorem State.flags_of_base {s u : State} (h : u.base = s.base) (x : Rg) : (u.rg x).flags = (s.rg x).flags := by
  have hv : u.rgn.map Region.core = s.rgn.map Region.core := congrArg State.rgn h
  have e := (vget_map ..).symm.trans ((congrArg (fun v => v.get x) hv).trans (vget_map ..))
  have ef := congrArg Region.flags e
  exact ef

theorem State.hotLock_of_base {s u : State} (h : u.base = s.base) : u.hotLock = s.hotLock := by
  have e := congrArg State.hotLock h
  exact e

@[simp] theorem State.freezeAt_base (s : State) (c : Ch) (t : Nat) : (s.freezeAt c t).base = s.base := by
  refine (State.base_of_env (State.env_of_calm (State.freezeAt_calm s c t))).trans ?_
  unfold State.putFrozen
  split <;> rfl

theorem State.modTh_base (s : State) (t : Thr) (f : Thread → Thread) : (s.modTh t f).base = s.base := rfl

theorem State.putHalted_base (s : State) (t : Thr) (cause : Byte) (tf : Nat) : (s.putHalted t cause tf).base = s.base :=
  (State.modTh_base ..).trans (State.base_of_env (State.env_of_calm (State.dropWait_calm s t)))

theorem State.haltBusy_base (s : State) (t : Thr) (cause : Byte) : (s.haltBusy t cause).base = s.base := by
  have halt (tf : Nat) : (s.halt t cause tf).base = s.base := by
    rw [State.halt_eq]
    split <;> simp [State.putHalted_base]
  unfold State.haltBusy
  split
  · exact halt _
  · rfl

/-- The threads of region r halt. -/
def State.haltRg (s : State) (r : Rg) : State := s.each (clsOfRg r) fun n s => s.haltCl n causeClusterHalt

theorem State.haltRg_base (s : State) (r : Rg) : (s.haltRg r).base = s.base :=
  State.each_frame State.base _ (fun _ s => State.each_frame State.base _ (fun t s => State.haltBusy_base s t _) s) s

theorem State.stiller_haltRg (s : State) (r : Rg) : s.Stiller (s.haltRg r) := State.stiller_each _ (fun n s => State.stiller_haltCl s n _) s

theorem mem_clsOfRg : ∀ n : Cl, n ∈ clsOfRg (rgOfCl n) := by decide

theorem State.busy_haltRg (s : State) (t : Thr) : ((s.haltRg (rgOfCl t.cl)).th t).busy = false := by
  refine State.each_all (fun n s => ∀ t : Thr, t.cl = n → (State.th s t).busy = false) _ (fun n s t ht => ?_)
    (fun n m s hs t ht => (State.stiller_haltCl s m _).busy t (hs t ht)) s t.cl (mem_clsOfRg t.cl) t rfl
  subst ht
  exact State.busy_haltCl s t _

/-- No region goes on or off from s to u, none leaves its power-down, and no thread begins. -/
structure State.Sinks (s u : State) : Prop where
  on : ∀ x, (u.rg x).on = (s.rg x).on
  seqDown : ∀ x, (s.rg x).seqDown = true → (u.rg x).seqDown = true
  cool : ∀ x, (u.rg x).cool = (s.rg x).cool
  hotLock : u.hotLock = s.hotLock
  busy : ∀ t, (s.th t).busy = false → (u.th t).busy = false

theorem State.Sinks.refl (s : State) : s.Sinks s := ⟨fun _ => rfl, fun _ h => h, fun _ => rfl, rfl, fun _ h => h⟩

theorem State.Sinks.trans {s u v : State} (h : s.Sinks u) (k : u.Sinks v) : s.Sinks v :=
  ⟨fun x => (k.on x).trans (h.on x), fun x hx => k.seqDown x (h.seqDown x hx), fun x => (k.cool x).trans (h.cool x),
    k.hotLock.trans h.hotLock, fun t ht => k.busy t (h.busy t ht)⟩

theorem State.sinks_of_flags {s u : State} (h : ∀ x, (u.rg x).flags = (s.rg x).flags) (hl : u.hotLock = s.hotLock)
    (hb : ∀ t, (s.th t).busy = false → (u.th t).busy = false) : s.Sinks u where
  on x := congrArg Prod.fst (h x)
  seqDown x hx := (congrArg (·.2.1) (h x)).trans hx
  cool x := congrArg (·.2.2) (h x)
  hotLock := hl
  busy := hb

theorem State.sinks_haltRg (s : State) (r : Rg) : s.Sinks (s.haltRg r) :=
  State.sinks_of_flags (State.flags_of_base (State.haltRg_base s r)) (State.hotLock_of_base (State.haltRg_base s r))
    (State.stiller_haltRg s r).busy

theorem State.sinks_of_env {s u : State} (h : u.env = s.env) : s.Sinks u :=
  State.sinks_of_flags (State.flags_of_env h) (State.hotLock_of_env h) fun t ht => by rwa [Thread.busy, State.thSt_of_env h t]

theorem State.sinks_modRg (s : State) (r : Rg) (f : Region → Region) (h : ∀ g, (f g).flags = g.flags) : s.Sinks (s.modRg r f) :=
  State.sinks_of_flags (fun x => State.flags_modRg s r x f h) rfl fun _ h => h

theorem State.sinks_cycleDrop (s : State) (r : Rg) : s.Sinks (s.cycleDrop r) := by
  have step : s.Sinks (if (s.rg r).busy && (s.rg r).kind == 5 then s.stepOff r else s) := by
    split
    · exact State.sinks_of_env (State.env_of_calm (State.stepOff_calm s r))
    · exact .refl s
  refine State.Sinks.trans step ?_
  exact State.sinks_modRg _ r (fun g => { g with cycleOn := false, cycleAt := none, fresh := [], queue := g.queue.filter fun q => !q.szn })
    fun _ => rfl

/-- Region r on its way down. -/
def State.sinkRg (s : State) (r : Rg) : State := s.modRg r fun g => { g with seqDown := true, queue := [] }

theorem State.sinks_sinkRg (s : State) (r : Rg) : s.Sinks (s.sinkRg r) := by
  have other {x : Rg} (h : x ≠ r) : (s.sinkRg r).rg x = s.rg x := State.rg_modRg_ne _ _ h
  have same : (s.sinkRg r).rg r = { s.rg r with seqDown := true, queue := [] } := State.rg_modRg_self ..
  refine ⟨fun x => ?_, fun x hx => ?_, fun x => ?_, rfl, fun _ h => h⟩ <;> by_cases h : x = r
  · rw [h, same]
  · rw [other h]
  · rw [h, same]
  · rwa [other h]
  · rw [h, same]
  · rw [other h]

theorem State.downStart_eq (s : State) (r : Rg) : s.downStart r = if !(s.rg r).on || (s.rg r).seqDown then s
    else (((s.cycleDrop r).stepOff r).sinkRg r).each (chsOfRg r) fun c s => s.downCh c := rfl

theorem State.sinks_downChs (s : State) (r : Rg) : s.Sinks (s.each (chsOfRg r) fun c s => s.downCh c) :=
  State.sinks_of_env (State.env_each _ (fun c s => State.downCh_env s c) s)

theorem State.sinks_downStart (s : State) (r : Rg) : s.Sinks (s.downStart r) := by
  rw [State.downStart_eq]
  split
  · exact .refl s
  · exact (((State.sinks_cycleDrop s r).trans (State.sinks_of_env (State.env_of_calm (State.stepOff_calm _ r)))).trans
      (State.sinks_sinkRg _ r)).trans (State.sinks_downChs _ r)

theorem State.downStart_seqDown (s : State) (r : Rg) (h : (s.rg r).on = true) : ((s.downStart r).rg r).seqDown = true := by
  rw [State.downStart_eq]
  split
  next hd => simpa [h] using hd
  next hd =>
    refine (State.sinks_downChs _ r).seqDown r ?_
    rw [State.sinkRg, State.rg_modRg_self]

theorem State.thermalDown_eq (s : State) (r : Rg) : s.thermalDown r = (s.haltRg r).downStart r := by
  simp only [State.thermalDown, State.haltRg, State.haltCl, State.haltBusy]

theorem State.sinks_thermalDown (s : State) (r : Rg) : s.Sinks (s.thermalDown r) := by
  rw [State.thermalDown_eq]
  exact (State.sinks_haltRg s r).trans (State.sinks_downStart _ r)

/-- Every region shuts down. -/
def State.thermalAll (s : State) : State := s.each (List.finRange 6) fun x s => s.thermalDown x

theorem State.sinks_each {α : Type} (l : List α) {f : α → State → State} (h : ∀ a s, State.Sinks s (f a s)) (s : State) :
    s.Sinks (s.each l f) := by
  induction l generalizing s with
  | nil => exact .refl s
  | cons a l ih => exact (h a s).trans (ih (f a s))

theorem State.sinks_thermalAll (s : State) : s.Sinks s.thermalAll := State.sinks_each _ (fun r s => State.sinks_thermalDown s r) s

theorem State.thermalAll_seqDown (s : State) (r : Rg) (h : (s.rg r).on = true) : (s.thermalAll.rg r).seqDown = true := by
  have all : ∀ x ∈ List.finRange 6, (s.thermalAll.rg x).on = true → (s.thermalAll.rg x).seqDown = true := by
    refine State.each_all (fun x s => (State.rg s x).on = true → (State.rg s x).seqDown = true) _ (fun x s ho => ?_)
      (fun x y s hx ho => ?_) s
    · rw [(State.sinks_thermalDown s x).on x] at ho
      rw [State.thermalDown_eq]
      exact State.downStart_seqDown _ x (by rw [(State.sinks_haltRg s x).on x]; exact ho)
    · rw [(State.sinks_thermalDown s y).on x] at ho
      exact (State.sinks_thermalDown s y).seqDown x (hx ho)
  exact all r (List.mem_finRange r) (by rw [(State.sinks_thermalAll s).on r]; exact h)

theorem State.thermalAll_busy (s : State) (t : Thr) : (s.thermalAll.th t).busy = false := by
  refine State.each_all (fun x s => ∀ t : Thr, rgOfCl t.cl = x → (State.th s t).busy = false) _ (fun x s t ht => ?_)
    (fun x y s hx t ht => (State.sinks_thermalDown s y).busy t (hx t ht)) s (rgOfCl t.cl) (List.mem_finRange _) t rfl
  rw [State.thermalDown_eq]
  subst ht
  exact (State.sinks_downStart _ _).busy t (State.busy_haltRg s t)

end Sys2Proof.Machine
end

section
/-! PROOFS. A region that powers up (19.4): its cluster memories, its channels without latched trips. -/

namespace Sys2Proof.Machine

/-! ### A byte that a write does not reach -/

theorem sget_serase_ne {α : Type} (d : α) (m : List (Nat × α)) {k j : Nat} (h : j ≠ k) : sget d (serase m k) j = sget d m j := by
  induction m with
  | nil => rfl
  | cons p m ih =>
    obtain ⟨a, v⟩ := p
    by_cases e : a = k
    · have hj : a ≠ j := fun ej => h (ej ▸ e)
      rw [serase, if_pos e, sget, if_neg hj, ih]
    · rw [serase, if_neg e, sget, sget, ih]

theorem sget_sput_ne {α : Type} (d : α) (m : List (Nat × α)) {k j : Nat} (v : α) (h : j ≠ k) : sget d (sput m k v) j = sget d m j := by
  induction m with
  | nil => exact if_neg (Ne.symm h)
  | cons p m ih =>
    obtain ⟨a, u⟩ := p
    rw [sput]
    split
    · rw [sget, if_neg (Ne.symm h)]
    · split
      next e => rw [sget, if_neg (Ne.symm h), sget, if_neg (e ▸ Ne.symm h)]
      · rw [sget, sget, ih]

theorem memByte_memSetByte_ne (m : Memory) {a b : Nat} (v : Byte) (h : a ≠ b) : memByte (memSetByte m b v) a = memByte m a := by
  unfold memByte memSetByte sset
  split
  · exact sget_serase_ne _ _ h
  · exact sget_sput_ne _ _ _ h

theorem memByte_memSetWord_ne (m : Memory) {a b : Nat} (w : Word) (h : a < b ∨ b + 4 ≤ a) :
    memByte (memSetWord m b w) a = memByte m a := by
  unfold memSetWord
  rw [memByte_memSetByte_ne _ _ (by omega), memByte_memSetByte_ne _ _ (by omega), memByte_memSetByte_ne _ _ (by omega),
    memByte_memSetByte_ne _ _ (by omega)]

theorem memByte_memClear (m : Memory) {lo hi a : Nat} (h1 : lo ≤ a) (h2 : a < hi) : memByte (memClear m lo hi) a = 0 := by
  unfold memByte memClear
  induction m with
  | nil => rfl
  | cons p m ih =>
    obtain ⟨b, v⟩ := p
    rw [List.filter_cons]
    split
    next e =>
      have hb : b ≠ a := by
        rintro rfl
        simp at e
        omega
      rw [sget, if_neg hb, ih]
    · exact ih

/-! ### The trip levels of a channel after power-up (Table 3-6) -/

/-- Byte x of channel j's control area, one of the six trip-level words. -/
def inTripLevels (j x : Nat) (a : Nat) : Prop := a = 0x800 * j + x ∧ 0x80 ≤ x ∧ x < 0x98

theorem memByte_ctlReset (k : Nat) (m : Memory) {j x a : Nat} (h : inTripLevels j x a) : memByte (ctlReset k m) a = memByte m a := by
  obtain ⟨rfl, h1, h2⟩ := h
  have far (o : Nat) (ho : o < 0x800) (hx : o + 4 ≤ 0x80 ∨ 0x98 ≤ o) :
      0x800 * j + x < 0x800 * k + o ∨ 0x800 * k + o + 4 ≤ 0x800 * j + x := by omega
  unfold ctlReset
  refine List.foldlRecOn _ _ (motive := fun m' => memByte m' (0x800 * j + x) = memByte m (0x800 * j + x)) ?_ fun m' hm p hp => ?_
  · refine List.foldlRecOn _ _ (motive := fun m' => memByte m' (0x800 * j + x) = memByte m (0x800 * j + x)) rfl fun m' hm e he => ?_
    have he := List.mem_range.1 he
    rw [memByte_memSetWord_ne _ _ (by omega), memByte_memSetWord_ne _ _ (by omega), hm]
  · rw [memByte_memSetWord_ne _ _ (far p.1 ?_ ?_), hm]
    all_goals
      simp at hp
      rcases hp with rfl | rfl | rfl | rfl | rfl <;> decide

theorem memByte_tmemReset (m : Memory) {j x a : Nat} (hj : j < 8) (h : inTripLevels j x a) : memByte (tmemReset m) a = 0 := by
  have start : memByte (memClear m 0 0x4400) a = 0 := by
    obtain ⟨rfl, h1, h2⟩ := h
    exact memByte_memClear _ (Nat.zero_le _) (by omega)
  unfold tmemReset
  exact List.foldlRecOn _ _ (motive := fun m' => memByte m' a = 0) start fun m' hm k _ => (memByte_ctlReset k m' h).trans hm

/-- No gate of channel c has a level for a trip: the trip-level words of the channel are 0. -/
def State.noLevel (s : State) (c : Ch) : Prop := ∀ m : Cmp, s.hasLevel c m = false

theorem State.noLevel_of_tmem {s : State} {c : Ch} {m : Memory} (h : (s.cl (clOf c)).tmem = tmemReset m) : s.noLevel c := by
  have word (n : Nat) (hn : n < 6) : s.ctl c (0x80 + 4 * n) = 0 := by
    have byte (i : Nat) (hi : i < 4) : memByte (tmemReset m) (ctlOff c (0x80 + 4 * n) + i) = 0 :=
      memByte_tmemReset m (Nat.mod_lt c.1 (by omega)) (x := 0x80 + 4 * n + i) ⟨by unfold ctlOff; omega, by omega, by omega⟩
    unfold State.ctl memWord
    rw [h, byte 3 (by omega), byte 2 (by omega), byte 1 (by omega), ← Nat.add_zero (ctlOff c (0x80 + 4 * n)), byte 0 (by omega)]
    rfl
  intro k
  unfold State.hasLevel
  rw [List.any_eq_false]
  intro n hn
  rw [word n (List.mem_range.1 hn)]
  simp [fld]

/-! ### The latched trips of every channel (R174) -/

/-- The trips that each channel has latched. -/
def State.latches (s : State) : Vector (BitVec 4) 96 := s.chan.map fun h => h.trip.latch

theorem State.latches_get (s : State) (c : Ch) : s.latches.get c = (s.ch c).trip.latch := vget_map ..

@[simp] theorem State.ite_latches (p : Prop) [Decidable p] (s u : State) :
    (if p then s else u).latches = if p then s.latches else u.latches := apply_ite ..

@[simp] theorem State.each_latches {α : Type} (l : List α) {f : α → State → State} (h : ∀ a s, (f a s).latches = s.latches) (s : State) :
    (s.each l f).latches = s.latches := State.each_frame State.latches l h s

theorem State.latches_of_bare {s u : State} (h : u.bare = s.bare) : u.latches = s.latches := by
  unfold State.latches
  rw [State.chan_of_bare h]

theorem State.modCh_latches {s : State} {c : Ch} {f : Channel → Channel} (h : (f (s.ch c)).trip.latch = (s.ch c).trip.latch) :
    (s.modCh c f).latches = s.latches := vmap_set_of (fun h : Channel => h.trip.latch) s.chan c _ h

theorem State.modCh_latches_set (s : State) (c : Ch) (f : Channel → Channel) :
    (s.modCh c f).latches = s.latches.set c.1 (f (s.ch c)).trip.latch c.2 := Vector.map_set ..

@[simp] theorem State.raiseAt_latches (s : State) (n : Src) (code : Nat) (d : Word) (t : Nat) :
    (s.raiseAt n code d t).latches = s.latches := State.latches_of_bare (State.bare_raiseAt ..)
@[simp] theorem State.raiseHub_latches (s : State) (h : Fin 112) (d : Word) : (s.raiseHub h d).latches = s.latches :=
  State.latches_of_bare (State.bare_raiseHub ..)
@[simp] theorem State.acq_latches (s : State) (m : List Host.Cell) : { s with acq := m }.latches = s.latches := rfl
@[simp] theorem State.pedQueue_latches (s : State) (kind : Byte) (lch : Nat) (body : List Byte) (after : PedAfter) :
    (s.pedQueue kind lch body after).latches = s.latches := rfl

section
variable (s : State) (c : Ch) (t tk b : Nat) (p : Pkt) (k : Ctx) (n : Cl) (r : Rg) (d : Die) (v : Conv) (w : Word)

@[simp] theorem State.chEvAt_latches (e : ChEv) (detail : Word) : (s.chEvAt c e detail t).latches = s.latches := by
  unfold State.chEvAt
  dsimp only
  rw [State.raiseAt_latches]
  split <;> rfl
@[simp] theorem State.modGen_latches (f : GenSt → GenSt) : (s.modGen c f).latches = s.latches := State.modCh_latches rfl
@[simp] theorem State.genStop_latches : (s.genStop c t).latches = s.latches := by simp [State.genStop]
@[simp] theorem State.modCap_latches (f : CapSt → CapSt) : (s.modCap c f).latches = s.latches := State.modCh_latches rfl
@[simp] theorem State.disarm_latches : (s.disarm c).latches = s.latches := State.modCh_latches rfl
@[simp] theorem State.endRec_latches : (s.endRec c).latches = s.latches := State.modCh_latches rfl
@[simp] theorem State.cutRec_latches (fl : Word) : (s.cutRec c b fl).latches = s.latches := by
  unfold State.cutRec
  split <;> simp
@[simp] theorem State.truncRec_latches : (s.truncRec c b).latches = s.latches := by simp [State.truncRec]
@[simp] theorem State.logUe_latches (finder lch : Nat) : (s.logUe finder lch b).latches = s.latches := by
  unfold State.logUe
  dsimp only
  rw [State.raiseHub_latches]
  unfold State.latches
  ext i hi
  simp [State.ch, Vector.get]
@[simp] theorem State.acqPut_latches (lch base size tot : Nat) (bs : List Byte) : (s.acqPut lch base size tot bs).latches = s.latches := by
  unfold State.acqPut
  dsimp only
  split
  · rfl
  · refine (State.each_latches _ (fun b s => ?_) _).trans rfl
    split
    · rfl
    · exact (State.logUe_latches _ b 6 lch).trans rfl
@[simp] theorem State.sideWrite_latches (bs : List Byte) : (s.sideWrite c bs).latches = s.latches := by simp [State.sideWrite]
@[simp] theorem State.side_latches (q : Nat) (bs : List Byte) : (s.side c q bs).latches = s.latches := by simp [State.side]
@[simp] theorem State.closeStream_latches : (s.closeStream c b).latches = s.latches := by simp [State.closeStream]
@[simp] theorem State.refreshGates_latches : (s.refreshGates c).latches = s.latches := State.modCh_latches rfl
@[simp] theorem State.genArm_latches : (s.genArm c t).latches = s.latches := by
  refine State.modCh_latches ?_
  split
  · split <;> rfl
  · rfl
@[simp] theorem State.stepOff_latches : (s.stepOff r).latches = s.latches := by
  show State.latches (if _ then State.modCh _ _ _ else _) = _
  split
  · exact State.modCh_latches rfl
  · rfl
@[simp] theorem State.stepDiscard_latches : (s.stepDiscard r).latches = s.latches := by
  unfold State.stepDiscard
  split
  · exact State.stepOff_latches s r
  · rfl
@[simp] theorem State.stepDisturb_latches : (s.stepDisturb c).latches = s.latches := by simp [State.stepDisturb]
@[simp] theorem State.chEv_latches (e : ChEv) (detail : Word) : (s.chEv c e detail).latches = s.latches := by simp [State.chEv]
@[simp] theorem State.flushDac_latches : (s.flushDac c).latches = s.latches := State.modCh_latches rfl
@[simp] theorem State.modLoop_latches (f : LoopSt → LoopSt) : (s.modLoop c f).latches = s.latches := State.modCh_latches rfl
@[simp] theorem State.openEng_latches : (s.openEng c).latches = s.latches := State.modCh_latches rfl
@[simp] theorem State.setSt_latches (x : ChSt) : (s.setSt c x t).latches = s.latches := by
  unfold State.setSt
  dsimp only
  split
  · rfl
  · exact (State.chEvAt_latches ..).trans (State.modCh_latches rfl)
@[simp] theorem State.capPark_latches : (s.capPark c b).latches = s.latches := by simp [State.capPark]
@[simp] theorem State.modRec_latches (q : Nat) (f : Rec → Rec) : (s.modRec c q f).latches = s.latches := State.modCh_latches rfl
@[simp] theorem State.flushGap_latches (q : Nat) (b : Bool) : (s.flushGap c q b).latches = s.latches := by
  unfold State.flushGap
  split <;> simp
@[simp] theorem State.gapTo_latches (q : Nat) (b : Bool) (i : Nat) (cause : Nat) : (s.gapTo c q b i cause).latches = s.latches := by
  unfold State.gapTo
  split <;> simp
@[simp] theorem State.flushRng_latches (q : Nat) (b : Bool) (i : Nat) : (s.flushRng c q b i).latches = s.latches := by
  unfold State.flushRng
  split <;> simp
@[simp] theorem State.finalize_latches : (s.finalize c).latches = s.latches := by
  unfold State.finalize
  split
  · rfl
  · simp only [State.pedQueue_latches, State.modCap_latches]
    exact (State.acq_latches _ _).trans (by simp)
@[simp] theorem State.forwardRes_latches : (s.forwardRes c).latches = s.latches := by
  unfold State.forwardRes
  refine (State.each_latches _ (fun x s => ?_) _).trans (State.modCh_latches rfl)
  dsimp only
  split <;> simp
@[simp] theorem State.finalizeAll_latches : (s.finalizeAll c).latches = s.latches := by simp [State.finalizeAll]
end

/-! ### Comparators of a channel without trip levels latch nothing -/

theorem State.noLevel_of_env {s u : State} (h : u.env = s.env) {c : Ch} (hs : s.noLevel c) : u.noLevel c := fun m => by
  have e : (u.cl (clOf c)).tmem = (s.cl (clOf c)).tmem := by
    have hc := congrArg Cluster.tmem (State.cl_of_env h (clOf c))
    exact hc
  rw [← hs m]
  simp only [State.hasLevel, State.ctl, e]

theorem State.noLevel_of_calm {s u : State} (h : u.calm = s.calm) {c : Ch} (hs : s.noLevel c) : u.noLevel c :=
  State.noLevel_of_env (State.env_of_calm h) hs

theorem State.modTrip_latches {s : State} {c : Ch} {f : TripSt → TripSt} (h : ∀ p, (f p).latch = p.latch) :
    (s.modTrip c f).latches = s.latches := State.modCh_latches (h _)

theorem State.evalCmp_latches (s : State) (c : Ch) (m : Cmp) (t : Nat) (h : s.noLevel c) : (s.evalCmp c m t).latches = s.latches := by
  unfold State.evalCmp
  dsimp only
  rw [h m]
  simp only [Bool.false_eq_true, if_false]
  (repeat' split) <;> simp [State.modTrip_latches]

theorem State.evalTrip_latches (s : State) (c : Ch) (t : Nat) (h : s.noLevel c) : (s.evalTrip c t).latches = s.latches := by
  have all (l : List Cmp) (u : State) (hu : u.noLevel c) : (u.each l fun m s => s.evalCmp c m t).latches = u.latches := by
    induction l generalizing u with
    | nil => rfl
    | cons m l ih => exact (ih _ (State.noLevel_of_calm (State.evalCmp_calm u c t m) hu)).trans (State.evalCmp_latches u c m t hu)
  unfold State.evalTrip
  split
  · rfl
  · exact all _ s h

theorem State.pulseEdgeFx_latches (s : State) (c : Ch) (act : Bool) (t : Nat) (h : s.noLevel c) :
    (s.pulseEdgeFx c act t).latches = s.latches := by
  have win (u : State) (i : Fin 5) (len : Nat) (mask : BitVec 4) (hu : u.noLevel c) : (u.openWin c i t len mask).latches = u.latches := by
    unfold State.openWin
    split
    · rfl
    · rw [State.evalTrip_latches _ c t (State.noLevel_of_calm (State.modTrip_calm ..) hu), State.modTrip_latches (by intro; rfl)]
  have act' : ((s.modCh c fun h => { h with pulseAct := act }).refreshGates c).latches = s.latches :=
    (State.refreshGates_latches ..).trans (State.modCh_latches rfl)
  unfold State.pulseEdgeFx
  refine (win _ _ _ _ (State.noLevel_of_calm ?_ h)).trans act'
  exact (State.refreshGates_calm ..).trans (State.modCh_calm rfl)

theorem State.pulseStart_latches (s : State) (c : Ch) (t : Nat) (h : s.noLevel c) : (s.pulseStart c t).latches = s.latches := by
  have run (p : Option PulseRun) (q : PulseCfg) : (s.modCh c fun h => { h with pulse := p, pulseFrc := some q }).latches = s.latches
      ∧ (s.modCh c fun h => { h with pulse := p, pulseFrc := some q }).noLevel c :=
    ⟨State.modCh_latches rfl, State.noLevel_of_calm (State.modCh_calm rfl) h⟩
  unfold State.pulseStart
  dsimp only
  split
  · exact (State.refreshGates_latches ..).trans (run _ _).1
  · exact (State.pulseEdgeFx_latches _ c _ t (run _ _).2).trans (run _ _).1

theorem State.pulseStop_latches (s : State) (c : Ch) (t : Nat) (h : s.noLevel c) : (s.pulseStop c t).latches = s.latches := by
  have stop : (s.modCh c fun h => { h with pulse := none }).latches = s.latches := State.modCh_latches rfl
  unfold State.pulseStop
  dsimp only
  split
  · exact (State.pulseEdgeFx_latches _ c _ t (State.noLevel_of_calm (State.modCh_calm rfl) h)).trans stop
  · exact stop

theorem State.pulseCheck_latches (s : State) (c : Ch) (t : Nat) (h : s.noLevel c) : (s.pulseCheck c t).latches = s.latches := by
  have seen (x : Bool) : (s.modCh c fun h => { h with pulseSeen := x }).latches = s.latches
      ∧ (s.modCh c fun h => { h with pulseSeen := x }).noLevel c :=
    ⟨State.modCh_latches rfl, State.noLevel_of_calm (State.modCh_calm rfl) h⟩
  unfold State.pulseCheck
  dsimp only
  split
  · split
    · exact (State.pulseStart_latches _ c t (seen true).2).trans (seen true).1
    · exact (seen true).1
  · split
    · exact (State.pulseStop_latches _ c t (seen false).2).trans (seen false).1
    · rfl

theorem State.stimStop_latches (s : State) (c : Ch) (t : Nat) (h : s.noLevel c) : (s.stimStop c t).latches = s.latches := by
  have run (u : State) : (u.modCh c fun h => if h.stimRuns || h.frozen then h else { h with listRun := false }).latches = u.latches
      ∧ (u.modCh c fun h => if h.stimRuns || h.frozen then h else { h with listRun := false }).calm = u.calm := by
    constructor
    · refine State.modCh_latches ?_
      split <;> rfl
    · refine State.modCh_calm ?_
      split <;> rfl
  unfold State.stimStop State.stimFollow
  rw [State.refreshGates_latches, State.genArm_latches, State.pulseCheck_latches, (run _).1, State.genStop_latches]
  exact State.noLevel_of_calm ((run _).2.trans (State.genStop_calm ..)) h

/-! ### A channel that powers up (R477) -/

/-- Channel c in Parked, before its trips are cleared. -/
def State.parking (s : State) (c : Ch) (t : Nat) : State := ((((s.capPark c t).stepDisturb c).setSt c .parked t).openEng c).flushDac c

/-- The trips of a parked channel clear. -/
def Channel.cleared (h : Channel) : Channel := { h with safeStep := false, trip := { h.trip with latch := 0, pend := false } }

theorem State.toParked_eq (s : State) (c : Ch) (t : Nat) :
    s.toParked c t = ((s.parking c t).modCh c Channel.cleared).stimStop c t := rfl

theorem State.parking_calm (s : State) (c : Ch) (t : Nat) : (s.parking c t).calm = (s.putSt c .parked).calm := by
  unfold State.parking
  rw [State.flushDac_calm, State.openEng_calm, State.setSt_calm]
  exact State.calm_putSt ((State.stepDisturb_calm ..).trans (State.capPark_calm ..)) c _

theorem State.cleared_calm (s : State) (c : Ch) : (s.modCh c Channel.cleared).calm = s.calm := State.modCh_calm rfl

theorem State.toParked_calm (s : State) (c : Ch) (t : Nat) : (s.toParked c t).calm = (s.putSt c .parked).calm := by
  rw [State.toParked_eq, State.stimStop_calm, State.cleared_calm, State.parking_calm]

theorem State.toParked_latches (s : State) (c : Ch) (t : Nat) (h : s.noLevel c) :
    (s.toParked c t).latches = s.latches.set c.1 0 c.2 := by
  have before : (s.parking c t).latches = s.latches := by simp [State.parking]
  have quiet : ((s.parking c t).modCh c Channel.cleared).noLevel c :=
    State.noLevel_of_env (State.env_eq ((State.cleared_calm ..).trans (State.parking_calm ..)) (State.env_putSt s c _)) h
  rw [State.toParked_eq, State.stimStop_latches _ _ _ quiet, State.modCh_latches_set, before]
  rfl

/-- The reset values of a channel block at power-up, with its counts from sample boundary k at tick t. -/
def Channel.powerUp (m : BitVec 8) (clr : Bool) (k t : Nat) : Channel :=
  { Channel.reset with
    mode := m, clrActive := clr
    loop := { LoopSt.reset with mark := k, lastB := t }
    convA := { ConvSt.reset .a with mark := k, wmark := k, wts := t }
    convB := { ConvSt.reset .b with mark := k, wmark := k, wts := t } }

/-- Channel c has its reset values. -/
def State.upReset (s : State) (c : Ch) : State :=
  let s := s.finalizeAll c
  s.modCh c fun _ => Channel.powerUp ((s.ch c).modeStored.getD 0) (!s.clrHigh) (s.idxAt c (s.now c)) (s.now c)

/-- Channel c has its first output and its comparators. -/
def State.upOut (s : State) (c : Ch) (v : Code) (unres act : BitVec 4) : State :=
  (s.modCh c fun h => { h with dac := v, fout := v }).modTrip c fun p => { p with active := act, unres := unres }

theorem State.upCh_eq (s : State) (c : Ch) (unres act : BitVec 4) : ∃ t v u,
    u = ((s.upReset c).toParked c t).upOut c v unres act ∧ s.upCh c unres act = (u.evalTrip c (u.now c)).refreshGates c :=
  ⟨_, _, _, rfl, rfl⟩

theorem State.upOut_calm (s : State) (c : Ch) (v : Code) (unres act : BitVec 4) : (s.upOut c v unres act).calm = s.calm :=
  (State.modTrip_calm ..).trans (State.modCh_calm rfl)

theorem State.upOut_latches (s : State) (c : Ch) (v : Code) (unres act : BitVec 4) : (s.upOut c v unres act).latches = s.latches := by
  unfold State.upOut
  rw [State.modTrip_latches (by intro; rfl)]
  exact State.modCh_latches rfl

/-- A channel that powers up, of its core: Parked in the mode that was stored for it, everything else at reset. -/
def upCore (h : Channel) : Channel := { Channel.reset with st := .parked, mode := h.modeStored.getD 0 }

theorem onCore_upCore : OnCore upCore := fun x y e => by
  have hm : x.modeStored = y.modeStored := by
    have h := congrArg Channel.modeStored e
    exact h
  unfold upCore
  rw [hm]

/-- Of what an update makes of a channel, the core alone counts for `calm`. -/
theorem State.calm_modCh_eq (s : State) (c : Ch) {f g : Channel → Channel} (h : (f (s.ch c)).core = (g (s.ch c)).core) :
    (s.modCh c f).calm = (s.modCh c g).calm := by
  have e (f : Channel → Channel) : (s.modCh c f).calm = { s.calm with chan := s.calm.chan.set c.1 (f (s.ch c)).core c.2 } :=
    congrArg (fun v => { s.calm with chan := v }) (Vector.map_set ..)
  rw [e, e, h]

theorem State.upReset_park (s : State) (c : Ch) : ((s.upReset c).putSt c .parked).calm = (s.modCh c upCore).calm := by
  have e : ((s.upReset c).putSt c .parked).calm = ((s.finalizeAll c).modCh c upCore).calm := by
    unfold State.upReset State.putSt
    rw [State.modCh_modCh]
    exact State.calm_modCh_eq _ c rfl
  rw [e]
  exact State.calm_modCh (State.finalizeAll_calm s c) c onCore_upCore

theorem State.upCh_calm (s : State) (c : Ch) (unres act : BitVec 4) : (s.upCh c unres act).calm = (s.modCh c upCore).calm := by
  obtain ⟨t, v, u, hu, e⟩ := State.upCh_eq s c unres act
  rw [e, State.refreshGates_calm, State.evalTrip_calm, hu, State.upOut_calm, State.toParked_calm, State.upReset_park]

theorem State.upCh_latches (s : State) (c : Ch) (unres act : BitVec 4) (h : s.noLevel c) :
    (s.upCh c unres act).latches = s.latches.set c.1 0 c.2 := by
  obtain ⟨t, v, u, hu, e⟩ := State.upCh_eq s c unres act
  have reset : (s.upReset c).noLevel c := State.noLevel_of_calm (State.finalizeAll_calm s c) h
  have up : u.noLevel c := by
    rw [hu]
    refine State.noLevel_of_env (State.env_eq ((State.upOut_calm ..).trans (State.toParked_calm ..)) ?_) reset
    exact State.env_putSt ..
  have first : (s.upReset c).latches = s.latches.set c.1 0 c.2 :=
    (State.modCh_latches_set ..).trans (congrArg (fun v => v.set c.1 0 c.2) (State.finalizeAll_latches s c))
  rw [e, State.refreshGates_latches, State.evalTrip_latches _ _ _ up, hu, State.upOut_latches, State.toParked_latches _ _ _ reset, first,
    Vector.set_set]

/-! ### A region that powers up -/

/-- Region r and what follows it before its channels power up (R477 steps 2 to 5). -/
def State.upBlocks (s : State) (r : Rg) (x : Nat × Nat) : State :=
  let s := (s.dieStart (dieOfRg r)).modRg r fun g => g.powerUp x.1 x.2
  let s := { s with aon := { s.aon with sclk := s.aon.sclk.set r.1 x r.2 } }
  s.each (clsOfRg r) fun n s => s.modCl n Cluster.powerUp

/-- A physical channel powers up. -/
def State.upPhys (s : State) (p : Ch) : State := { s with phys := s.phys.set p.1 (s.phys.get p).powerUp p.2 }

theorem State.upPhys_clus (p : Ch) (s : State) : (s.upPhys p).clus = s.clus := rfl

/-- Region r before its channels power up. -/
def State.upReady (s : State) (r : Rg) (x : Nat × Nat) : State := (s.upBlocks r x).each (chsOfRg r) fun p s => s.upPhys p

/-- The channels of region r power up. -/
def State.upChs (s : State) (r : Rg) (unres act : BitVec 64) : State :=
  s.each (chsOfRg r) fun c s => s.upCh c (unres.extractLsb' (4 * (c.1 % 16)) 4) (act.extractLsb' (4 * (c.1 % 16)) 4)

theorem State.upEnd_eq (s : State) (r : Rg) (unres act : BitVec 64) : s.upEnd r unres act =
    (((s.upReady r (s.upClock r)).upChs r unres act).raiseHub 97
      (wd (r.1 + at_ (s.upClock r).1 8 + at_ (s.upClock r).2 16))).pstateFollow := by
  simp only [State.upEnd, State.upReady, State.upBlocks, State.upChs, State.upPhys]

/-! Before the channels -/

theorem State.dieStart_frame {β : Type} (g : State → β) (hd : ∀ s d f, g (State.modDie s d f) = g s)
    (hcl : ∀ s n f, g (State.modCl s n f) = g s) (ht : ∀ (s : State) v, g { s with dieTick := v } = g s) (hu : ∀ s, g (State.used s) = g s)
    (s : State) (d : Die) : g (s.dieStart d) = g s := by
  unfold State.dieStart
  split
  · rfl
  · unfold State.freePhases
    rw [State.each_frame g _ fun n s => (hu _).trans (hcl ..), ht, hd]

/-- A change that a region's blocks take beside their clusters. -/
theorem State.upReady_frame {β : Type} (g : State → β) (hd : ∀ s d f, g (State.modDie s d f) = g s)
    (hcl : ∀ s n f, g (State.modCl s n f) = g s) (ht : ∀ (s : State) v, g { s with dieTick := v } = g s) (hu : ∀ s, g (State.used s) = g s)
    (hrg : ∀ s r f, g (State.modRg s r f) = g s) (ha : ∀ (s : State) v, g { s with aon := { s.aon with sclk := v } } = g s)
    (hp : ∀ (s : State) v, g { s with phys := v } = g s) (s : State) (r : Rg) (x : Nat × Nat) : g (s.upReady r x) = g s := by
  unfold State.upReady State.upBlocks
  refine (State.each_frame g _ (fun p s => hp s _) _).trans ((State.each_frame g _ (fun n s => hcl s n _) _).trans ?_)
  exact (ha _ _).trans ((hrg _ _ _).trans (State.dieStart_frame g hd hcl ht hu s _))

theorem State.upReady_chan (s : State) (r : Rg) (x : Nat × Nat) : (s.upReady r x).chan = s.chan :=
  State.upReady_frame State.chan (fun _ _ _ => rfl) (fun _ _ _ => rfl) (fun _ _ => rfl) (fun _ => rfl) (fun _ _ _ => rfl)
    (fun _ _ => rfl) (fun _ _ => rfl) s r x

theorem State.upReady_hotLock (s : State) (r : Rg) (x : Nat × Nat) : (s.upReady r x).hotLock = s.hotLock :=
  State.upReady_frame State.hotLock (fun _ _ _ => rfl) (fun _ _ _ => rfl) (fun _ _ => rfl) (fun _ => rfl) (fun _ _ _ => rfl)
    (fun _ _ => rfl) (fun _ _ => rfl) s r x

theorem State.upReady_remap (s : State) (r : Rg) (x : Nat × Nat) : (s.upReady r x).aon.remap = s.aon.remap :=
  State.upReady_frame (fun s => s.aon.remap) (fun _ _ _ => rfl) (fun _ _ _ => rfl) (fun _ _ => rfl) (fun _ => rfl) (fun _ _ _ => rfl)
    (fun _ _ => rfl) (fun _ _ => rfl) s r x

theorem State.upReady_supplies (s : State) (r : Rg) (x : Nat × Nat) : (s.upReady r x).supplies = s.supplies :=
  State.upReady_frame State.supplies (fun _ _ _ => rfl) (fun _ _ _ => rfl) (fun _ _ => rfl) (fun _ => rfl) (fun _ _ _ => rfl)
    (fun _ _ => rfl) (fun _ _ => rfl) s r x

/-- The region and its clock, once the region has its power. -/
theorem State.upReady_rg (s : State) (r : Rg) (x : Nat × Nat) :
    (s.upReady r x).rg r = (s.rg r).powerUp x.1 x.2 ∧ (s.upReady r x).aon.sclk.get r = x := by
  have start : (s.dieStart (dieOfRg r)).rgn = s.rgn :=
    State.dieStart_frame State.rgn (fun _ _ _ => rfl) (fun _ _ _ => rfl) (fun _ _ => rfl) (fun _ => rfl) s _
  have blocks {β : Type} (g : State → β) (hcl : ∀ s n f, g (State.modCl s n f) = g s) (hp : ∀ (s : State) v, g { s with phys := v } = g s) :
      g (s.upReady r x) = g { (s.dieStart (dieOfRg r)).modRg r (fun g => g.powerUp x.1 x.2) with
        aon := { (s.dieStart (dieOfRg r)).aon with sclk := (s.dieStart (dieOfRg r)).aon.sclk.set r.1 x r.2 } } := by
    unfold State.upReady State.upBlocks
    exact (State.each_frame g _ (fun p s => hp s _) _).trans (State.each_frame g _ (fun n s => hcl s n _) _)
  constructor
  · rw [State.rg, blocks State.rgn (fun _ _ _ => rfl) fun _ _ => rfl]
    refine (vget_set ..).trans ((if_pos rfl).trans ?_)
    rw [start]
    rfl
  · rw [blocks (fun s => s.aon.sclk) (fun _ _ _ => rfl) fun _ _ => rfl]
    exact (vget_set ..).trans (if_pos rfl)

theorem Cluster.powerUp_tmem (k : Cluster) : k.powerUp.tmem = tmemReset k.tmem := by simp only [Cluster.powerUp]

theorem State.upReady_tmem (s : State) (r : Rg) (x : Nat × Nat) (n : Cl) (h : n ∈ clsOfRg r) :
    ∃ m, ((s.upReady r x).cl n).tmem = tmemReset m := by
  have clus : (s.upReady r x).clus = (s.upBlocks r x).clus := State.each_frame State.clus _ State.upPhys_clus _
  have up (n m : Cl) (s : State) (hs : ∃ k, (s.cl n).tmem = tmemReset k) : ∃ k, ((s.modCl m Cluster.powerUp).cl n).tmem = tmemReset k := by
    by_cases e : n = m
    · rw [e, State.cl_modCl_self]
      exact ⟨_, Cluster.powerUp_tmem _⟩
    · rwa [State.cl_modCl_ne _ _ e]
  rw [State.cl, clus]
  refine State.each_all (fun n s => ∃ k, (State.cl s n).tmem = tmemReset k) _ (fun n s => ?_) (fun n m s hs => up n m s hs) _ n h
  rw [State.cl_modCl_self]
  exact ⟨_, Cluster.powerUp_tmem _⟩

theorem rgOfCl_clOf (c : Ch) : rgOfCl (clOf c) = rgOf c := Fin.ext (by simp only [rgOfCl, clOf, rgOf]; omega)

theorem rgOf_of_mem {c : Ch} {r : Rg} (h : c ∈ chsOfRg r) : rgOf c = r := by
  obtain ⟨k, -, rfl⟩ := List.mem_map.1 h
  exact Fin.ext (by simp only [rgOf]; omega)

theorem State.upReady_noLevel (s : State) (r : Rg) (x : Nat × Nat) (c : Ch) (h : c ∈ chsOfRg r) : (s.upReady r x).noLevel c := by
  have hn : clOf c ∈ clsOfRg r := by
    rw [← rgOf_of_mem h, ← rgOfCl_clOf]
    exact mem_clsOfRg _
  obtain ⟨m, hm⟩ := State.upReady_tmem s r x _ hn
  exact State.noLevel_of_tmem hm

theorem State.upBlocks_phys (s : State) (r : Rg) (x : Nat × Nat) : (s.upBlocks r x).phys = s.phys := by
  unfold State.upBlocks
  refine (State.each_frame State.phys _ (f := fun n s => s.modCl n Cluster.powerUp) (fun _ _ => rfl) _).trans ?_
  exact State.dieStart_frame State.phys (fun _ _ _ => rfl) (fun _ _ _ => rfl) (fun _ _ => rfl) (fun _ => rfl) s _

theorem State.upPhys_phys (s : State) (p q : Ch) : (s.upPhys p).phys.get q = if p = q then (s.phys.get p).powerUp else s.phys.get q :=
  vget_set ..

/-- The trims of the region's physical channels come from the always-on domain (R318). -/
theorem State.upReady_trims (s : State) (r : Rg) (x : Nat × Nat) (p : Ch) (h : p ∈ chsOfRg r) :
    ((s.upReady r x).phys.get p).trims = (s.phys.get p).aonTrims := by
  have aon (u : State) (q : Ch) : ((u.upPhys q).phys.get p).aonTrims = (u.phys.get p).aonTrims := by
    rw [State.upPhys_phys]
    split
    next e => rw [e]; rfl
    · rfl
  have trims : ((s.upReady r x).phys.get p).trims = ((s.upReady r x).phys.get p).aonTrims := by
    refine State.each_all (fun p s => (s.phys.get p).trims = (s.phys.get p).aonTrims) _ (fun p s => ?_) (fun p q s hs => ?_) _ p h
    · rw [State.upPhys_phys, if_pos rfl]
      rfl
    · rw [State.upPhys_phys]
      split
      · rfl
      · exact hs
  rw [trims]
  unfold State.upReady
  refine (State.each_frame (fun s => (s.phys.get p).aonTrims) _ (fun q s => aon s q) _).trans ?_
  rw [State.upBlocks_phys]

/-! The channels -/

theorem State.upChs_env (s : State) (r : Rg) (unres act : BitVec 64) : (s.upChs r unres act).env = s.env :=
  State.env_each _ (fun c s => State.env_eq (State.upCh_calm s c _ _) (State.modCh_env ..)) s

theorem State.upChs_core (s : State) (r : Rg) (unres act : BitVec 64) (c : Ch) (h : c ∈ chsOfRg r) :
    ((s.upChs r unres act).ch c).core = (upCore (s.ch c)).core :=
  (State.core_each onCore_upCore (fun c s => State.upCh_calm s c _ _) _ (nodup_chsOfRg r) s).1 c h

theorem State.each_cons {α : Type} (s : State) (a : α) (l : List α) (f : α → State → State) : s.each (a :: l) f = (f a s).each l f := rfl

/-- Channels that power up without trip levels hold no latch after it. -/
theorem State.latches_upEach (un ac : Ch → BitVec 4) (l : List Ch) (s : State) (h : ∀ c ∈ l, s.noLevel c) (c : Ch)
    (hc : c ∈ l ∨ s.latches.get c = 0) : (s.each l fun c s => s.upCh c (un c) (ac c)).latches.get c = 0 := by
  induction l generalizing s with
  | nil => exact hc.resolve_left List.not_mem_nil
  | cons a l ih =>
    have e := State.upCh_latches s a (un a) (ac a) (h a List.mem_cons_self)
    have env : (s.upCh a (un a) (ac a)).env = s.env := State.env_eq (State.upCh_calm s a _ _) (State.modCh_env ..)
    rw [State.each_cons]
    refine ih (s.upCh a (un a) (ac a)) (fun d hd => State.noLevel_of_env env (h d (List.mem_cons_of_mem _ hd))) ?_
    rw [e, vget_set]
    rcases hc with hc | hc
    · rcases List.mem_cons.1 hc with rfl | hc
      · exact .inr (if_pos rfl)
      · exact .inl hc
    · right
      rw [hc, ite_self]

theorem State.upChs_latch (s : State) (r : Rg) (unres act : BitVec 64) (h : ∀ c ∈ chsOfRg r, s.noLevel c) (c : Ch)
    (hc : c ∈ chsOfRg r) : ((s.upChs r unres act).ch c).trip.latch = 0 := by
  have e : (s.upChs r unres act).latches.get c = 0 := by
    unfold State.upChs
    exact State.latches_upEach (fun c => unres.extractLsb' (4 * (c.1 % 16)) 4) (fun c => act.extractLsb' (4 * (c.1 % 16)) 4) _ s h c
      (.inl hc)
  exact (State.latches_get ..).symm.trans e

end Sys2Proof.Machine
end

section
/-! PROOFS. The rows of a region (19.2 to 19.6), and the obligation about them. -/

namespace Sys2Proof.Machine

/-! ### What a region row leaves, beside the event fabric -/

theorem State.supplies_of_bare {s u : State} (h : u.bare = s.bare) : u.supplies = s.supplies := by
  have e := congrArg State.supplies h
  exact e
theorem State.hotLock_of_bare {s u : State} (h : u.bare = s.bare) : u.hotLock = s.hotLock := by
  have e := congrArg State.hotLock h
  exact e
theorem State.remap_of_apart {s u : State} (h : u.apart = s.apart) : u.aon.remap = s.aon.remap := by
  have e := congrArg (fun x => x.aon.remap) h
  exact e
theorem State.phys_of_apart {s u : State} (h : u.apart = s.apart) : u.phys = s.phys := by
  have e := congrArg State.phys h
  exact e

/-- What two regions of the same core share. -/
theorem Region.fields_of_core {x y : Region} (h : x.core = y.core) : x.on = y.on ∧ x.seqUp = y.seqUp ∧ x.clkOk = y.clkOk
    ∧ x.refOk = y.refOk ∧ (x.p, x.q) = (y.p, y.q) ∧ x.relock = y.relock := by
  simp only [Region.core, Region.mk.injEq] at h
  simp only [Prod.mk.injEq]
  tauto

/-- Region r powers up, and what waits for it goes on (R477). -/
def State.upAll (s : State) (r : Rg) (unres act : BitVec 64) : State := (s.upEnd r unres act).upNext.upDone

/-- Region r with its channels, before the rest of the row. -/
def State.upDie (s : State) (r : Rg) (unres act : BitVec 64) : State := (s.upReady r (s.upClock r)).upChs r unres act

theorem State.upEnd_bare (s : State) (r : Rg) (unres act : BitVec 64) : (s.upEnd r unres act).bare = (s.upDie r unres act).bare := by
  rw [State.upEnd_eq, State.bare_pstateFollow, State.bare_raiseHub]
  rfl

theorem State.upEnd_hotLock (s : State) (r : Rg) (unres act : BitVec 64) : (s.upEnd r unres act).hotLock = s.hotLock :=
  (State.hotLock_of_bare (State.upEnd_bare ..)).trans ((State.hotLock_of_env (State.upChs_env ..)).trans (State.upReady_hotLock ..))

theorem State.upEnd_supplies (s : State) (r : Rg) (unres act : BitVec 64) : (s.upEnd r unres act).supplies = s.supplies :=
  (State.supplies_of_bare (State.upEnd_bare ..)).trans ((State.supplies_of_env (State.upChs_env ..)).trans (State.upReady_supplies ..))

theorem State.rgSupBad_congr {s u : State} (h : u.supplies = s.supplies) : u.rgSupBad = s.rgSupBad := by
  simp only [State.rgSupBad, State.supOk, h]

theorem State.upDone_apart (s : State) : s.upDone.apart = s.apart := by
  unfold State.upDone
  split
  · rfl
  · exact State.okAll_apart s _

theorem State.upAll_apart (s : State) (r : Rg) (unres act : BitVec 64) (hs : s.rgSupBad = 0) :
    (s.upAll r unres act).settle.apart = (s.upDie r unres act).apart := by
  have sup : (s.upEnd r unres act).rgSupBad = 0 := (State.rgSupBad_congr (State.upEnd_supplies ..)).trans hs
  rw [State.apart_congr (State.bare_settle _), State.upAll, State.upDone_apart, State.upNext, if_pos sup]
  exact State.apart_congr (State.upEnd_bare ..)

/-- What the event of a region's power-up does. -/
def State.upEvent (s : State) (r : Rg) (unres act : BitVec 64) : State :=
  if s.upFirst = some r ∧ s.rgSupBad = 0 then
    (if (s.upEnd r unres act).hotLock then (s.upEnd r unres act).thermalDown r else s.upEnd r unres act).upNext.upDone
  else s

theorem exec_regionUp (s : State) (tk : Nat) (r : Rg) (unres act : BitVec 64) :
    exec (.regionUp tk r unres act) s = .next (s.eventAt tk fun s => s.upEvent r unres act) := rfl

theorem State.upEvent_upAll (s : State) (r : Rg) (unres act : BitVec 64) (hf : s.upFirst = some r) (hs : s.rgSupBad = 0)
    (hl : s.hotLock = false) : s.upEvent r unres act = s.upAll r unres act := by
  rw [State.upEvent, if_pos ⟨hf, hs⟩, if_neg (by rw [State.upEnd_hotLock, hl]; exact Bool.false_ne_true), State.upAll]

theorem State.upFirst_congr {s u : State} (h : u.rgn = s.rgn) : u.upFirst = s.upFirst := by
  simp only [State.upFirst, State.rg, h]

theorem rgOf_chOf (n : Cl) (k : Fin 8) : rgOf (chOf n k) = rgOfCl n := Fin.ext (by simp only [rgOf, chOf, rgOfCl]; omega)

theorem State.physOf_mem (s : State) {c : Ch} {r : Rg} (h : c ∈ chsOfRg r) : s.physOf c ∈ chsOfRg r := by
  have e : rgOf (s.physOf c) = r := (rgOf_chOf ..).trans ((rgOfCl_clOf c).trans (rgOf_of_mem h))
  rw [← e]
  exact mem_chsOfRg _

theorem State.physOf_congr {s u : State} (h : u.aon.remap = s.aon.remap) (c : Ch) : u.physOf c = s.physOf c := by
  simp only [State.physOf, State.physPos, h]

/-- A region that has powered up, and its clock (R477 steps 3 and 4). -/
theorem State.upAll_rg (s : State) (r : Rg) (unres act : BitVec 64) (hs : s.rgSupBad = 0) :
    (((s.upAll r unres act).settle.rg r).core = ((s.rg r).powerUp (s.upClock r).1 (s.upClock r).2).core)
    ∧ (s.upAll r unres act).settle.aon.sclk.get r = s.upClock r := by
  have ap := State.upAll_apart s r unres act hs
  have env : (s.upDie r unres act).env = (s.upReady r (s.upClock r)).env := State.upChs_env ..
  obtain ⟨hr, hk⟩ := State.upReady_rg s r (s.upClock r)
  constructor
  · rw [State.rg, State.rgn_of_apart ap, ← hr]
    exact State.rg_of_env env r
  · rw [State.sclk_of_apart ap, State.sclk_of_env env, hk]

/-- A channel of a region that has powered up: Parked at its reset values, without a latched trip (R477 steps 6 and 7). -/
theorem State.upAll_ch (s : State) (r : Rg) (unres act : BitVec 64) (hs : s.rgSupBad = 0) (c : Ch) (hc : c ∈ chsOfRg r) :
    ((s.upAll r unres act).settle.ch c).core = (upCore (s.ch c)).core ∧ ((s.upAll r unres act).settle.ch c).trip.latch = 0 := by
  have after : (s.upAll r unres act).settle.ch c = (s.upDie r unres act).ch c :=
    congrArg (fun v => v.get c) (State.chan_of_apart (State.upAll_apart s r unres act hs))
  have before : (s.upReady r (s.upClock r)).ch c = s.ch c := congrArg (fun v => v.get c) (State.upReady_chan s r (s.upClock r))
  rw [after, State.upDie]
  constructor
  · rw [State.upChs_core _ r unres act c hc, before]
  · exact State.upChs_latch _ r unres act (fun d hd => State.upReady_noLevel s r _ d hd) c hc

/-- What two channels of the same core share. -/
theorem Channel.fields_of_core {x y : Channel} (h : x.core = y.core) : x.st = y.st ∧ x.mode = y.mode ∧ x.coef = y.coef
    ∧ x.setpoint = y.setpoint ∧ x.vlimH = y.vlimH ∧ x.vlimL = y.vlimL := by
  simp only [Channel.core, Channel.mk.injEq] at h
  tauto

/-- The trims that serve a channel of a region that has powered up (R318). -/
theorem State.upAll_trims (s : State) (r : Rg) (unres act : BitVec 64) (hs : s.rgSupBad = 0) (c : Ch) (hc : c ∈ chsOfRg r) :
    ((s.upAll r unres act).settle.ph c).trims = (s.ph c).aonTrims := by
  have ap := State.upAll_apart s r unres act hs
  have env : (s.upDie r unres act).env = (s.upReady r (s.upClock r)).env := State.upChs_env ..
  have map : (s.upAll r unres act).settle.aon.remap = s.aon.remap :=
    (State.remap_of_apart ap).trans ((State.remap_of_env env).trans (State.upReady_remap ..))
  rw [State.ph, State.physOf_congr map, State.phys_of_apart ap, State.phys_of_env env]
  exact State.upReady_trims s r _ _ (State.physOf_mem s hc)

/-- What a region leaves that powers down, its row ended (R478). -/
theorem State.downEnd_settle (s : State) (r : Rg) :
    ((s.downEnd r).settle.rg r) = (s.rg r).powerDown ∧ ∀ n, (s.downEnd r).settle.cl n = (s.rgOut r).cl n := by
  obtain ⟨hr, hc⟩ := State.downEnd_bare s r
  refine ⟨?_, fun n => ?_⟩
  · rw [State.rg, State.rgn_of_bare (State.bare_settle _), hr]
    exact State.rgOut_rg s r
  · rw [State.cl, State.clus_of_bare (State.bare_settle _), hc]
    rfl

/-! ### A clock that returns (R15) -/

/-- What the event of a sample clock's return does. -/
def State.backEvent (s : State) (r : Rg) : State :=
  if !(s.rg r).on || (s.rg r).clkOk || (s.rg r).relock.isSome || s.rgSupBad ≠ 0 then s
  else (s.modRg r fun g => { g with clkOk := true }).each (chsOfRg r) fun c u =>
    if (u.ch c).st == .off then u
    else if (s.rg r).seqDown then ((u.convBack c .a (u.now c)).convBack c .b (u.now c)).downCh c
    else (u.convBack c .a (u.now c)).convBack c .b (u.now c)

theorem exec_sampleClockReturn (s : State) (tk : Nat) (r : Rg) :
    exec (.sampleClockReturn tk r) s = .next (s.eventAt tk fun s => s.backEvent r) := rfl

theorem State.backEvent_rgBack (s : State) (r : Rg) (ho : (s.rg r).on = true) (hk : (s.rg r).clkOk = false)
    (hn : (s.rg r).relock = none) (hs : s.rgSupBad = 0) (hd : (s.rg r).seqDown = false) : s.backEvent r = s.rgBack r := by
  rw [State.backEvent, if_neg (by simp [ho, hk, hn, hs])]
  simp only [hd, Bool.false_eq_true, if_false]
  rfl

theorem State.rgBack_settle (s : State) (r : Rg) :
    ((s.rgBack r).settle.rg r).clkOk = true ∧ ∀ c, ((s.rgBack r).settle.ch c).st = (s.ch c).st := by
  have calm : (s.rgBack r).settle.calm = (s.modRg r fun g => { g with clkOk := true }).calm :=
    (State.settle_calm _).trans (State.rgBack_calm s r)
  have core := State.rg_of_env (State.env_of_calm calm) r
  rw [State.rg_modRg_self] at core
  obtain ⟨-, -, clk, -⟩ := Region.fields_of_core core
  exact ⟨clk, fun c => (State.st_of_calm calm c).trans rfl⟩

/-! ### A relocked region (R470) -/

/-- The items of region r that wait for its lock. -/
def State.lockItems (s : State) (r : Rg) : List Pkt := s.items.filter fun p => p.hdr.type == 0x48 && destRg p.hdr == r && s.stage p == 1

/-- A lock ends the items that wait for it. -/
def State.locked (s : State) (r : Rg) (y : Nat × Nat) : State := (s.relockEnd r y.1 y.2).okAll ((s.relockEnd r y.1 y.2).lockItems r)

theorem State.relockEnd_env (s : State) (r : Rg) (p q : Nat) : (s.relockEnd r p q).env = (s.newClock r p q).env :=
  State.env_of_calm (State.relockEnd_calm ..)

theorem State.locked_rg (s : State) (r : Rg) (y : Nat × Nat) :
    ((s.locked r y).settle.rg r).core = ({ s.rg r with p := y.1, q := y.2, clkOk := true, relock := none } : Region).core
    ∧ (s.locked r y).settle.aon.sclk.get r = y := by
  have ap : (s.locked r y).settle.apart = (s.relockEnd r y.1 y.2).apart :=
    (State.apart_congr (State.bare_settle _)).trans (State.okAll_apart ..)
  have env := State.relockEnd_env s r y.1 y.2
  constructor
  · rw [State.rg, State.rgn_of_apart ap]
    refine (State.rg_of_env env r).trans (congrArg Region.core ?_)
    exact State.rg_modRg_self s r fun g => { g with p := y.1, q := y.2, clkOk := true, relock := none }
  · rw [State.sclk_of_apart ap, State.sclk_of_env env]
    exact (vget_set ..).trans (if_pos rfl)

/-- What the event of a lock does. -/
def State.lockEvent (s : State) (r : Rg) : State :=
  match (s.rg r).relock with
  | some y => s.locked r y
  | none => s

theorem exec_sclkLocked (s : State) (tk : Nat) (r : Rg) :
    exec (.sclkLocked tk r) s = .next (s.eventAt tk fun s => s.lockEvent r) := rfl

theorem State.lockEvent_locked (s : State) (r : Rg) (y : Nat × Nat) (h : (s.rg r).relock = some y) : s.lockEvent r = s.locked r y := by
  unfold State.lockEvent
  rw [h]

/-- What a packet completes after time has advanced it completes before. -/
theorem State.completed_advance {s u : State} {tk : Nat} {p : Pkt} {status code : Byte} {res0 : Word} {res1 : DWord} {pay : List Byte}
    (h : (s.advance tk).completed u p status code res0 res1 pay) : s.completed u p status code res0 res1 pay := by
  have out : s.Out (s.advance tk) := State.out_of_eq (by unfold State.advance; split <;> rfl) (by unfold State.advance; split <;> rfl)
  have items : (s.advance tk).items = s.items := State.items_of_env (State.env_of_calm (State.advance_calm s tk))
  obtain ⟨hi, ho⟩ := h
  exact ⟨items ▸ hi, State.sent.before ho out⟩

theorem State.lockItems_congr {s u : State} (hi : u.items = s.items) (hj : u.journal = s.journal) (r : Rg) :
    u.lockItems r = s.lockItems r := by
  simp only [State.lockItems, State.stage, hi, hj]

theorem State.locked_completed (s : State) (r : Rg) (y : Nat × Nat) :
    ∀ p ∈ s.lockItems r, s.completed (s.locked r y).settle p 0 0 0 0 [] := by
  have env := State.relockEnd_env s r y.1 y.2
  have hi : (s.relockEnd r y.1 y.2).items = s.items := (State.items_of_env env).trans rfl
  have hj : (s.relockEnd r y.1 y.2).journal = s.journal := (State.journal_of_env env).trans rfl
  rw [State.locked, State.lockItems_congr hi hj]
  exact State.completed_okAll s _ _ (State.out_relockEnd ..) hi fun p hp => List.mem_of_mem_filter hp

/-! ### A thermal sample (R484) -/

/-- The sensor of region r reads temp. -/
def Region.sense (temp : Int) (g : Region) : Region :=
  { g with temp := temp, warned := decide (105 ≤ temp), cool := g.cool || decide (temp < 95) }

/-- A thermal sample is recorded, and its warning goes out. -/
def State.warn (s : State) (r : Rg) (temp : Int) : State :=
  if decide (105 ≤ temp) && !(s.rg r).warned && (s.rg r).on then
    (s.modRg r (Region.sense temp)).raiseHub 101 (wd (r.1 + at_ (ifld 8 temp) 8))
  else s.modRg r (Region.sense temp)

/-- The lockout of a thermal shutdown. -/
def State.lockHot (s : State) : State := { s with hotLock := true, rgn := s.rgn.map fun g => { g with cool := false } }

/-- The lockout ends once every region has been cool. -/
def State.endHot (s : State) : State := if s.rgn.toList.all Region.cool then { s with hotLock := false } else s

/-- A thermal sample from the shutdown temperature on. -/
def State.shutHot (s : State) (r : Rg) (temp : Int) : State :=
  (s.warn r temp).lockHot.thermalAll.raiseHub 102 (wd (r.1 + at_ (ifld 8 temp) 8))

/-- What the event of a thermal sample does. -/
def State.thermal (s : State) (r : Rg) (temp : Int) : State :=
  if !(s.rg r).on && !s.hotLock then s
  else (if 120 ≤ temp ∧ (s.rg r).on ∧ !(s.rg r).seqDown then s.shutHot r temp else s.warn r temp).endHot

theorem exec_thermalSample (s : State) (tk : Nat) (r : Rg) (temp : Int) :
    exec (.thermalSample tk r temp) s = .next (s.eventAt tk fun s => s.thermal r temp) := rfl

theorem State.warn_bare (s : State) (r : Rg) (temp : Int) : (s.warn r temp).bare = (s.modRg r (Region.sense temp)).bare := by
  unfold State.warn
  split
  · exact State.bare_raiseHub ..
  · rfl

theorem State.warn_rg (s : State) (r x : Rg) (temp : Int) :
    (s.warn r temp).rg x = if x = r then (s.rg r).sense temp else s.rg x := by
  rw [State.rg, State.rgn_of_bare (State.warn_bare s r temp)]
  split
  next e => rw [e]; exact State.rg_modRg_self s r _
  next e => exact State.rg_modRg_ne s _ e

theorem State.warn_hotLock (s : State) (r : Rg) (temp : Int) : (s.warn r temp).hotLock = s.hotLock :=
  (State.hotLock_of_bare (State.warn_bare s r temp)).trans rfl

theorem State.endHot_of_not (s : State) (h : s.hotLock = false) : s.endHot = s := by
  unfold State.endHot
  split
  · rw [← h]
  · rfl

theorem State.endHot_of_hot (s : State) (r : Rg) (h : (s.rg r).cool = false) : s.endHot = s := by
  refine if_neg fun hall => ?_
  have hr := List.all_eq_true.1 hall (s.rg r) (by simp [State.rg, Vector.get])
  simp [h] at hr

theorem State.endHot_of_cool (s : State) (h : ∀ x, (s.rg x).cool = true) : s.endHot = { s with hotLock := false } := by
  refine if_pos (List.all_eq_true.2 fun g hg => ?_)
  obtain ⟨i, hi, rfl⟩ := Vector.getElem_of_mem (Vector.mem_toList_iff.1 hg)
  exact h ⟨i, hi⟩

/-- A sample below the shutdown temperature, outside a lockout. -/
theorem State.thermal_calmly (s : State) (r : Rg) (temp : Int) (ho : (s.rg r).on = true) (hl : s.hotLock = false) (ht : temp < 120) :
    (s.thermal r temp).bare = (s.modRg r (Region.sense temp)).bare := by
  rw [State.thermal, if_neg (by simp [ho]), if_neg (by omega), State.endHot_of_not _ ((State.warn_hotLock ..).trans hl), State.warn_bare]

theorem State.lockHot_rg (s : State) (x : Rg) : s.lockHot.rg x = { s.rg x with cool := false } := vget_map ..

theorem State.thermal_shut (s : State) (r : Rg) (temp : Int) (ho : (s.rg r).on = true) (hd : (s.rg r).seqDown = false) (ht : 120 ≤ temp) :
    (s.thermal r temp).calm = (s.warn r temp).lockHot.thermalAll.calm := by
  have sinks := State.sinks_thermalAll (s.warn r temp).lockHot
  have raised : (s.shutHot r temp).calm = (s.warn r temp).lockHot.thermalAll.calm := State.raiseHub_calm ..
  have hot : ((s.shutHot r temp).rg r).cool = false := by
    rw [(State.sinks_of_env (State.env_of_calm raised)).cool, sinks.cool, State.lockHot_rg]
  rw [State.thermal, if_neg (by simp [ho]), if_pos ⟨ht, ho, by simp [hd]⟩, State.endHot_of_hot _ r hot, raised]

/-- A shutdown: the lockout holds, every powered region is on its way down, no thread runs. -/
theorem State.thermal_shut_settle (s : State) (r : Rg) (temp : Int) (ho : (s.rg r).on = true) (hd : (s.rg r).seqDown = false)
    (ht : 120 ≤ temp) : (s.thermal r temp).settle.hotLock = true
      ∧ (∀ x, (s.rg x).on = true → ((s.thermal r temp).settle.rg x).seqDown = true)
      ∧ ∀ t, ((s.thermal r temp).settle.th t).busy = false := by
  have env : (s.thermal r temp).settle.env = (s.warn r temp).lockHot.thermalAll.env :=
    State.env_of_calm ((State.settle_calm _).trans (State.thermal_shut s r temp ho hd ht))
  have sinks := State.sinks_of_env env
  have on (x : Rg) : ((s.warn r temp).lockHot.rg x).on = (s.rg x).on := by
    rw [State.lockHot_rg, State.warn_rg]
    split
    next e => rw [e]; rfl
    · rfl
  refine ⟨?_, fun x hx => ?_, fun t => sinks.busy t (State.thermalAll_busy _ t)⟩
  · rw [sinks.hotLock, (State.sinks_thermalAll _).hotLock]
    rfl
  · exact sinks.seqDown x (State.thermalAll_seqDown _ x ((on x).trans hx))

/-- The sample that finds the last region cool ends the lockout. -/
theorem State.thermal_cool (s : State) (r : Rg) (temp : Int) (hl : s.hotLock = true) (ht : temp < 95)
    (hx : ∀ x, x ≠ r → (s.rg x).cool = true) : s.thermal r temp = { s.warn r temp with hotLock := false } := by
  have cool (x : Rg) : ((s.warn r temp).rg x).cool = true := by
    rw [State.warn_rg]
    split
    · simp [Region.sense, ht]
    next e => exact hx x e
  rw [State.thermal, if_neg (by simp [hl]), if_neg (by omega), State.endHot_of_cool _ cool]

/-- Settles O46, one row after the other; `hrgn` to `hclock` say that the advance of time leaves what the rows read. -/
theorem regionEvents : Obligations.RegionEvents := by
  unfold Obligations.RegionEvents
  intro s tk r unres act power temp
  dsimp only
  have henv : (s.advance tk).env = s.env := State.env_of_calm (State.advance_calm s tk)
  have hrgn : (s.advance tk).rgn = s.rgn := State.rgn_advance s tk
  have hrg (x : Rg) : (s.advance tk).rg x = s.rg x := by rw [State.rg, hrgn]; rfl
  have hch (c : Ch) : (s.advance tk).ch c = s.ch c := by simp [State.ch]
  have hsup : (s.advance tk).rgSupBad = s.rgSupBad := State.rgSupBad_congr (State.supplies_of_env henv)
  have hlock : (s.advance tk).hotLock = s.hotLock := State.hotLock_of_env henv
  have haon : (s.advance tk).aon = s.aon := State.advance_aon s tk
  have hph (c : Ch) : (s.advance tk).ph c = s.ph c := by
    rw [State.ph, State.phys_of_env henv, State.physOf_congr (congrArg Aon.remap haon)]
    rfl
  have hcl (n : Cl) : (s.advance tk).cl n = s.cl n := by rw [State.cl, State.clus_of_bare (State.bare_advance s tk)]; rfl
  have hclock : (s.advance tk).upClock r = s.upClock r := by simp only [State.upClock, haon, hrg]
  have hheld (u : State) (h : (s.advance tk).heldAll u (chsOfRg r)) (c : Ch) (hc : c ∈ chsOfRg r) :
      (u.ch c).st = if (s.ch c).st = .off ∨ (s.ch c).st = .tripped then (s.ch c).st else .held := by
    rw [h c hc, hch]
    rfl
  refine ⟨?_, ?_, ?_, ?_, ?_, ?_, ?_, ?_, ?_⟩
  · intro hf hb hl
    have hup := State.upEvent_upAll (s.advance tk) r unres act ((State.upFirst_congr hrgn).trans hf) (hsup.trans hb) (hlock.trans hl)
    obtain ⟨core, clk⟩ := State.upAll_rg (s.advance tk) r unres act (hsup.trans hb)
    rw [hclock] at core clk
    obtain ⟨on, up, clkOk, refOk, pq, -⟩ := Region.fields_of_core core
    refine State.ends_event (exec_regionUp s tk r unres act) hup ⟨on, up, clkOk, refOk, pq, clk, fun c hc => ?_⟩
    obtain ⟨chan, latch⟩ := State.upAll_ch (s.advance tk) r unres act (hsup.trans hb) c hc
    have trims := State.upAll_trims (s.advance tk) r unres act (hsup.trans hb) c hc
    rw [hch] at chan
    obtain ⟨st, mode, coef, setpoint, high, low⟩ := Channel.fields_of_core chan
    exact ⟨st, mode, coef, setpoint, high, low, latch, trims.trans (congrArg Phys.aonTrims (hph c))⟩
  · intro hd ho
    refine State.ends_event (u := (s.advance tk).downEnd r) rfl (if_pos ?_) ?_
    · simp only [hrg, hch, hd, Bool.true_and, List.all_eq_true, beq_iff_eq]
      exact ho
    · obtain ⟨er, ec⟩ := State.downEnd_settle (s.advance tk) r
      rw [er]
      refine ⟨rfl, rfl, rfl, fun n hn => ?_⟩
      obtain ⟨ht, hi, hm⟩ := State.rgOut_cl (s.advance tk) r n hn
      rw [ec, ht, hi, hm, hcl]
      exact ⟨fun k => Vector.getElem_replicate k.2, rfl, rfl⟩
  · intro y hy
    obtain ⟨core, clk⟩ := State.locked_rg (s.advance tk) r y
    obtain ⟨-, -, clkOk, -, pq, relock⟩ := Region.fields_of_core core
    have done := State.locked_completed (s.advance tk) r y
    rw [State.lockItems_congr (State.items_of_env henv) (State.journal_of_env henv)] at done
    refine State.ends_event (exec_sclkLocked s tk r) (State.lockEvent_locked _ r y (by rw [hrg, hy]))
      ⟨pq, clkOk, relock, clk, fun p hp ht hr hs => ?_⟩
    exact State.completed_advance (done p (List.mem_filter.2 ⟨hp, by simp [ht, hr, hs]⟩))
  · intro ho hk
    obtain ⟨h1, h2⟩ := State.rgLostEvent_held (s.advance tk) r power (by rw [hrg, ho]) (by rw [hrg, hk])
    exact State.ends_event (f := fun s => s.rgLostEvent r power) rfl rfl ⟨h1, hheld _ h2⟩
  · intro ho hk hn hb hd
    obtain ⟨clk, st⟩ := State.rgBack_settle (s.advance tk) r
    refine State.ends_event (exec_sampleClockReturn s tk r)
      (State.backEvent_rgBack _ r (by rw [hrg, ho]) (by rw [hrg, hk]) (by rw [hrg, hn]) (hsup.trans hb) (by rw [hrg, hd]))
      ⟨clk, fun c => (st c).trans (congrArg Channel.st (hch c))⟩
  · intro ho hk
    obtain ⟨h1, h2⟩ := State.refLost_held (s.advance tk) r
    refine State.ends_event (u := (s.advance tk).refLost r) rfl (if_neg ?_) ⟨h1, hheld _ h2⟩
    simp [hrg, ho, hk]
  · intro ho hl ht
    exact State.turns_of (exec_thermalSample s tk r temp) (State.thermal_calmly _ r temp (by rw [hrg, ho]) (hlock.trans hl) ht)
  · intro ho hd ht
    obtain ⟨hot, down, idle⟩ := State.thermal_shut_settle (s.advance tk) r temp (by rw [hrg, ho]) (by rw [hrg, hd]) ht
    exact State.ends_event (exec_thermalSample s tk r temp) rfl ⟨hot, fun x hx => down x (by rw [hrg, hx]), idle⟩
  · intro hl ht hx
    have cool := State.thermal_cool (s.advance tk) r temp (hlock.trans hl) ht fun x h => by rw [hrg]; exact hx x h
    exact State.ends_event (exec_thermalSample s tk r temp) cool (State.hotLock_of_bare (State.bare_settle _))

end Sys2Proof.Machine
end

section
/-! PROOFS. A channel instruction at its issue tick, and the instructions that a channel in Off refuses (2.5, Table 2-7). -/

namespace Sys2Proof.Machine

/-- Settles O1: the front of the queue is what `step` matches on. -/
theorem stepRunsTheFrontCommand : Obligations.StepRunsTheFrontCommand := by
  unfold Obligations.StepRunsTheFrontCommand
  intro c cs s
  rfl

/-! ### The row of a channel instruction -/

/-- What a channel instruction that can issue leaves: the state that its operation answers, with the status in LAST. -/
theorem State.chRow_of_issueCh {s x : State} {i : Instr} {t : Thr} {w : ZWord} {c : Ch} {n : Nat} {f : Ch → State → State × Nat}
    (hi : s.issues i t w) (hc : thCh t = some c) (he : exec i s = .next (s.issueCh t w (zlegal i) f))
    (hf : f c (s.atIssue t w) = (x, n)) : s.chRow i t w (BitVec.ofNat 8 n) fun _ => x := by
  obtain ⟨hr, hp, hl, -⟩ := hi
  refine ⟨_, he, ?_⟩
  rw [State.issueCh_eq s t w _ f c hr hp hl hc, hf, State.bare_settle]
  rfl

/-- What the channels and the thread hold after a channel instruction. -/
theorem State.ends_of_chRow {s x : State} {i : Instr} {t : Thr} {w : ZWord} {status : Byte} (h : s.chRow i t w status fun _ => x)
    {P : State → Prop} (hP : ∀ u : State, u.chan = x.chan → (u.th t).last = status → P u) : s.ends i P := by
  obtain ⟨u, he, hu⟩ := h
  refine ⟨u, he, hP u ((State.chan_of_bare hu).trans rfl) ?_⟩
  rw [State.th_of_bare hu, State.th_modTh_self]

/-- A latch that has not set takes no effect at a boundary. -/
theorem State.tripAt_of_not_pend {s : State} {c : Ch} (h : (s.ch c).trip.pend = false) (b : Nat) : s.tripAt c b = s := by
  simp [State.tripAt, h]

theorem State.tripFirst_of_not_pend {s : State} {c : Ch} (h : (s.ch c).trip.pend = false) : s.tripFirst c = s :=
  State.tripAt_of_not_pend h _

/-! ### A channel in Off -/

/-- In Off, with no trip under way, the operation answers CH_OFF and the state as it was. -/
def RefusesOff (f : Ch → State → State × Nat) : Prop :=
  ∀ (c : Ch) (s : State), (s.ch c).st = .off → (s.ch c).trip.pend = false → f c s = (s, 1)

/-- An operation that asks for Off first. -/
theorem refusesOff_atOnce (g : Ch → State → State × Nat) : RefusesOff fun c s => if (s.ch c).st = .off then (s, 1) else g c s :=
  fun _ _ ho _ => if_pos ho

/-- An operation that asks for Off once a trip has taken effect. -/
theorem refusesOff_afterTrip (g : Ch → State → State × Nat) :
    RefusesOff fun c s => if ((s.tripFirst c).ch c).st = .off then (s.tripFirst c, 1) else g c s := fun c s ho hp => by
  dsimp only
  rw [State.tripFirst_of_not_pend hp, if_pos ho]

theorem refusesOff_range (e : Fin 8) : RefusesOff (cmdRange e) := fun c s ho hp => by
  simp only [cmdRange, State.tripFirst_of_not_pend hp, ho]

theorem refusesOff_open : RefusesOff cmdOpen := fun c s ho hp => by
  simp only [cmdOpen, State.tripFirst_of_not_pend hp, ho]

theorem refusesOff_close : RefusesOff cmdClose := fun c s ho hp => by
  simp only [cmdClose, State.tripFirst_of_not_pend hp, ho]

theorem refusesOff_heel (v u : Word) : RefusesOff (cmdHeel v u) := fun c s ho hp => by
  simp only [cmdHeel, State.tripFirst_of_not_pend hp, ho]

theorem refusesOff_tripclr : RefusesOff cmdTripclr := fun c s ho hp => by
  simp only [cmdTripclr, State.tripFirst_of_not_pend hp, ho]

/-- Each channel instruction but MODE, READ and CAL RES is an operation that refuses a channel in Off. -/
theorem exec_refusesOff {i : Instr} {t : Thr} {w : ZWord} (hz : zparts i = some (t, w)) (hk : tkOnly i = true)
    (hn : ∀ t w, i ≠ .mode t w ∧ i ≠ .read t w ∧ i ≠ .calRes t w) :
    ∃ f, RefusesOff f ∧ ∀ s, exec i s = .next (s.issueCh t w (zlegal i) f) := by
  cases i with
  | mode t w => exact absurd rfl (hn t w).1
  | read t w => exact absurd rfl (hn t w).2.1
  | calRes t w => exact absurd rfl (hn t w).2.2
  | range t w => cases hz; exact ⟨_, refusesOff_range _, fun _ => rfl⟩
  | openLoop t w => cases hz; exact ⟨_, refusesOff_open, fun _ => rfl⟩
  | closeLoop t w => cases hz; exact ⟨_, refusesOff_close, fun _ => rfl⟩
  | heel t w => cases hz; exact ⟨_, fun c s => refusesOff_heel (s.opV t w) (s.g t w.rb) c s, fun _ => rfl⟩
  | tripclr t w => cases hz; exact ⟨_, refusesOff_tripclr, fun _ => rfl⟩
  | blank t w | seg t w | jump t w | rate t w | mark t w => cases hz; exact ⟨_, refusesOff_atOnce _, fun _ => rfl⟩
  | forceSetpoint t w | forceBase t w | forceParkcode t w | forceClearcode t w | forceList t w | limit t w | law t w | coef t w
  | park t w | seq t w | inj t w | avg t w | arm t w | armOff t w | stay t w | recSet t w | strm t w | cal t w | calgap t w
  | syscalZero t w | syscalFull t w | syscalApply t w => cases hz; exact ⟨_, refusesOff_afterTrip _, fun _ => rfl⟩
  | _ => cases hk

/-- Settles O12: the instruction's operation refuses (`exec_refusesOff`), so the state at its issue tick stands. -/
theorem offChannelRefuses : Obligations.OffChannelRefuses := by
  unfold Obligations.OffChannelRefuses
  intro s i t w c hz hk hn hc ho hp hi
  obtain ⟨f, hf, he⟩ := exec_refusesOff hz hk hn
  exact State.chRow_of_issueCh hi hc (he s) (hf c _ (by rwa [State.ch_atIssue]) (by rwa [State.ch_atIssue]))

/-! ### MODE -/

/-- A channel event moves no channel. -/
theorem State.chan_chEvAt (s : State) (c : Ch) (e : ChEv) (d : Word) (t : Nat) : (s.chEvAt c e d t).chan = s.chan := by
  have h := State.bare_chEvAt s c e d t
  split at h <;> exact (State.chan_of_bare h).trans rfl

theorem State.ch_of_chan {s u : State} (h : u.chan = s.chan) (c : Ch) : u.ch c = s.ch c := by
  rw [State.ch, h]
  rfl

/-- The mode word is the low byte of MODE's value. -/
theorem extractLsb'_mode (v : Word) : v.extractLsb' 0 8 = v.setWidth 8 :=
  BitVec.eq_of_toNat_eq (by simp)

/-- In Draining, MODE holds its word, whether or not it replaces one (R62). -/
theorem cmdMode_draining (v : Word) (c : Ch) (s : State) (hd : ((s.tripFirst c).ch c).st = .draining) :
    ∃ u : State, u.chan = (s.tripFirst c).chan ∧
      cmdMode v c s = (u.modCh c fun h => { h with defMode := some (v.setWidth 8) }, 6) := by
  simp only [cmdMode, hd, extractLsb'_mode]
  refine ⟨_, ?_, rfl⟩
  split
  · exact State.chan_chEvAt ..
  · rfl

/-- MODE where the channel is neither Off nor Draining (R60, R290). -/
theorem cmdMode_now (v : Word) (c : Ch) (s : State) (ho : ((s.tripFirst c).ch c).st ≠ .off)
    (hd : ((s.tripFirst c).ch c).st ≠ .draining) :
    let u := s.tripFirst c
    let h := u.ch c
    let m : BitVec 8 := v.setWidth 8
    cmdMode v c s =
      if m = h.mode ∧ h.modePend = none then (u, 0)
      else if (h.st = .heel ∨ h.st = .run) ∧ m &&& 3 ≠ h.mode &&& 3 then (u.modCh c Channel.reject, 2)
      else (u.modCh c fun h => { h with modePend := some m }, 0) := by
  simp only [cmdMode, extractLsb'_mode]
  cases h : ((s.tripFirst c).ch c).st with
  | off => exact absurd h ho
  | draining => exact absurd h hd
  | _ => rfl

/-- Settles O16: by the state of the channel, and outside Off and Draining by what the word would change. -/
theorem modeRow : Obligations.ModeRow := by
  unfold Obligations.ModeRow
  intro s t w c hc
  dsimp only
  intro hi
  have row {x : State} {n : Nat} (h : cmdMode (s.opV t w) c (s.atIssue t w) = (x, n)) :
      s.chRow (.mode t w) t w (BitVec.ofNat 8 n) fun _ => x :=
    State.chRow_of_issueCh (f := fun c s => cmdMode (s.opV t w) c s) hi hc rfl (by rwa [State.opV_atIssue])
  refine ⟨fun ho => row ?off, ?draining, fun ho hd => ?now⟩
  case off => simp only [cmdMode, ho, extractLsb'_mode]
  case draining =>
    intro hd
    obtain ⟨y, hy, eq⟩ := cmdMode_draining (s.opV t w) c (s.atIssue t w) hd
    refine State.ends_of_chRow (row eq) fun u hu hl => ?_
    rw [State.ch_of_chan hu, State.ch_modCh_self, State.ch_of_chan hy]
    exact ⟨rfl, hl, rfl⟩
  case now =>
    have eq := cmdMode_now (s.opV t w) c (s.atIssue t w) ho hd
    refine ⟨fun hs => row ?same, fun hs hf => row ?forced, fun hs hf => row ?pending⟩
    case same => rw [eq, if_pos hs]
    case forced => rw [eq, if_neg hs, if_pos hf]; rfl
    case pending => rw [eq, if_neg hs, if_neg hf]

end Sys2Proof.Machine
end

section
/-! PROOFS. What a channel is asked for: its state, its mode word, what is pending or deferred, and the values that its moves go by. Each
operation that follows a move leaves it, and each move changes the state alone. -/

namespace Sys2Proof.Machine

/-- What the rules of the mode ask of a channel, its comparators included, without the latches, the stimulus and the loop under way. -/
def Channel.orders (h : Channel) : Channel :=
  { Channel.reset with
    st := h.st, mode := h.mode, modePend := h.modePend, defMode := h.defMode, defMove := h.defMove, drainSlew := h.drainSlew
    setpoint := h.setpoint
    loop := { LoopSt.reset with lastB := h.loop.lastB, rejCount := h.loop.rejCount, heelSlew := h.loop.heelSlew }
    trip := { TripSt.reset with active := h.trip.active, unres := h.trip.unres } }

/-- What every channel is asked for. -/
def State.orders (s : State) : Vector Channel 96 := s.chan.map Channel.orders

theorem State.orders_get (s : State) (c : Ch) : s.orders.get c = (s.ch c).orders := vget_map ..

theorem State.orders_of_chan {s u : State} (h : u.chan = s.chan) : u.orders = s.orders := congrArg (Vector.map Channel.orders) h

/-- What two channels that are asked for the same share. -/
theorem Channel.fields_of_orders {x y : Channel} (h : x.orders = y.orders) : x.st = y.st ∧ x.mode = y.mode ∧ x.modePend = y.modePend
    ∧ x.defMode = y.defMode ∧ x.defMove = y.defMove ∧ x.drainSlew = y.drainSlew ∧ x.setpoint = y.setpoint
    ∧ x.loop.lastB = y.loop.lastB ∧ x.loop.rejCount = y.loop.rejCount ∧ x.loop.heelSlew = y.loop.heelSlew
    ∧ x.trip.active = y.trip.active ∧ x.trip.unres = y.trip.unres := by
  simp only [Channel.orders, Channel.mk.injEq, LoopSt.mk.injEq, TripSt.mk.injEq] at h
  tauto

theorem State.orders_ch {s u : State} (h : u.orders = s.orders) (c : Ch) : (u.ch c).orders = (s.ch c).orders := by
  rw [← State.orders_get, ← State.orders_get, h]

/-! ### Updates -/

theorem State.modCh_orders {s : State} {c : Ch} {f : Channel → Channel} (h : (f (s.ch c)).orders = (s.ch c).orders) :
    (s.modCh c f).orders = s.orders := vmap_set_of Channel.orders s.chan c _ h

/-- A change of a channel that speaks of its orders alone. -/
theorem State.orders_modCh {s u : State} (h : u.orders = s.orders) (c : Ch) {f g : Channel → Channel}
    (hf : (f (u.ch c)).orders = (g (s.ch c)).orders) : (u.modCh c f).orders = (s.modCh c g).orders := by
  have e (x : State) (k : Channel → Channel) : (x.modCh c k).orders = x.orders.set c.1 (k (x.ch c)).orders c.2 := Vector.map_set ..
  rw [e, e, h, hf]

@[simp] theorem State.ite_orders (p : Prop) [Decidable p] (s u : State) : (if p then s else u).orders =
    if p then s.orders else u.orders := apply_ite ..

@[simp] theorem State.each_orders {α : Type} (l : List α) {f : α → State → State} (h : ∀ a s, (f a s).orders = s.orders)
    (s : State) : (s.each l f).orders = s.orders := State.each_frame State.orders l h s

@[simp] theorem State.raiseAt_orders (s : State) (n : Src) (code : Nat) (d : Word) (t : Nat) : (s.raiseAt n code d t).orders = s.orders :=
  State.orders_of_chan ((State.chan_of_bare (State.bare_raiseAt ..)).trans rfl)
@[simp] theorem State.raiseHub_orders (s : State) (h : Fin 112) (d : Word) : (s.raiseHub h d).orders = s.orders :=
  State.orders_of_chan ((State.chan_of_bare (State.bare_raiseHub ..)).trans rfl)
@[simp] theorem State.mem_orders (s : State) (m : MemCtl) : { s with mem := m }.orders = s.orders := rfl
@[simp] theorem State.modPh_orders (s : State) (c : Ch) (f : Phys → Phys) : (s.modPh c f).orders = s.orders := rfl
@[simp] theorem State.modRg_orders (s : State) (r : Rg) (f : Region → Region) : (s.modRg r f).orders = s.orders := rfl

section
variable (s : State) (c : Ch) (t tk b : Nat) (r : Rg)

@[simp] theorem State.chEvAt_orders (e : ChEv) (detail : Word) : (s.chEvAt c e detail t).orders = s.orders :=
  State.orders_of_chan (State.chan_chEvAt ..)
@[simp] theorem State.chEv_orders (e : ChEv) (detail : Word) : (s.chEv c e detail).orders = s.orders := State.chEvAt_orders ..

/-! ### Capture -/

@[simp] theorem State.modCap_orders (f : CapSt → CapSt) : (s.modCap c f).orders = s.orders := State.modCh_orders rfl
@[simp] theorem State.endRec_orders : (s.endRec c).orders = s.orders := State.modCh_orders rfl
@[simp] theorem State.cutRec_orders (fl : Word) : (s.cutRec c b fl).orders = s.orders := by
  unfold State.cutRec
  split <;> simp
@[simp] theorem State.truncRec_orders : (s.truncRec c b).orders = s.orders := by simp [State.truncRec]
@[simp] theorem State.logUe_orders (finder lch : Nat) : (s.logUe finder lch b).orders = s.orders := by
  unfold State.logUe
  dsimp only
  rw [State.raiseHub_orders]
  unfold State.orders
  ext i hi : 1
  simp [State.ch, Vector.get, Channel.orders]
@[simp] theorem State.acqPut_orders (lch base size tot : Nat) (bs : List Byte) : (s.acqPut lch base size tot bs).orders = s.orders := by
  unfold State.acqPut
  dsimp only
  split
  · rfl
  · refine (State.each_orders _ (fun b s => ?_) _).trans rfl
    split
    · rfl
    · exact (State.logUe_orders _ b 6 lch).trans rfl
@[simp] theorem State.sideWrite_orders (bs : List Byte) : (s.sideWrite c bs).orders = s.orders := by simp [State.sideWrite]
@[simp] theorem State.side_orders (q : Nat) (bs : List Byte) : (s.side c q bs).orders = s.orders := by simp [State.side]
@[simp] theorem State.closeStream_orders : (s.closeStream c b).orders = s.orders := by simp [State.closeStream]
@[simp] theorem State.capPark_orders : (s.capPark c b).orders = s.orders := by simp [State.capPark, State.disarm]
@[simp] theorem State.placeRec_orders (q : Rec) : (s.placeRec c q).orders = s.orders := by simp [State.placeRec]
@[simp] theorem State.openChunk_orders (k0 : Nat) : (s.openChunk c k0).orders = s.orders := by simp [State.openChunk]
@[simp] theorem State.streamCheck_orders : (s.streamCheck c).orders = s.orders := by simp [State.streamCheck]

/-! ### Calibration -/

@[simp] theorem State.stepOff_orders : (s.stepOff r).orders = s.orders := by
  unfold State.stepOff
  rw [State.modRg_orders]
  split
  · exact State.modCh_orders rfl
  · rfl
@[simp] theorem State.stepDiscard_orders : (s.stepDiscard r).orders = s.orders := by simp [State.stepDiscard]
@[simp] theorem State.stepDisturb_orders : (s.stepDisturb c).orders = s.orders := by simp [State.stepDisturb]
@[simp] theorem State.modCal_orders (f : CalSt → CalSt) : (s.modCal c f).orders = s.orders := State.modCh_orders rfl
@[simp] theorem State.calDone_orders (code target : Nat) (skew : Bool) (resid : Nat) :
    (s.calDone c code target skew resid).orders = s.orders := by simp [State.calDone]

/-! ### Generator -/

@[simp] theorem State.modGen_orders (f : GenSt → GenSt) : (s.modGen c f).orders = s.orders := State.modCh_orders rfl
@[simp] theorem State.genStop_orders : (s.genStop c t).orders = s.orders := by simp [State.genStop]
@[simp] theorem State.genArm_orders : (s.genArm c t).orders = s.orders := by
  refine State.modCh_orders ?_
  split
  · split <;> rfl
  · rfl
@[simp] theorem State.trimRamp_orders : (s.trimRamp c t).orders = s.orders := by
  unfold State.trimRamp
  split
  · rfl
  next q _ =>
    cases q.result <;> simp

/-! ### Comparators, gates and pulses -/

@[simp] theorem State.refreshGates_orders : (s.refreshGates c).orders = s.orders := State.modCh_orders rfl

/-- A change of the trip state that leaves the comparators. -/
@[simp] theorem State.modTrip_orders {f : TripSt → TripSt} (h : ∀ p, (f p).active = p.active ∧ (f p).unres = p.unres) :
    (s.modTrip c f).orders = s.orders := by
  refine State.modCh_orders ?_
  obtain ⟨ha, hu⟩ := h (s.ch c).trip
  simp [Channel.orders, ha, hu]
@[simp] theorem State.latchTrip_orders (m : Cmp) : (s.latchTrip c m t).orders = s.orders := by
  unfold State.latchTrip
  dsimp only
  rw [State.chEvAt_orders, State.refreshGates_orders, State.modTrip_orders, State.stepDisturb_orders]
  intro p
  (repeat' split) <;> exact ⟨rfl, rfl⟩
@[simp] theorem State.evalCmp_orders (m : Cmp) : (s.evalCmp c m t).orders = s.orders := by simp [State.evalCmp]
@[simp] theorem State.evalTrip_orders : (s.evalTrip c t).orders = s.orders := by simp [State.evalTrip]
@[simp] theorem State.openWin_orders (i : Fin 5) (len : Nat) (mask : BitVec 4) : (s.openWin c i t len mask).orders = s.orders := by
  simp [State.openWin]
@[simp] theorem State.gateWin_orders : (s.gateWin c t).orders = s.orders := State.openWin_orders ..
@[simp] theorem State.pulseEdgeFx_orders (act : Bool) : (s.pulseEdgeFx c act t).orders = s.orders := by
  simp only [State.pulseEdgeFx, State.openWin_orders, State.refreshGates_orders]
  exact State.modCh_orders rfl
@[simp] theorem State.pulseStart_orders : (s.pulseStart c t).orders = s.orders := by
  simp only [State.pulseStart, State.ite_orders, State.refreshGates_orders, State.pulseEdgeFx_orders, ite_self]
  exact State.modCh_orders rfl
@[simp] theorem State.pulseStop_orders : (s.pulseStop c t).orders = s.orders := by
  simp only [State.pulseStop, State.ite_orders, State.pulseEdgeFx_orders, ite_self]
  exact State.modCh_orders rfl
@[simp] theorem State.pulseCheck_orders : (s.pulseCheck c t).orders = s.orders := by
  have seen (x : Bool) : (s.modCh c fun h => { h with pulseSeen := x }).orders = s.orders := State.modCh_orders rfl
  simp [State.pulseCheck, seen]
@[simp] theorem State.pulseTrigger_orders (kind : BitVec 2) : (s.pulseTrigger c kind t).orders = s.orders := by simp [State.pulseTrigger]
@[simp] theorem State.stimFollow_orders : (s.stimFollow c t).orders = s.orders := by
  simp only [State.stimFollow, State.refreshGates_orders, State.genArm_orders, State.pulseCheck_orders]
  refine State.modCh_orders ?_
  split <;> rfl
@[simp] theorem State.stimStop_orders : (s.stimStop c t).orders = s.orders := by simp [State.stimStop]

/-! ### Loop, range and DAC -/

@[simp] theorem State.openEng_orders : (s.openEng c).orders = s.orders := State.modCh_orders rfl
@[simp] theorem State.closeEng_orders : (s.closeEng c t).orders = s.orders := by
  unfold State.closeEng
  split
  · split <;> exact State.modCh_orders rfl
  · exact State.modCh_orders rfl
@[simp] theorem State.flushDac_orders : (s.flushDac c).orders = s.orders := State.modCh_orders rfl
@[simp] theorem State.firstWrite_orders : (s.firstWrite c).orders = s.orders := State.modCh_orders rfl
@[simp] theorem State.rangeCut_orders : (s.rangeCut c t).orders = s.orders := by
  unfold State.rangeCut
  split
  · split
    · rfl
    · exact State.modCh_orders rfl
  · rfl
end

/-! ### Moves of a channel (Table 2-6) -/

theorem State.orders_putSt {s u : State} (h : u.orders = s.orders) (c : Ch) (x : ChSt) : (u.putSt c x).orders = (s.putSt c x).orders := by
  refine State.orders_modCh h c ?_
  have e := State.orders_ch h c
  simp only [Channel.orders, Channel.mk.injEq] at e ⊢
  tauto

theorem State.setSt_orders (s : State) (c : Ch) (x : ChSt) (t : Nat) : (s.setSt c x t).orders = (s.putSt c x).orders := by
  unfold State.setSt
  dsimp only
  split
  next h => exact (State.modCh_orders (by rw [← h])).symm
  · exact State.chEvAt_orders ..

end Sys2Proof.Machine
end

section
/-! PROOFS. The moves of Table 2-7: OPEN, CLOSE, HEEL, PARK and TRIPCLR in every state of the channel. -/

namespace Sys2Proof.Machine

/-! ### The moves of Table 2-6 -/

theorem State.orders_ch_putSt {s u : State} {c : Ch} {x : ChSt} (h : u.orders = (s.putSt c x).orders) :
    (u.ch c).orders = { s.ch c with st := x }.orders :=
  (State.orders_ch h c).trans (congrArg Channel.orders (State.ch_modCh_self ..))

theorem State.st_of_putSt {s u : State} {c : Ch} {x : ChSt} (h : u.orders = (s.putSt c x).orders) : (u.ch c).st = x :=
  (Channel.fields_of_orders (State.orders_ch_putSt h)).1

theorem State.toHeld_st (s : State) (c : Ch) (t : Nat) : ((s.toHeld c t).ch c).st = .held :=
  (State.st_of_calm (State.toHeld_calm s c t) c).trans (by rw [State.putSt, State.ch_modCh_self])

theorem State.toParked_st (s : State) (c : Ch) (t : Nat) : ((s.toParked c t).ch c).st = .parked :=
  (State.st_of_calm (State.toParked_calm s c t) c).trans (by rw [State.putSt, State.ch_modCh_self])

theorem State.toRun_orders (s : State) (c : Ch) (t : Nat) : (s.toRun c t).orders = (s.putSt c .run).orders := by
  unfold State.toRun
  simp only [State.stimFollow_orders, State.ite_orders, State.closeEng_orders, ite_self]
  rw [State.modCh_orders rfl, State.setSt_orders]
  exact State.orders_putSt (by simp) c .run

theorem State.toHeel_orders (s : State) (c : Ch) (t : Nat) : (s.toHeel c t).orders = (s.putSt c .heel).orders := by
  unfold State.toHeel
  simp only [State.stimFollow_orders, State.ite_orders, State.closeEng_orders, ite_self]
  rw [State.modLoop, State.modCh_orders rfl, State.setSt_orders]
  exact State.orders_putSt (by simp) c .heel

theorem State.toDraining_orders (s : State) (c : Ch) (t : Nat) : (s.toDraining c t).orders = (s.putSt c .draining).orders := by
  unfold State.toDraining
  simp only [State.stimStop_orders]
  rw [State.modCh_orders rfl, State.flushDac_orders, State.openEng_orders, State.setSt_orders]
  exact State.orders_putSt (by simp) c .draining

theorem State.defCancel_orders (s : State) (c : Ch) (t : Nat) :
    (s.defCancel c t).orders = (s.modCh c fun h => { h with defMode := none, defMove := none }).orders := by
  have e (u : State) (p : Prop) [Decidable p] : (if p then u.chEvAt c .deferredCancelled 0 t else u).chan = u.chan := by
    split
    · exact State.chan_chEvAt ..
    · rfl
  unfold State.defCancel
  refine State.orders_modCh (State.orders_of_chan ((e _ _).trans (e _ _))) c ?_
  rw [State.ch_of_chan ((e _ _).trans (e _ _))]

/-- A drain keeps its slew. -/
theorem State.toDraining_ch (s : State) (c : Ch) (t : Nat) : let h := (s.toDraining c t).ch c
    h.st = .draining ∧ h.drainSlew = (s.ch c).drainSlew := by
  obtain ⟨st, -, -, -, -, drainSlew, -⟩ := Channel.fields_of_orders (State.orders_ch_putSt (State.toDraining_orders s c t))
  exact ⟨st, drainSlew⟩

/-- Only what is deferred goes (R62). -/
theorem State.defCancel_ch (s : State) (c : Ch) (t : Nat) : let h := (s.defCancel c t).ch c
    h.st = (s.ch c).st ∧ h.drainSlew = (s.ch c).drainSlew ∧ h.defMode = none ∧ h.defMove = none := by
  have e := State.orders_ch (State.defCancel_orders s c t) c
  rw [State.ch_modCh_self] at e
  obtain ⟨st, -, -, defMode, defMove, drainSlew, -⟩ := Channel.fields_of_orders e
  exact ⟨st, drainSlew, defMode, defMove⟩

/-- HEEL's values stay through the entry to Heel (R163). -/
theorem State.toHeel_heelWrite (s : State) (c : Ch) (x : Int) (slew t : Nat) : let h := ((s.heelWrite c x slew).toHeel c t).ch c
    h.st = .heel ∧ h.setpoint = x ∧ h.loop.heelSlew = slew := by
  have e := State.orders_ch_putSt (State.toHeel_orders (s.heelWrite c x slew) c t)
  rw [State.heelWrite, State.ch_modCh_self] at e
  obtain ⟨st, -, -, -, -, -, setpoint, -, -, heelSlew, -⟩ := Channel.fields_of_orders e
  exact ⟨st, setpoint, heelSlew⟩

/-! ### Comparators that may not latch (R171, R182) -/

/-- No comparator is active but those that are unresolved. -/
def Channel.unlit (h : Channel) : Prop := h.trip.active &&& ~~~h.trip.unres = 0

theorem Channel.unlit_of_orders {x y : Channel} (h : x.orders = y.orders) (hy : y.unlit) : x.unlit := by
  obtain ⟨-, -, -, -, -, -, -, -, -, -, active, unres⟩ := Channel.fields_of_orders h
  unfold Channel.unlit
  rwa [active, unres]

theorem State.unlit_of_orders {s u : State} (h : u.orders = s.orders) {c : Ch} (hs : (s.ch c).unlit) : (u.ch c).unlit :=
  Channel.unlit_of_orders (State.orders_ch h c) hs

theorem Channel.unlit_cmp {h : Channel} (hu : h.unlit) (m : Cmp) : (!bit h.trip.active m.1 || bit h.trip.unres m.1) = true := by
  have e := congrArg (fun v => v.getLsbD m.1) hu
  have hm : m.1 < 4 := m.2
  simpa [bit, hm, or_iff_not_imp_left] using e

theorem State.evalCmp_latches_of_unlit {s : State} {c : Ch} (h : (s.ch c).unlit) (m : Cmp) (t : Nat) :
    (s.evalCmp c m t).latches = s.latches := by
  unfold State.evalCmp
  rw [if_pos (Channel.unlit_cmp h m)]
  exact State.modTrip_latches fun _ => rfl

theorem State.evalTrip_latches_of_unlit {s : State} {c : Ch} (h : (s.ch c).unlit) (t : Nat) : (s.evalTrip c t).latches = s.latches := by
  have all (l : List Cmp) (u : State) (hu : (u.ch c).unlit) : (u.each l fun m s => s.evalCmp c m t).latches = u.latches := by
    induction l generalizing u with
    | nil => rfl
    | cons m l ih =>
      exact (ih _ (State.unlit_of_orders (State.evalCmp_orders u c t m) hu)).trans (State.evalCmp_latches_of_unlit hu m t)
  unfold State.evalTrip
  split
  · rfl
  · exact all _ s h

theorem State.openWin_latches_of_unlit {s : State} {c : Ch} (h : (s.ch c).unlit) (i : Fin 5) (t len : Nat) (mask : BitVec 4) :
    (s.openWin c i t len mask).latches = s.latches := by
  unfold State.openWin
  split
  · rfl
  · refine (State.evalTrip_latches_of_unlit (State.unlit_of_orders (State.modTrip_orders s c ?_) h) t).trans (State.modTrip_latches ?_)
    · exact fun _ => ⟨rfl, rfl⟩
    · exact fun _ => rfl

theorem State.pulseEdgeFx_latches_of_unlit {s : State} {c : Ch} (h : (s.ch c).unlit) (act : Bool) (t : Nat) :
    (s.pulseEdgeFx c act t).latches = s.latches := by
  have e : ((s.modCh c fun h => { h with pulseAct := act }).refreshGates c).orders = s.orders :=
    (State.refreshGates_orders ..).trans (State.modCh_orders rfl)
  unfold State.pulseEdgeFx
  exact (State.openWin_latches_of_unlit (State.unlit_of_orders e h) ..).trans
    ((State.refreshGates_latches ..).trans (State.modCh_latches rfl))

theorem State.pulseStop_latches_of_unlit {s : State} {c : Ch} (h : (s.ch c).unlit) (t : Nat) : (s.pulseStop c t).latches = s.latches := by
  unfold State.pulseStop
  dsimp only
  split
  · exact (State.pulseEdgeFx_latches_of_unlit (State.unlit_of_orders (State.modCh_orders rfl) h) _ t).trans (State.modCh_latches rfl)
  · exact State.modCh_latches rfl

/-- Outside Run and Held a pulse sequence can only stop (R91). -/
theorem State.pulseCheck_latches_of_unlit {s : State} {c : Ch} (hp : (s.ch c).pulseTimer = false) (h : (s.ch c).unlit) (t : Nat) :
    (s.pulseCheck c t).latches = s.latches := by
  unfold State.pulseCheck
  simp only [hp, Bool.false_and, Bool.false_eq_true, if_false]
  split
  · exact (State.pulseStop_latches_of_unlit (State.unlit_of_orders (State.modCh_orders rfl) h) t).trans (State.modCh_latches rfl)
  · rfl

/-- A list that no longer runs is at rest (R294). -/
def Channel.listFollow (h : Channel) : Channel := if h.stimRuns || h.frozen then h else { h with listRun := false }

theorem Channel.listFollow_orders (h : Channel) : h.listFollow.orders = h.orders := by
  unfold Channel.listFollow
  split <;> rfl

theorem Channel.listFollow_latch (h : Channel) : h.listFollow.trip.latch = h.trip.latch := by
  unfold Channel.listFollow
  split <;> rfl

theorem Channel.pulseTimer_of_parked {h : Channel} (hs : h.st = .parked) : h.pulseTimer = false := by
  simp [Channel.pulseTimer, Channel.stimRuns, hs]

theorem State.stimStop_latches_of_unlit {s : State} {c : Ch} (hs : (s.ch c).st = .parked) (h : (s.ch c).unlit) (t : Nat) :
    (s.stimStop c t).latches = s.latches := by
  have e : ((s.genStop c t).modCh c Channel.listFollow).orders = s.orders :=
    (State.modCh_orders (Channel.listFollow_orders _)).trans (State.genStop_orders ..)
  have parked := (Channel.fields_of_orders (State.orders_ch e c)).1.trans hs
  show ((State.genArm (State.pulseCheck ((s.genStop c t).modCh c Channel.listFollow) c t) c t).refreshGates c).latches = s.latches
  rw [State.refreshGates_latches, State.genArm_latches,
    State.pulseCheck_latches_of_unlit (Channel.pulseTimer_of_parked parked) (State.unlit_of_orders e h),
    State.modCh_latches (Channel.listFollow_latch _), State.genStop_latches]

theorem Channel.cleared_orders (h : Channel) : h.cleared.orders = h.orders := rfl

/-- The entry to Parked of a channel whose comparators are at rest leaves no latch (R176). -/
theorem State.toParked_latch {s : State} {c : Ch} (h : (s.ch c).unlit) (t : Nat) : ((s.toParked c t).ch c).trip.latch = 0 := by
  have e : ((s.parking c t).modCh c Channel.cleared).orders = (s.putSt c .parked).orders := by
    refine (State.modCh_orders (Channel.cleared_orders _)).trans ?_
    rw [State.parking, State.flushDac_orders, State.openEng_orders, State.setSt_orders]
    exact State.orders_putSt (by simp) c .parked
  have unlit := Channel.unlit_of_orders (State.orders_ch_putSt e) (y := { s.ch c with st := .parked }) h
  rw [State.toParked_eq, ← State.latches_get, State.stimStop_latches_of_unlit (State.st_of_putSt e) unlit, State.latches_get,
    State.ch_modCh_self]
  rfl

/-! ### Operands -/

theorem sfld_low (n : Nat) {k : Nat} (v : BitVec k) : sfld v 0 n = sx n v.toNat := by
  simp [sfld, fld, sx]

theorem ff_one_iff (w : ZWord) (i : Nat) : ff w i 1 = 1 ↔ bit (f17 w) i = true := by
  simp [ff, fld, bit, BitVec.getLsbD, Nat.testBit_eq_decide_div_mod_eq, Nat.shiftRight_eq_div_pow]

/-- KEEP in PARK's word (R289). -/
theorem getD_keep (w : ZWord) (x d : Nat) : (if ff w 0 1 = 1 then none else some x).getD d = if bit (f17 w) 0 then d else x := by
  simp only [ff_one_iff]
  split <;> rfl

/-! ### The instructions -/

/-- The answer y of a channel instruction: channel c is in the state and the status is that of r, and P describes the channel. -/
def Answers (y : State × Nat) (c : Ch) (r : ChSt × Byte) (P : Channel → Prop) : Prop :=
  (y.1.ch c).st = r.1 ∧ BitVec.ofNat 8 y.2 = r.2 ∧ P (y.1.ch c)

theorem State.ends_of_answers {s : State} {i : Instr} {t : Thr} {w : ZWord} {c : Ch} {f : Ch → State → State × Nat} {r : ChSt × Byte}
    {P : Channel → Prop} (hi : s.issues i t w) (hc : thCh t = some c) (he : exec i s = .next (s.issueCh t w (zlegal i) f))
    (h : Answers (f c (s.atIssue t w)) c r P) : s.ends i fun u => (u.ch c).st = r.1 ∧ (u.th t).last = r.2 ∧ P (u.ch c) := by
  obtain ⟨st, status, also⟩ := h
  refine State.ends_of_chRow (State.chRow_of_issueCh hi hc he rfl) fun u hu hl => ?_
  rw [State.ch_of_chan hu]
  exact ⟨st, hl.trans status, also⟩

/-- OPEN (Table 2-7). -/
def openRow (force : Bool) : ChSt → ChSt × Byte
  | .off => (.off, 0x01)
  | .heel => (.held, 0)
  | .run => if force then (.held, 0) else (.run, 0x03)
  | .held => (.held, 0)
  | .draining => (.draining, 0x07)
  | x => (x, 0x03)

theorem cmdOpen_answers (c : Ch) (s : State) : let h := (s.tripFirst c).ch c
    Answers (cmdOpen c s) c (openRow (mForce h.mode) h.st) fun _ => True := by
  have held := State.toHeld_st (s.tripFirst c) c ((s.tripFirst c).bnd c)
  simp only [cmdOpen]
  cases hs : ((s.tripFirst c).ch c).st with
  | heel => exact ⟨held, rfl, trivial⟩
  | run =>
    cases hf : mForce ((s.tripFirst c).ch c).mode with
    | true => exact ⟨held, rfl, trivial⟩
    | false => exact ⟨hs, rfl, trivial⟩
  | _ => exact ⟨hs, rfl, trivial⟩

/-- CLOSE (Table 2-7, R82). -/
def closeRow (clr force : Bool) : ChSt → ChSt × Byte
  | .off => (.off, 0x01)
  | .parked => if !clr then (.parked, 0x0A) else if force then (.heel, 0) else (.run, 0)
  | .held => (.run, 0)
  | .tripped => (.tripped, 0x05)
  | .draining => (.draining, 0x06)
  | x => (x, 0)

/-- A move that Draining defers is held, and the channel stays (R62). -/
theorem State.defer_ch (s : State) (c : Ch) (d : DefMove) : (s.defer c d).ch c = { s.ch c with defMove := some d } := by
  unfold State.defer
  dsimp only
  rw [State.ch_modCh_self]
  split
  · rw [State.ch_of_chan (State.chan_chEvAt ..)]
  · rfl

theorem cmdClose_answers (c : Ch) (s : State) : let u := s.tripFirst c
    let h := u.ch c
    Answers (cmdClose c s) c (closeRow u.clrHigh (mForce h.mode) h.st) fun x => h.st = .draining → x.defMove = some .close := by
  have run := State.st_of_putSt (State.toRun_orders (s.tripFirst c) c ((s.tripFirst c).bnd c))
  have heel := State.st_of_putSt (State.toHeel_orders (s.tripFirst c) c ((s.tripFirst c).bnd c))
  simp only [cmdClose, State.closeParked]
  cases hs : ((s.tripFirst c).ch c).st with
  | parked =>
    cases hc : (s.tripFirst c).clrHigh with
    | false => exact ⟨hs, rfl, nofun⟩
    | true =>
      cases hf : mForce ((s.tripFirst c).ch c).mode with
      | true => exact ⟨heel, rfl, nofun⟩
      | false => exact ⟨run, rfl, nofun⟩
  | held => exact ⟨run, rfl, nofun⟩
  | draining =>
    have d := State.defer_ch (s.tripFirst c) c .close
    exact ⟨(congrArg Channel.st d).trans hs, rfl, fun _ => congrArg Channel.defMove d⟩
  | _ => exact ⟨hs, rfl, nofun⟩

/-- HEEL (Table 2-7, R82, R163). -/
def heelRow (clr force : Bool) : ChSt → ChSt × Byte
  | .off => (.off, 0x01)
  | .parked => if !clr then (.parked, 0x0A) else if force then (.heel, 0) else (.parked, 0x04)
  | .heel => (.heel, 0)
  | .tripped => (.tripped, 0x05)
  | .draining => (.draining, 0x06)
  | x => if force then (.heel, 0) else (x, 0x04)

/-- A HEEL in this state writes setpoint and slew (R289). -/
def heelWrites (clr force : Bool) (x : ChSt) : Prop :=
  x = .heel ∨ (force = true ∧ (x = .run ∨ x = .held ∨ (x = .parked ∧ clr = true)))

theorem cmdHeel_answers (v u : Word) (c : Ch) (s : State) : let z := s.tripFirst c
    let h := z.ch c
    Answers (cmdHeel v u c s) c (heelRow z.clrHigh (mForce h.mode) h.st) fun x =>
      (h.st = .draining → x.defMove = some (.heel (sfld v 0 24) (fld u 0 24)))
        ∧ (heelWrites z.clrHigh (mForce h.mode) h.st → x.setpoint = sfld v 0 24 ∧ x.loop.heelSlew = fld u 0 24) := by
  obtain ⟨heel, put⟩ := State.toHeel_heelWrite (s.tripFirst c) c (sfld v 0 24) (fld u 0 24) ((s.tripFirst c).bnd c)
  simp only [cmdHeel, State.heelParked]
  cases hs : ((s.tripFirst c).ch c).st with
  | parked =>
    cases hc : (s.tripFirst c).clrHigh with
    | false => exact ⟨hs, rfl, nofun, by simp [heelWrites]⟩
    | true =>
      cases hf : mForce ((s.tripFirst c).ch c).mode with
      | true => exact ⟨heel, rfl, nofun, fun _ => put⟩
      | false => exact ⟨hs, rfl, nofun, by simp [heelWrites]⟩
  | heel =>
    have w := State.ch_modCh_self (s.tripFirst c) c fun h =>
      { h with setpoint := sfld v 0 24, loop := { h.loop with heelSlew := fld u 0 24 } }
    exact ⟨(congrArg Channel.st w).trans hs, rfl, nofun, fun _ =>
      ⟨congrArg Channel.setpoint w, congrArg (fun h : Channel => h.loop.heelSlew) w⟩⟩
  | run | held =>
    cases hf : mForce ((s.tripFirst c).ch c).mode with
    | true => exact ⟨heel, rfl, nofun, fun _ => put⟩
    | false => exact ⟨hs, rfl, nofun, by simp [heelWrites]⟩
  | draining =>
    have d := State.defer_ch (s.tripFirst c) c (.heel (sfld v 0 24) (fld u 0 24))
    exact ⟨(congrArg Channel.st d).trans hs, rfl, fun _ => congrArg Channel.defMove d, by simp [heelWrites]⟩
  | _ => exact ⟨hs, rfl, nofun, by simp [heelWrites]⟩

/-- PARK (Table 2-7). -/
def parkRow : ChSt → ChSt × Byte
  | .off => (.off, 0x01)
  | .parked => (.parked, 0)
  | .tripped => (.tripped, 0x05)
  | _ => (.draining, 0)

/-- PARK's slew, unless KEEP (R289). -/
def State.slewed (s : State) (c : Ch) (slew : Option Nat) : State := s.modCh c fun h => { h with drainSlew := slew.getD h.drainSlew }

theorem State.slewed_st (s : State) (c : Ch) (slew : Option Nat) : ((s.slewed c slew).ch c).st = (s.ch c).st := by
  rw [State.slewed, State.ch_modCh_self]

theorem State.slewed_drainSlew (s : State) (c : Ch) (slew : Option Nat) :
    ((s.slewed c slew).ch c).drainSlew = slew.getD (s.ch c).drainSlew := by
  rw [State.slewed, State.ch_modCh_self]

theorem cmdPark_answers (slew : Option Nat) (c : Ch) (s : State) : let h := (s.tripFirst c).ch c
    Answers (cmdPark slew c s) c (parkRow h.st) fun x =>
      (h.st ≠ .off → x.drainSlew = slew.getD h.drainSlew) ∧ (h.st = .draining → x.defMode = none ∧ x.defMove = none) := by
  have st := State.slewed_st (s.tripFirst c) c slew
  have put := State.slewed_drainSlew (s.tripFirst c) c slew
  unfold State.slewed at st put
  simp only [cmdPark, st]
  cases hs : ((s.tripFirst c).ch c).st with
  | off => exact ⟨hs, rfl, by simp⟩
  | heel | run | held =>
    obtain ⟨draining, kept⟩ := State.toDraining_ch ((s.tripFirst c).slewed c slew) c (((s.tripFirst c).slewed c slew).bnd c)
    exact ⟨draining, rfl, fun _ => kept.trans put, nofun⟩
  | draining =>
    obtain ⟨stays, kept, cancelled⟩ := State.defCancel_ch ((s.tripFirst c).slewed c slew) c (((s.tripFirst c).slewed c slew).bnd c)
    exact ⟨stays.trans (st.trans hs), rfl, fun _ => kept.trans put, fun _ => cancelled⟩
  | parked | tripped => exact ⟨st.trans hs, rfl, fun _ => put, nofun⟩

/-- TRIPCLR (R182, Table 2-7). -/
def tripclrRow (still : Prop) [Decidable still] : ChSt → ChSt × Byte
  | .off => (.off, 0x01)
  | .tripped => if still then (.tripped, 0x09) else (.parked, 0)
  | x => (x, 0x08)

theorem cmdTripclr_answers (c : Ch) (s : State) : let h := (s.tripFirst c).ch c
    let still := h.trip.active &&& ~~~h.trip.unres ≠ 0
    Answers (cmdTripclr c s) c (tripclrRow still h.st) fun x => h.st = .tripped → ¬ still → x.trip.latch = 0 := by
  simp only [cmdTripclr]
  cases hs : ((s.tripFirst c).ch c).st with
  | tripped =>
    by_cases hu : ((s.tripFirst c).ch c).unlit
    · have latch := State.toParked_latch hu ((s.tripFirst c).bnd c)
      rw [Channel.unlit] at hu
      simp only [tripclrRow, hu, if_true, ne_eq, not_true_eq_false, if_false]
      exact ⟨State.toParked_st .., rfl, fun _ _ => latch⟩
    · rw [Channel.unlit] at hu
      simp only [tripclrRow, hu, if_false, ne_eq, not_false_eq_true, if_true]
      exact ⟨hs, rfl, fun _ h => absurd trivial h⟩
  | _ => exact ⟨hs, rfl, nofun⟩

/-- Settles O17: one lemma per instruction says what it answers in every state of the channel. -/
theorem transitionRows : Obligations.TransitionRows := by
  unfold Obligations.TransitionRows
  intro s t w c hc
  refine ⟨fun hi => ?opens, fun hi => ?closes, fun hi => ?heels, fun hi => ?parks, fun hi => ?clears⟩
  case opens => exact State.ends_of_answers hi hc rfl (cmdOpen_answers c (s.atIssue t w))
  case closes => exact State.ends_of_answers hi hc rfl (cmdClose_answers c (s.atIssue t w))
  case heels =>
    have h := cmdHeel_answers (s.opV t w) (s.g t w.rb) c (s.atIssue t w)
    rw [sfld_low] at h
    exact State.ends_of_answers (f := fun c s => cmdHeel (s.opV t w) (s.g t w.rb) c s) hi hc rfl
      (by rw [State.opV_atIssue, State.g_atIssue]; exact h)
  case parks =>
    have h := cmdPark_answers (if ff w 0 1 = 1 then none else some (fld (s.opV t w) 0 18)) c (s.atIssue t w)
    simp only [getD_keep] at h
    exact State.ends_of_answers (f := fun c s => cmdPark (if ff w 0 1 = 1 then none else some (fld (s.opV t w) 0 18)) c s) hi hc rfl
      (by rw [State.opV_atIssue]; exact h)
  case clears => exact State.ends_of_answers hi hc rfl (cmdTripclr_answers c (s.atIssue t w))

end Sys2Proof.Machine
end

section
/-! PROOFS. The loop-period boundary (R41, R60, R143): the stimulus, the period and the stream leave what the channel is asked for, and the
pending mode word is taken. -/

namespace Sys2Proof.Machine

/-! ### The stimulus of a boundary -/

section
variable (s : State) (c : Ch) (t : Nat)

@[simp] theorem State.listBegin_orders (o i : Nat) : (s.listBegin c o i).orders = s.orders := State.modCh_orders rfl
@[simp] theorem State.listStep_orders : (s.listStep c t).orders = s.orders := by
  have left : (s.modCh c fun h => { h with listLeft := h.listLeft - 1 }).orders = s.orders := State.modCh_orders rfl
  have next : (s.modCh c fun h => { h with listNext := none }).orders = s.orders := State.modCh_orders rfl
  unfold State.listStep
  dsimp only
  (repeat' split) <;> simp [left, next]
@[simp] theorem State.ddsStep_orders : (s.ddsStep c t).1.orders = s.orders := by
  unfold State.ddsStep
  dsimp only
  split
  · exact State.modGen_orders ..
  · rfl

/-- What a boundary adds to the loop engine beside the counts of R60 and the boundary itself. -/
@[simp] theorem State.stickLoop_orders (b : Nat) (on : Bool) : (s.modLoop c fun l => l.stick b on).orders = s.orders := by
  refine State.modCh_orders ?_
  unfold LoopSt.stick
  split <;> rfl
@[simp] theorem State.combine_orders : (s.combine c t).1.orders = s.orders := by
  unfold State.combine
  dsimp only
  split
  · rw [State.stickLoop_orders]
    (repeat' split) <;> simp
  · (repeat' split) <;> rfl
@[simp] theorem State.pushPeriod_orders (sp : Int) : (s.pushPeriod c t sp).orders = s.orders := by
  refine State.modCh_orders ?_
  dsimp only
  split <;> rfl

end

/-! ### The mode word takes effect -/

/-- The word m would change the force flags of a closed channel in Heel or Run (R60). -/
def Channel.clashes (h : Channel) (m : BitVec 8) : Prop := (h.st = .heel ∨ h.st = .run) ∧ m &&& 3 ≠ h.mode &&& 3

/-- The channel with the mode word m (R41). -/
def Channel.setMode (h : Channel) (m : BitVec 8) : Channel := { h with mode := m, modePend := none }

/-- A mode word with the list and the crossover that it resets (R61). -/
theorem Channel.orders_setMode (h : Channel) (m : BitVec 8) (p q : Prop) [Decidable p] [Decidable q] :
    let h1 := h.setMode m
    let h2 := if p then
        { h1 with listRun := false, listSel := if h1.listNext.isSome then h1.listNext else h1.listSel, listNext := none }
      else h1
    (if q then { h2 with loop := { h2.loop with xoverI := false, xlimLo := false } } else h2).orders = h1.orders := by
  dsimp only
  (repeat' split) <;> rfl

theorem State.applyMode_orders (s : State) (c : Ch) (m : BitVec 8) (t : Nat) :
    (s.applyMode c m t).orders = (s.modCh c fun h => h.setMode m).orders := by
  have seen (u : State) : (u.modCh c fun h => { h with pulseSeen := false }).orders = u.orders := State.modCh_orders rfl
  have read (u : State) : (u.modCh c fun h => { h with rq := [] }).orders = u.orders := State.modCh_orders rfl
  unfold State.applyMode
  simp only [State.ite_orders, State.gateWin_orders, State.stimFollow_orders, read, State.closeStream_orders, State.truncRec_orders,
    State.pulseStop_orders, seen, State.genStop_orders, ite_self]
  exact State.orders_modCh rfl c (Channel.orders_setMode ..)

/-- What the channel x becomes where a boundary takes its mode word: the pending word takes effect, or is discarded and counted (R41,
R60). -/
structure TakesMode (x y : Channel) : Prop where
  modePend : y.modePend = none
  st : y.st = x.st
  lastB : y.loop.lastB = x.loop.lastB
  kept : x.modePend = none → y.mode = x.mode
  takes : ∀ m, x.modePend = some m → ¬ x.clashes m → y.mode = m ∧ y.loop.rejCount = x.loop.rejCount
  drops : ∀ m, x.modePend = some m → x.clashes m → y.mode = x.mode ∧ y.loop.rejCount = min 0xFFFF (x.loop.rejCount + 1)

/-- It speaks of what the channels are asked for alone. -/
theorem TakesMode.congr {x y x' y' : Channel} (h : TakesMode x y) (hx : x.orders = x'.orders) (hy : y'.orders = y.orders) :
    TakesMode x' y' := by
  obtain ⟨st, mode, modePend, -, -, -, -, lastB, rejCount, -⟩ := Channel.fields_of_orders hx
  obtain ⟨st', mode', modePend', -, -, -, -, lastB', rejCount', -⟩ := Channel.fields_of_orders hy
  have clash (m : BitVec 8) : x'.clashes m ↔ x.clashes m := by rw [Channel.clashes, Channel.clashes, st, mode]
  constructor
  case modePend => rw [modePend', h.modePend]
  case st => rw [st', h.st, st]
  case lastB => rw [lastB', h.lastB, lastB]
  case kept => rw [mode', ← mode, ← modePend]; exact h.kept
  case takes => intro m; rw [mode', rejCount', ← modePend, ← rejCount, clash]; exact h.takes m
  case drops => intro m; rw [mode', rejCount', ← modePend, ← rejCount, ← mode, clash]; exact h.drops m

theorem TakesMode.of_none {h : Channel} (hm : h.modePend = none) : TakesMode h h :=
  ⟨hm, rfl, rfl, fun _ => rfl, fun m e => by simp [hm] at e, fun m e => by simp [hm] at e⟩

theorem TakesMode.of_set {h : Channel} {m : BitVec 8} (hm : h.modePend = some m) (hx : ¬ h.clashes m) : TakesMode h (h.setMode m) := by
  have only {n : BitVec 8} (hn : h.modePend = some n) : m = n := Option.some_inj.1 (hm.symm.trans hn)
  refine ⟨rfl, rfl, rfl, fun e => by simp [hm] at e, fun n hn _ => ⟨only hn, rfl⟩, fun n hn hc => ?_⟩
  exact absurd (only hn ▸ hc) hx

theorem TakesMode.of_drop {h : Channel} {m : BitVec 8} (hm : h.modePend = some m) (hx : h.clashes m) :
    TakesMode h { h with modePend := none }.reject := by
  have only {n : BitVec 8} (hn : h.modePend = some n) : m = n := Option.some_inj.1 (hm.symm.trans hn)
  refine ⟨rfl, rfl, rfl, fun _ => rfl, fun n hn hc => ?_, fun _ _ _ => ⟨rfl, rfl⟩⟩
  exact absurd (only hn ▸ hx) hc

theorem State.modeBoundary_takes (s : State) (c : Ch) (t : Nat) : TakesMode (s.ch c) ((s.modeBoundary c t).ch c) := by
  have clash (m : BitVec 8) : (((s.ch c).st == .heel || (s.ch c).st == .run) && forceBits m != forceBits (s.ch c).mode) = true
      ↔ (s.ch c).clashes m := by simp [Channel.clashes, forceBits]
  cases hm : (s.ch c).modePend with
  | none =>
    simp only [State.modeBoundary, hm]
    exact .of_none hm
  | some m =>
    simp only [State.modeBoundary, hm]
    by_cases hx : (s.ch c).clashes m
    · rw [if_pos ((clash m).2 hx), State.ch_modCh_self]
      exact .of_drop hm hx
    · rw [if_neg (mt (clash m).1 hx)]
      refine (TakesMode.of_set hm hx).congr rfl ?_
      rw [State.orders_ch (State.applyMode_orders s c m t) c, State.ch_modCh_self]

/-- The actions of a boundary from the mode word on. -/
def State.boundaryWord (s : State) (c : Ch) (t : Nat) : State :=
  let s := (s.modeBoundary c t).drainStep c t
  let r := s.combine c t
  (((r.1.pushPeriod c t r.2).streamCheck c).genArm c t).trimRamp c t

theorem State.boundaryWord_takes (s : State) (c : Ch) (t : Nat) (hd : (s.ch c).st ≠ .draining) :
    TakesMode (s.ch c) ((s.boundaryWord c t).ch c) := by
  have h := State.modeBoundary_takes s c t
  have still : (s.modeBoundary c t).drainStep c t = s.modeBoundary c t := by simp [State.drainStep, h.st, hd]
  refine h.congr rfl (State.orders_ch ?_ c)
  simp [State.boundaryWord, still]

/-- The channel notes the boundary t (R143). -/
def Channel.atBoundary (h : Channel) (t : Nat) : Channel := { h with loop := { h.loop with lastB := t } }

/-- The boundary t of a channel with no trip under way and no drain. -/
theorem State.loopBoundary_takes (s : State) (c : Ch) (t : Nat) (hp : (s.ch c).trip.pend = false) (hd : (s.ch c).st ≠ .draining) :
    TakesMode ((s.ch c).atBoundary t) ((s.loopBoundary c t).ch c) := by
  have noted : (s.modLoop c fun l => { l with lastB := t }).ch c = (s.ch c).atBoundary t := State.ch_modCh_self ..
  have word {u : State} (h : u.orders = (s.modLoop c fun l => { l with lastB := t }).orders) :
      TakesMode ((s.ch c).atBoundary t) ((u.boundaryWord c t).ch c) := by
    have e := (State.orders_ch h c).trans (congrArg Channel.orders noted)
    refine (State.boundaryWord_takes u c t ?_).congr e rfl
    rw [(Channel.fields_of_orders e).1]
    exact hd
  unfold State.loopBoundary
  rw [State.tripAt_of_not_pend hp]
  dsimp only
  split
  · split
    · exact word ((State.stimFollow_orders ..).trans (State.modCh_orders rfl))
    · exact word rfl
  · exact word rfl

/-- The row of a clocked channel (R143). -/
theorem exec_loopPeriodBoundary {s : State} {c : Ch} (hc : s.clocked c = true) :
    let t := s.loopFrom c (max ((s.ch c).loop.lastB + 1) (s.now c))
    exec (.loopPeriodBoundary c) s = .next ((s.advanceDie (dieOfCh c) t).loopBoundary c t).settle :=
  congrArg Host.Outcome.next (if_pos hc)

/-- Settles O27: the boundary that comes is that of the row, and it takes the pending mode word (`State.loopBoundary_takes`). -/
theorem loopBoundary : Obligations.LoopBoundary := by
  unfold Obligations.LoopBoundary
  intro s c hc hp hd
  refine ⟨_, exec_loopPeriodBoundary hc, ?_⟩
  generalize s.loopFrom c (max ((s.ch c).loop.lastB + 1) (s.now c)) = t
  have h := State.loopBoundary_takes (s.advanceDie (dieOfCh c) t) c t (by rwa [State.ch_advanceDie]) (by rwa [State.ch_advanceDie])
  rw [State.ch_advanceDie, ← State.ch_of_bare (State.bare_settle ((s.advanceDie (dieOfCh c) t).loopBoundary c t)) c] at h
  exact ⟨h.lastB, h.modePend, h.st, h.kept, h.takes, h.drops⟩

end Sys2Proof.Machine
end

section
/-! PROOFS. The force path and Muzzle: what the trip logic makes of a channel's trip state, and everything else of the channels, which
trips, windows and DAC codes leave alone. -/

namespace Sys2Proof.Machine

/-! ### Channels under the trip logic -/

/-- The channel without what its trip logic moves: trips and gates, and what a discarded calibration step sets free (R323). -/
def Channel.plain (h : Channel) : Channel :=
  { h with trip := .reset, gates := 0, calBus := false, convA := .reset .a, convB := .reset .b }

/-- Every channel without what its trip logic moves. -/
def State.plains (s : State) : Vector Channel 96 := s.chan.map Channel.plain

/-- What two channels share that differ under the trip logic alone. -/
theorem Channel.fields_of_plain {x y : Channel} (h : x.plain = y.plain) : x.st = y.st ∧ x.dac = y.dac ∧ x.pulse = y.pulse
    ∧ x.pulseAct = y.pulseAct ∧ x.powerupOut = y.powerupOut ∧ x.act = y.act ∧ x.tgt = y.tgt ∧ x.rchg = y.rchg := by
  simp only [Channel.plain, Channel.mk.injEq] at h
  tauto

theorem State.plain_ch {s u : State} (h : u.plains = s.plains) (c : Ch) : (u.ch c).plain = (s.ch c).plain :=
  (vget_map ..).symm.trans ((congrArg (fun v => v.get c) h).trans (vget_map ..))

theorem State.plains_of_chan {s u : State} (h : u.chan = s.chan) : u.plains = s.plains := congrArg (Vector.map Channel.plain) h

theorem State.modCh_plains {s : State} {c : Ch} {f : Channel → Channel} (h : (f (s.ch c)).plain = (s.ch c).plain) :
    (s.modCh c f).plains = s.plains := vmap_set_of Channel.plain s.chan c _ h

/-- A view of the channels that no calibration step moves outlives one that is discarded (R323). -/
theorem State.stepDisturb_map {α : Type} (g : Channel → α)
    (hg : ∀ h b x y, g { h with calBus := b, convA := x, convB := y } = g h) (s : State) (c : Ch) :
    (s.stepDisturb c).chan.map g = s.chan.map g := by
  have off (r : Rg) : (s.stepOff r).chan.map g = s.chan.map g := by
    unfold State.stepOff
    rw [State.modRg_chan]
    split
    · exact vmap_set_of g s.chan _ _ (hg ..)
    · rfl
  unfold State.stepDisturb State.stepDiscard
  split
  · split
    · exact off _
    · rfl
  · rfl

theorem State.stepDisturb_plains (s : State) (c : Ch) : (s.stepDisturb c).plains = s.plains :=
  State.stepDisturb_map Channel.plain (fun _ _ _ _ => rfl) s c

theorem State.stepDisturb_trip (s : State) (c d : Ch) : ((s.stepDisturb c).ch d).trip = (s.ch d).trip := by
  have e := congrArg (fun v => v.get d) (State.stepDisturb_map Channel.trip (fun _ _ _ _ => rfl) s c)
  exact (vget_map ..).symm.trans (e.trans (vget_map ..))

theorem State.stepDisturb_st (s : State) (c d : Ch) : ((s.stepDisturb c).ch d).st = (s.ch d).st :=
  State.st_of_calm (State.stepDisturb_calm s c) d

@[simp] theorem State.ite_plains (p : Prop) [Decidable p] (s u : State) : (if p then s else u).plains =
    if p then s.plains else u.plains := apply_ite ..

section
variable (s : State) (c : Ch) (t : Nat) (m : Cmp)

@[simp] theorem State.chEvAt_plains (e : ChEv) (detail : Word) : (s.chEvAt c e detail t).plains = s.plains :=
  State.plains_of_chan (State.chan_chEvAt ..)
@[simp] theorem State.modTrip_plains (f : TripSt → TripSt) : (s.modTrip c f).plains = s.plains := State.modCh_plains rfl
@[simp] theorem State.refreshGates_plains : (s.refreshGates c).plains = s.plains := State.modCh_plains rfl
@[simp] theorem State.recalcThr_plains (e : RangeEntry) : (s.recalcThr c e).plains = s.plains := State.modTrip_plains ..
@[simp] theorem State.latchTrip_plains : (s.latchTrip c m t).plains = s.plains := by
  simp [State.latchTrip, State.stepDisturb_plains]
@[simp] theorem State.evalCmp_plains : (s.evalCmp c m t).plains = s.plains := by simp [State.evalCmp]
@[simp] theorem State.evalTrip_plains : (s.evalTrip c t).plains = s.plains := by
  have all := State.each_frame State.plains (List.finRange 4) (fun m s => State.evalCmp_plains s c t m) s
  simp [State.evalTrip, all]
@[simp] theorem State.openWin_plains (i : Fin 5) (len : Nat) (mask : BitVec 4) : (s.openWin c i t len mask).plains = s.plains := by
  simp [State.openWin]

/-- A pulse edge turns the pulse gate over, and moves nothing else but trips and gates (R91). -/
theorem State.pulseEdgeFx_plains (act : Bool) :
    (s.pulseEdgeFx c act t).plains = (s.modCh c fun h => { h with pulseAct := act }).plains := by
  simp [State.pulseEdgeFx]

end

/-! ### Channels beside their output -/

/-- The channel also without the code that the DAC holds and shows. -/
def Channel.inner (h : Channel) : Channel := { h.plain with dac := 0, fout := 0, hold := none }

/-- Every channel beside its output. -/
def State.inners (s : State) : Vector Channel 96 := s.chan.map Channel.inner

/-- What two channels share that differ in their output and under the trip logic alone. -/
theorem Channel.fields_of_inner {x y : Channel} (h : x.inner = y.inner) : x.st = y.st ∧ x.defMode = y.defMode ∧ x.defMove = y.defMove
    ∧ x.clrActive = y.clrActive ∧ x.queue = y.queue ∧ x.chgOver = y.chgOver ∧ x.outType = y.outType ∧ x.held = y.held := by
  simp only [Channel.inner, Channel.plain, Channel.mk.injEq] at h
  tauto

theorem State.inner_ch {s u : State} (h : u.inners = s.inners) (c : Ch) : (u.ch c).inner = (s.ch c).inner :=
  (vget_map ..).symm.trans ((congrArg (fun v => v.get c) h).trans (vget_map ..))

theorem State.modCh_inners {s : State} {c : Ch} {f : Channel → Channel} (h : (f (s.ch c)).inner = (s.ch c).inner) :
    (s.modCh c f).inners = s.inners := vmap_set_of Channel.inner s.chan c _ h

theorem State.inners_of_plains {s u : State} (h : u.plains = s.plains) : u.inners = s.inners := by
  have e (x : State) : x.inners = x.plains.map Channel.inner := by
    rw [State.inners, State.plains, Vector.map_map]
    rfl
  rw [e, e, h]

/-- The DAC takes the code that it is given (R71, R72). -/
theorem State.putDac_dac (s : State) (c : Ch) (v : Code) (t : Nat) : ((s.putDac c v t).ch c).dac = v := by
  have dac {u : State} {f : Channel → Channel} (h : u.plains = (s.modCh c f).plains) : (u.ch c).dac = (f (s.ch c)).dac := by
    obtain ⟨-, dac, -⟩ := Channel.fields_of_plain (State.plain_ch h c)
    rw [dac, State.ch_modCh_self]
  unfold State.putDac
  dsimp only
  split
  · exact dac (State.openWin_plains ..)
  · exact dac rfl

/-- A new code moves the output alone (R71 to R73). -/
theorem State.putDac_inners (s : State) (c : Ch) (v : Code) (t : Nat) : (s.putDac c v t).inners = s.inners := by
  unfold State.putDac
  dsimp only
  split
  · exact (State.inners_of_plains (State.openWin_plains ..)).trans (State.modCh_inners rfl)
  · exact State.modCh_inners rfl

theorem State.showDac_inners (s : State) (c : Ch) (t : Nat) : (s.showDac c t).inners = s.inners := by
  unfold State.showDac
  split
  · exact State.putDac_inners ..
  · rfl

/-! ### The trip state under the trip logic -/

/-- Comparator m latches at tick t; a channel that is not Tripped is to trip (R173 to R175). -/
def TripSt.latchAt (p : TripSt) (m : Cmp) (t : Nat) (live : Bool) : TripSt :=
  let p1 := if p.latch == 0 then { p with tripTs := wd t, first := BitVec.ofNat 2 m.1 }
    else if p.pend && p.tripTs == wd t && decide (m.1 < p.first.toNat) then { p with first := BitVec.ofNat 2 m.1 }
    else p
  { p1 with latch := p.latch ||| BitVec.ofNat 4 (2 ^ m.1), count := satAdd 0xFFFF p.count 1
            pendAt := if p.pend then p.pendAt else t
            pend := p.pend || live }

/-- Comparator m is judged at tick t (R171, R172, R180). -/
def TripSt.judge (p : TripSt) (m : Cmp) (t : Nat) (level live : Bool) : TripSt :=
  let b := BitVec.ofNat 4 (2 ^ m.1)
  if !bit p.active m.1 || bit p.unres m.1 then { p with watch := p.watch &&& ~~~b }
  else if p.blanked m.1 t then { p with watch := p.watch &&& ~~~b, sticky := p.sticky ||| wd (2 ^ (16 + m.1)) }
  else if level then if bit p.latch m.1 then p else { p with watch := p.watch &&& ~~~b }.latchAt m t live
  else if bit p.watch m.1 then p
  else { p with watch := p.watch ||| b, sticky := p.sticky ||| wd (2 ^ (8 + m.1)) }

theorem State.modTrip_trip (s : State) (c : Ch) (f : TripSt → TripSt) : ((s.modTrip c f).ch c).trip = f (s.ch c).trip := by
  rw [State.modTrip, State.ch_modCh_self]

theorem State.latchTrip_trip (s : State) (c : Ch) (m : Cmp) (t : Nat) :
    ((s.latchTrip c m t).ch c).trip = (s.ch c).trip.latchAt m t ((s.ch c).st != .tripped) := by
  unfold State.latchTrip
  dsimp only
  rw [State.ch_of_chan (State.chan_chEvAt ..), State.refreshGates, State.ch_modCh_self, State.modTrip_trip, State.stepDisturb_trip,
    State.stepDisturb_st]
  rfl

theorem State.evalCmp_trip (s : State) (c : Ch) (m : Cmp) (t : Nat) :
    ((s.evalCmp c m t).ch c).trip = (s.ch c).trip.judge m t (s.hasLevel c m) ((s.ch c).st != .tripped) := by
  unfold State.evalCmp TripSt.judge
  dsimp only
  split
  · exact State.modTrip_trip ..
  · split
    · exact State.modTrip_trip ..
    · split
      · split
        · rfl
        · rw [State.latchTrip_trip, State.modTrip_trip, State.modTrip, State.ch_modCh_self]
      · split
        · rfl
        · rw [State.ch_of_chan (State.chan_chEvAt ..), State.modTrip_trip]

section
variable (p : TripSt) (m : Cmp) (t : Nat) (level live : Bool)

/-- A latch writes neither the comparators nor the windows. -/
theorem TripSt.latchAt_frame : (p.latchAt m t live).active = p.active ∧ (p.latchAt m t live).unres = p.unres
    ∧ (p.latchAt m t live).win = p.win := by
  unfold TripSt.latchAt
  dsimp only
  (repeat' split) <;> exact ⟨rfl, rfl, rfl⟩

theorem TripSt.judge_frame : (p.judge m t level live).active = p.active ∧ (p.judge m t level live).unres = p.unres
    ∧ (p.judge m t level live).win = p.win := by
  unfold TripSt.judge
  dsimp only
  split
  · exact ⟨rfl, rfl, rfl⟩
  · split
    · exact ⟨rfl, rfl, rfl⟩
    · split
      · split
        · exact ⟨rfl, rfl, rfl⟩
        · exact TripSt.latchAt_frame ..
      · split <;> exact ⟨rfl, rfl, rfl⟩

/-- No comparator's judgement takes a latch back (R176). -/
theorem TripSt.judge_keeps_latch {j : Nat} (h : bit p.latch j = true) : bit (p.judge m t level live).latch j = true := by
  unfold TripSt.judge
  dsimp only
  split
  · exact h
  · split
    · exact h
    · split
      · split
        · exact h
        · exact (BitVec.getLsbD_or ..).trans (by rw [show p.latch.getLsbD j = true from h, Bool.true_or])
      · split <;> exact h

end

theorem bit_ofNat_pow {n i : Nat} (h : i < n) : bit (BitVec.ofNat n (2 ^ i)) i = true := by
  rw [bit, BitVec.getLsbD_ofNat, Nat.testBit_two_pow_self, decide_eq_true h, Bool.true_and]

theorem bit_or_pow {n i : Nat} (h : i < n) (v : BitVec n) : bit (v ||| BitVec.ofNat n (2 ^ i)) i = true := by
  rw [bit, BitVec.getLsbD_or, show BitVec.getLsbD (BitVec.ofNat n (2 ^ i)) i = true from bit_ofNat_pow h, Bool.or_true]

theorem bit_and_not_pow {n i : Nat} (h : i < n) (v : BitVec n) : bit (v &&& ~~~BitVec.ofNat n (2 ^ i)) i = false := by
  rw [bit, BitVec.getLsbD_and, BitVec.getLsbD_not, show BitVec.getLsbD (BitVec.ofNat n (2 ^ i)) i = true from bit_ofNat_pow h,
    Bool.not_true, Bool.and_false, Bool.and_false]

/-- A bit that is set is not set again. -/
theorem or_pow_of_bit : ∀ (v : BitVec 4) (m : Cmp), bit v m.1 = true → v ||| BitVec.ofNat 4 (2 ^ m.1) = v := by decide

/-- Comparator m is active and resolved: it is judged. -/
def TripSt.Lit (p : TripSt) (m : Cmp) : Prop := bit p.active m.1 = true ∧ bit p.unres m.1 = false

section
variable {p : TripSt} {m : Cmp} {t : Nat} {level live : Bool}

theorem TripSt.Lit.judged (h : p.Lit m) : (!bit p.active m.1 || bit p.unres m.1) = false := by
  obtain ⟨active, resolved⟩ := h
  rw [active, resolved]
  rfl

/-- Under a window BLK_HIT sets (R180). -/
theorem TripSt.judge_blanked (h : p.Lit m) (hb : p.blanked m.1 t = true) : (p.judge m t level live).latch = p.latch
    ∧ (p.judge m t level live).count = p.count ∧ bit (p.judge m t level live).sticky (16 + m.1) = true := by
  have hm := m.2
  rw [TripSt.judge, if_neg (ne_true_of_eq_false h.judged), if_pos hb]
  exact ⟨rfl, rfl, bit_or_pow (by omega) p.sticky⟩

/-- Without a window and with a trip level, the comparator latches unless it has (R171). -/
theorem TripSt.judge_level (h : p.Lit m) (hb : p.blanked m.1 t = false) : p.judge m t true live =
    if bit p.latch m.1 then p else { p with watch := p.watch &&& ~~~BitVec.ofNat 4 (2 ^ m.1) }.latchAt m t live := by
  rw [TripSt.judge, if_neg (ne_true_of_eq_false h.judged), if_neg (ne_true_of_eq_false hb)]
  rfl

/-- Without a window or a trip level, the comparator is on watch (R172). -/
theorem TripSt.judge_watch (h : p.Lit m) (hb : p.blanked m.1 t = false) :
    (p.judge m t false live).latch = p.latch ∧ bit (p.judge m t false live).watch m.1 = true := by
  rw [TripSt.judge, if_neg (ne_true_of_eq_false h.judged), if_neg (ne_true_of_eq_false hb),
    if_neg Bool.false_ne_true]
  split
  next hw => exact ⟨rfl, hw⟩
  · exact ⟨rfl, bit_or_pow m.2 p.watch⟩

/-- A trip level latches the comparator. -/
theorem TripSt.judge_latch (h : p.Lit m) (hb : p.blanked m.1 t = false) :
    (p.judge m t true live).latch = p.latch ||| BitVec.ofNat 4 (2 ^ m.1) := by
  rw [TripSt.judge_level h hb]
  split
  next hl => exact (or_pow_of_bit _ _ hl).symm
  · rfl

/-- The first latch gives FIRST and TRIP_TS (R173). -/
theorem TripSt.judge_first (h : p.Lit m) (hb : p.blanked m.1 t = false) (h0 : p.latch = 0) :
    (p.judge m t true live).first.toNat = m.1 ∧ (p.judge m t true live).tripTs = wd t := by
  have hm := m.2
  rw [TripSt.judge_level h hb, if_neg (by simp [h0, bit]), TripSt.latchAt]
  simp only [h0, beq_self_eq_true, if_true]
  exact ⟨(BitVec.toNat_ofNat ..).trans (Nat.mod_eq_of_lt hm), trivial⟩

/-- A new latch counts, and its channel is to trip (R174, R175). -/
theorem TripSt.judge_count (h : p.Lit m) (hb : p.blanked m.1 t = false) (hl : bit p.latch m.1 = false) :
    (p.judge m t true live).count = min 0xFFFF (p.count + 1) ∧ (live = true → (p.judge m t true live).pend = true) := by
  rw [TripSt.judge_level h hb, if_neg (ne_true_of_eq_false hl)]
  refine ⟨rfl, fun hv => ?_⟩
  rw [hv]
  exact Bool.or_true _

end

/-! ### A row at its tick -/

@[simp] theorem State.ch_advance (s : State) (t : Nat) (c : Ch) : (s.advance t).ch c = s.ch c :=
  congrArg (fun v => v.get c) (State.chan_advance s t)

theorem State.ch_settle (s : State) (c : Ch) : s.settle.ch c = s.ch c := State.ch_of_bare (State.bare_settle s) c

theorem State.modCh_id (s : State) (c : Ch) : s.modCh c id = s := congrArg (fun v => { s with chan := v }) (vset_get s.chan c)

/-- An event that changes one channel changes nothing else. -/
theorem State.onlyCh_event (s : State) (tk : Nat) (c : Ch) (f : Channel → Channel) : s.onlyCh c ((s.advance tk).modCh c f).settle := by
  have h : ((s.advance tk).modCh c f).settle.bare = (s.modCh c f).bare := by
    rw [State.bare_settle, State.bare_modCh, State.bare_advance, ← State.bare_modCh]
  have e : ((s.advance tk).modCh c f).settle.ch c = f (s.ch c) := (State.ch_of_bare h c).trans (State.ch_modCh_self ..)
  rw [State.onlyCh, h, e]
  exact congrArg State.bare (State.modCh_congr s c f _ rfl)

theorem State.hasLevel_of_clus {s u : State} (h : u.clus = s.clus) (c : Ch) (m : Cmp) : u.hasLevel c m = s.hasLevel c m := by
  simp only [State.hasLevel, State.ctl, State.cl, h]

theorem State.hasLevel_of_env {s u : State} (h : u.env = s.env) (c : Ch) (m : Cmp) : u.hasLevel c m = s.hasLevel c m := by
  have e : (u.cl (clOf c)).tmem = (s.cl (clOf c)).tmem := by
    have hc := congrArg Cluster.tmem (State.cl_of_env h (clOf c))
    exact hc
  simp only [State.hasLevel, State.ctl, e]

end Sys2Proof.Machine
end

section
/-! PROOFS. Comparators, blanking windows and pulse edges (R91, R166, R171 to R184). -/

namespace Sys2Proof.Machine

/-! ### A comparator that goes active, or inactive -/

/-- Comparator m goes active and is resolved (R166, R184). -/
def TripSt.light (p : TripSt) (m : Cmp) : TripSt :=
  { p with active := p.active ||| .ofNat 4 (2 ^ m.1), unres := p.unres &&& ~~~(.ofNat 4 (2 ^ m.1)) }

/-- Comparator m goes inactive (R166, R184). -/
def TripSt.dim (p : TripSt) (m : Cmp) : TripSt :=
  { p with active := p.active &&& ~~~(.ofNat 4 (2 ^ m.1)), unres := p.unres &&& ~~~(.ofNat 4 (2 ^ m.1)) }

theorem TripSt.light_lit (p : TripSt) (m : Cmp) : (p.light m).Lit m := ⟨bit_or_pow m.2 _, bit_and_not_pow m.2 _⟩

/-- Comparator m of a powered channel takes a new level and is judged. -/
def State.compare (s : State) (c : Ch) (m : Cmp) (f : TripSt → TripSt) : State := (s.modTrip c f).evalCmp c m (s.now c)

theorem State.compare_trip (s : State) (c : Ch) (m : Cmp) (f : TripSt → TripSt) : ((s.compare c m f).ch c).trip =
    (f (s.ch c).trip).judge m (s.now c) (s.hasLevel c m) ((s.ch c).st != .tripped) := by
  have st : ((s.modTrip c f).ch c).st = (s.ch c).st := by rw [State.modTrip, State.ch_modCh_self]
  have level : (s.modTrip c f).hasLevel c m = s.hasLevel c m := rfl
  rw [State.compare, State.evalCmp_trip, State.modTrip_trip, level, st]

/-- What a comparator that is not active makes of the state: nothing but its trip state changes. -/
theorem State.evalCmp_of_inactive {s : State} {c : Ch} {m : Cmp} (h : bit (s.ch c).trip.active m.1 = false) (t : Nat) :
    s.evalCmp c m t = s.modTrip c fun p => { p with watch := p.watch &&& ~~~BitVec.ofNat 4 (2 ^ m.1) } :=
  if_pos (by rw [h]; rfl)

theorem State.compare_dim (s : State) (c : Ch) (m : Cmp) : s.compare c m (·.dim m) =
    s.modTrip c fun p => { p.dim m with watch := p.watch &&& ~~~BitVec.ofNat 4 (2 ^ m.1) } := by
  rw [State.compare, State.evalCmp_of_inactive (by rw [State.modTrip_trip]; exact bit_and_not_pow m.2 _)]
  exact State.modCh_modCh ..

/-! ### The end of a window (R180) -/

/-- Comparator m of the channel latches where it is judged at tick t. -/
def State.Armed (s : State) (c : Ch) (t : Nat) (m : Cmp) : Prop :=
  (s.ch c).trip.Lit m ∧ s.hasLevel c m = true ∧ (s.ch c).trip.blanked m.1 t = false

/-- Whether a comparator latches does not hang on the judgement of another. -/
theorem State.evalCmp_armed (s : State) (c : Ch) (m j : Cmp) (t : Nat) : (s.evalCmp c j t).Armed c t m ↔ s.Armed c t m := by
  have level : (s.evalCmp c j t).hasLevel c m = s.hasLevel c m :=
    State.hasLevel_of_env (State.env_of_calm (State.evalCmp_calm s c t j)) c m
  obtain ⟨active, unres, win⟩ := TripSt.judge_frame (s.ch c).trip j t (s.hasLevel c j) ((s.ch c).st != .tripped)
  simp only [State.Armed, TripSt.Lit, TripSt.blanked, level, State.evalCmp_trip, active, unres, win]

theorem State.evalCmp_latch {s : State} {c : Ch} {m : Cmp} {t : Nat} (h : s.Armed c t m) :
    bit ((s.evalCmp c m t).ch c).trip.latch m.1 = true := by
  obtain ⟨lit, level, clear⟩ := h
  rw [State.evalCmp_trip, level, TripSt.judge_latch lit clear]
  exact bit_or_pow m.2 _

theorem State.evalTrip_latch {s : State} {c : Ch} {m : Cmp} {t : Nat} (ho : (s.ch c).st ≠ .off) (h : s.Armed c t m) :
    bit ((s.evalTrip c t).ch c).trip.latch m.1 = true := by
  have latches := State.each_all (fun m (u : State) => u.Armed c t m → bit (u.ch c).trip.latch m.1 = true) (List.finRange 4)
    (f := fun j u => u.evalCmp c j t) (fun m u hu => State.evalCmp_latch ((State.evalCmp_armed u c m m t).1 hu))
    (fun m j u hm hu => by
      rw [State.evalCmp_trip]
      exact TripSt.judge_keeps_latch _ j t _ _ (hm ((State.evalCmp_armed u c m j t).1 hu)))
    s m (List.mem_finRange m)
  have armed := State.each_frame (fun u => State.Armed u c t m) (List.finRange 4) (f := fun j u => u.evalCmp c j t)
    (fun j u => propext (State.evalCmp_armed u c m j t)) s
  rw [State.evalTrip, if_neg (by simpa using ho)]
  exact latches (armed.symm ▸ h)

/-! ### Pulse edges (R91) -/

theorem State.pulseEdgeFx_ch (s : State) (c : Ch) (act : Bool) (t : Nat) : ((s.pulseEdgeFx c act t).ch c).pulseAct = act
    ∧ ((s.pulseEdgeFx c act t).ch c).pulse = (s.ch c).pulse := by
  have e := State.plain_ch (State.pulseEdgeFx_plains s c t act) c
  rw [State.ch_modCh_self] at e
  obtain ⟨-, -, pulse, act, -⟩ := Channel.fields_of_plain e
  exact ⟨act, pulse⟩

/-- The edge ends the pulse, or begins the next one at its tick. -/
theorem State.pulseStep_ch (s : State) (c : Ch) (p : PulseRun) (t : Nat) :
    ((s.pulseStep c p t).ch c).pulseAct = !(s.ch c).pulseAct
    ∧ ((s.ch c).pulseAct = false → ((s.pulseStep c p t).ch c).pulse = some { p with t0 := t, left := p.left.map (· - 1) }) := by
  cases h : (s.ch c).pulseAct with
  | true =>
    obtain ⟨act, -⟩ := State.pulseEdgeFx_ch s c false t
    refine ⟨?_, nofun⟩
    simp only [State.pulseStep, h, if_true]
    split
    · rw [State.ch_modCh_self]
      exact act
    · exact act
  | false =>
    obtain ⟨act, pulse⟩ := State.pulseEdgeFx_ch
      (s.modCh c fun h => { h with pulse := some { p with t0 := t, left := p.left.map (· - 1) } }) c true t
    simp only [State.pulseStep, h, Bool.false_eq_true, if_false]
    rw [State.ch_modCh_self] at pulse
    exact ⟨act, fun _ => pulse⟩

/-- The row of a powered channel's comparator. -/
theorem State.ends_comparator {s : State} {c : Ch} {m : Cmp} {tk : Nat} {i : Instr} {f : TripSt → TripSt} {P : State → Prop}
    (he : exec i s = .next (s.eventAt tk fun s => if (s.ch c).st == .off then s else s.compare c m f)) (ho : (s.ch c).st ≠ .off)
    (h : P ((s.advance tk).compare c m f).settle) : s.ends i P :=
  State.ends_event he (if_neg (by simpa using ho)) h

/-- Settles O32: the comparators by what a judgement makes of the trip state (`TripSt.judge`), the end of a window by the judgement of
all four (`State.evalTrip_latch`). -/
theorem tripRows : Obligations.TripRows := by
  unfold Obligations.TripRows
  intro s c m k tk
  dsimp only
  refine ⟨fun ho => ?active, fun ho => ?inactive, fun he ho ha hu hl hb => ?window, fun r n hr hn ht => ?pulse⟩
  case active =>
    refine State.ends_comparator (f := (·.light m)) rfl ho ?_
    have lit := TripSt.light_lit (s.ch c).trip m
    have level : (s.advance tk).hasLevel c m = s.hasLevel c m := State.hasLevel_of_clus (State.clus_advance s tk) c m
    rw [State.ch_settle, State.compare_trip, State.ch_advance, level]
    generalize (s.advance tk).now c = n
    obtain ⟨active, unres, -⟩ := TripSt.judge_frame ((s.ch c).trip.light m) m n (s.hasLevel c m) ((s.ch c).st != .tripped)
    refine ⟨active, unres, fun hb => TripSt.judge_blanked lit hb, fun hb hl => ?_, fun hb hl => ?_⟩
    · rw [hl]
      refine ⟨TripSt.judge_latch lit hb, fun h0 => TripSt.judge_first lit hb h0, fun hn => ?_⟩
      obtain ⟨count, pend⟩ := TripSt.judge_count (live := (s.ch c).st != .tripped) lit hb hn
      exact ⟨count, fun ht => pend (by simpa using ht)⟩
    · rw [hl]
      exact TripSt.judge_watch lit hb
  case inactive =>
    refine State.ends_comparator (f := (·.dim m)) rfl ho ?_
    rw [State.compare_dim]
    refine ⟨State.onlyCh_event s tk c _, ?_⟩
    rw [State.ch_settle, State.modTrip_trip, State.ch_advance]
    exact ⟨rfl, rfl, rfl, rfl⟩
  case window =>
    refine State.ends_of (congrArg Host.Outcome.next (if_neg he)) ?_
    rw [State.dueAt, State.ch_settle]
    refine State.evalTrip_latch (by rwa [State.ch_advanceDie]) ⟨?_, ?_, ?_⟩
    · rw [State.ch_advanceDie]
      exact ⟨ha, hu⟩
    · exact (State.hasLevel_of_clus (State.clus_advance ..) c m).trans hl
    · rwa [State.ch_advanceDie]
  case pulse =>
    refine State.ends_event (u := (s.advance tk).pulseStep c r n) rfl ?_ ?_
    · simp only [State.ch_advance, hr, hn, if_pos ht]
    · obtain ⟨act, pulse⟩ := State.pulseStep_ch (s.advance tk) c r n
      rw [State.ch_advance] at act pulse
      rw [State.ch_settle]
      exact ⟨act, fun h => ⟨_, pulse h, rfl⟩⟩

end Sys2Proof.Machine
end

section
/-! PROOFS. The DAC at an update boundary, the end of a hold and of a change-over (R66 to R75, R101, R401). -/

namespace Sys2Proof.Machine

/-! ### An update boundary -/

section
variable {s : State} {c : Ch} {t : Nat}

/-- A code that Table 3-13 selects reaches the DAC. -/
theorem State.dacStep_code {v : Code} (h : s.foutSrc c = .code v) : ((s.dacStep c t).ch c).dac = v := by
  simp only [State.dacStep, h]
  exact State.putDac_dac ..

/-- The front of the queue, written before the boundary, leaves it for the DAC (R68, R401). -/
theorem State.dacStep_item {w : Nat} {v : Code} {l : List (Nat × Code)} (h : s.foutSrc c = .queue) (hq : (s.ch c).queue = (w, v) :: l)
    (hw : w < t) : ((s.dacStep c t).ch c).dac = v ∧ ((s.dacStep c t).ch c).queue = l := by
  have item : (s.ch c).queue.head?.filter (fun x => decide (x.1 < t)) = some (w, v) := by simp [hq, hw]
  simp only [State.dacStep, h, item, Option.isSome_some, if_true]
  have e := State.inner_ch (State.putDac_inners (s.modCh c fun h => { h with queue := h.queue.tail }) c v t) c
  rw [State.ch_modCh_self] at e
  obtain ⟨-, -, -, -, queue, -⟩ := Channel.fields_of_inner e
  exact ⟨State.putDac_dac .., queue.trans (congrArg List.tail hq)⟩

/-- No item is there to be read at t. -/
theorem item_none_of_late {q : List (Nat × Code)} {w : Nat} {v : Code} {l : List (Nat × Code)}
    (hq : q = [] ∨ (q = (w, v) :: l ∧ t ≤ w)) :
    q.head?.filter (fun x => decide (x.1 < t)) = none := by
  rcases hq with rfl | ⟨rfl, hw⟩
  · rfl
  · simp [hw]

/-- Without an item the DAC keeps its code, and a source that writes still has an underrun (R68). -/
theorem State.dacStep_dry (h : s.foutSrc c = .queue) (hq : (s.ch c).queue.head?.filter (fun x => decide (x.1 < t)) = none) :
    s.dacStep c t = s.modCh c fun h => { h with rSticky := if h.queueFed t then h.rSticky ||| 0x4000 else h.rSticky } := by
  simp only [State.dacStep, h, hq]
  split
  next hf => exact State.modCh_congr _ _ _ _ (by rw [if_pos hf])
  next hf => exact (State.modCh_id s c).symm.trans (State.modCh_congr _ _ _ _ (by rw [if_neg hf]; rfl))

end

theorem State.ends_dacUpdate {s : State} {tk : Nat} {c : Ch} {P : State → Prop} (hc : (s.advance tk).clocked c = true)
    (hu : (s.advance tk).isUpdate c ((s.advance tk).now c) = true)
    (h : P ((s.advance tk).dacStep c ((s.advance tk).now c)).settle) : s.ends (.dacUpdate tk c) P :=
  State.ends_event rfl (if_pos (by rw [hc, hu]; rfl)) h

/-! ### The ends of a hold and of a change-over -/

theorem exec_holdEnd {s : State} {c : Ch} {e : Nat} (h : (s.ch c).hold = some e) : exec (.deglitchHoldEnd c) s =
    .next (s.dueAt (dieOfCh c) e fun s => s.modCh c fun h => { h with fout := h.dac, hold := none }) := by
  show execDeglitchHoldEnd c s = _
  rw [execDeglitchHoldEnd, h]

theorem exec_changeOverEnd {s : State} {c : Ch} {e : Nat} (h : (s.ch c).chgOver = some e) :
    exec (.outTypeChangeoverEnd c) s = .next (s.dueAt (dieOfCh c) e fun s => s.changeOverEnd c e) := by
  show execOutTypeChangeoverEnd c s = _
  rw [execOutTypeChangeoverEnd, h]

/-- A change-over ends at the park code, in the output type of the scale in force (R75). -/
theorem State.changeOverEnd_ch (s : State) (c : Ch) (t : Nat) : let h := (s.changeOverEnd c t).ch c
    h.chgOver = none ∧ h.outType = (s.ch c).scaleEntry.outType ∧ h.held = (s.ch c).parkCode := by
  have inners : (s.changeOverEnd c t).inners =
      (s.modCh c fun h => { h with chgOver := none, outType := h.scaleEntry.outType, held := h.parkCode }).inners := by
    unfold State.changeOverEnd
    dsimp only
    split
    · exact State.putDac_inners ..
    · exact State.showDac_inners ..
  have e := State.inner_ch inners c
  rw [State.ch_modCh_self] at e
  obtain ⟨-, -, -, -, -, ends⟩ := Channel.fields_of_inner e
  exact ends

/-- Settles O29: an update boundary by what Table 3-13 selects, then the two ends. -/
theorem dacRows : Obligations.DacRows := by
  unfold Obligations.DacRows
  intro s c tk
  dsimp only
  refine ⟨fun hc hu => ⟨fun v hv => ?code, fun w v l hs hq hw => ?item, fun w v l hs hq => ?dry⟩, fun e he => ?hold,
    fun e he => ?ends⟩
  case code =>
    refine State.ends_dacUpdate hc hu ?_
    rw [State.ch_settle]
    exact State.dacStep_code hv
  case item =>
    refine State.ends_dacUpdate hc hu ?_
    rw [State.ch_settle]
    exact State.dacStep_item hs hq hw
  case dry =>
    refine State.ends_dacUpdate hc hu ?_
    rw [State.dacStep_dry hs (item_none_of_late hq)]
    refine ⟨State.onlyCh_event s tk c _, ?_⟩
    rw [State.ch_settle, State.ch_modCh_self, State.ch_advance]
    exact ⟨rfl, rfl, rfl⟩
  case hold =>
    refine State.ends_of (exec_holdEnd he) ?_
    rw [State.bare_dueAt, State.bare_modCh, State.bare_advanceDie, ← State.bare_modCh]
  case ends =>
    refine State.ends_of (exec_changeOverEnd he) ?_
    have h := State.changeOverEnd_ch (s.advanceDie (dieOfCh c) e) c e
    rw [State.ch_advanceDie] at h
    rw [State.dueAt, State.ch_settle]
    exact h

end Sys2Proof.Machine
end

section
/-! PROOFS. RANGE: the state of the channel and the entry judge it, and a change starts at the first sample boundary (R96, R97). -/

namespace Sys2Proof.Machine

/-- The channel h at the start of a change of its range: S0 = b, make at `make`, break MBB_DELAY ticks after it (R97). -/
structure RangeStarts (h : Channel) (n : Fin 8) (e : RangeEntry) (b make : Nat) (x : Channel) : Prop where
  st : x.st = h.st
  tgt : x.tgt = n
  act : x.act = h.act
  powerupOut : x.powerupOut = false
  rchg : ∃ r, x.rchg = some r ∧ r.target = n ∧ r.entry = e ∧ r.s0 = b ∧ r.makeAt = make ∧ r.breakAt = r.makeAt + e.mbbDelay
    ∧ r.closes = h.closed ∧ r.dead = false

/-- Nothing of it hangs on the trip logic. -/
theorem RangeStarts.of_plain {h x y : Channel} {n : Fin 8} {e : RangeEntry} {b make : Nat} (hy : RangeStarts h n e b make y)
    (hx : x.plain = y.plain) : RangeStarts h n e b make x := by
  obtain ⟨st, -, -, -, powerupOut, act, tgt, rchg⟩ := Channel.fields_of_plain hx
  exact ⟨st.trans hy.st, tgt.trans hy.tgt, act.trans hy.act, powerupOut.trans hy.powerupOut, rchg ▸ hy.rchg⟩

theorem State.rangeStart_starts (s : State) (c : Ch) (n : Fin 8) (e : RangeEntry) (b : Nat) :
    RangeStarts (s.ch c) n e b (s.nextB c b) ((s.rangeStart c n e b).ch c) := by
  have opened (p : Prop) [Decidable p] : let u := (s.stepDisturb c).firstWrite c
      let x := (if p then u.openEng c else u).ch c
      x.st = (s.ch c).st ∧ x.act = (s.ch c).act ∧ x.powerupOut = false := by
    obtain ⟨st, -, -, -, -, act, -⟩ := Channel.fields_of_plain (State.plain_ch (State.stepDisturb_plains s c) c)
    dsimp only
    split
    · rw [State.openEng, State.modLoop, State.ch_modCh_self, State.firstWrite, State.ch_modCh_self]
      exact ⟨st, act, rfl⟩
    · rw [State.firstWrite, State.ch_modCh_self]
      exact ⟨st, act, rfl⟩
  obtain ⟨st, act, powerupOut⟩ := opened ((s.ch c).closed = true)
  unfold State.rangeStart
  refine RangeStarts.of_plain ?_ (State.plain_ch ((State.openWin_plains ..).trans (State.recalcThr_plains ..)) c)
  rw [State.ch_modCh_self, State.flushDac, State.ch_modCh_self]
  exact ⟨st, rfl, act, powerupOut, _, rfl, rfl, rfl, rfl, rfl, rfl, rfl, rfl⟩

/-- A change of range is under way that has not been cut short. -/
def Channel.ranging (h : Channel) : Prop := ∃ r, h.rchg = some r ∧ r.dead = false

/-- Once its state lets a channel change its range, a change under way refuses the next one. -/
theorem cmdRange_ranging {e : Fin 8} {c : Ch} {s : State} (hs : ((s.tripFirst c).ch c).st ∉ [ChSt.off, .tripped, .draining])
    (hr : ((s.tripFirst c).ch c).ranging) : cmdRange e c s = (s.tripFirst c, 0x0B) := by
  obtain ⟨r, hr, hd⟩ := hr
  simp only [cmdRange, hr, hd]
  cases h : ((s.tripFirst c).ch c).st with
  | off | tripped | draining => exact absurd hs (by simp [h])
  | _ => rfl

/-- Without one, the output type and the entry judge it. -/
theorem cmdRange_free {e : Fin 8} {c : Ch} {s : State} (hs : ((s.tripFirst c).ch c).st ∉ [ChSt.off, .tripped, .draining])
    (hr : ¬ ((s.tripFirst c).ch c).ranging) : let u := s.tripFirst c
    let n := s.readRange c e.1
    cmdRange e c s = if n.outType ≠ (u.ch c).outType ∧ (u.ch c).closed = true then (u.modCh c Channel.reject, 2)
      else if u.rangeBad c e.1 then (u, 0x0C)
      else (u.rangeStart c e n (u.bnd c), 0) := by
  simp only [cmdRange, ← bne_iff_ne, ← Bool.and_eq_true]
  cases h : ((s.tripFirst c).ch c).st with
  | off | tripped | draining => exact absurd hs (by simp [h])
  | _ =>
    refine if_neg fun busy => ?_
    split at busy
    next r hc => exact hr ⟨r, hc, by simpa using busy⟩
    · exact Bool.false_ne_true busy

/-- Settles O18: by the state of the channel, then by a change under way, the output type and the entry. -/
theorem rangeRow : Obligations.RangeRow := by
  unfold Obligations.RangeRow
  intro s t w c hc
  dsimp only
  intro hi
  have row {x : State} {n : Nat} (h : cmdRange (fEntry w) c (s.atIssue t w) = (x, n)) :
      s.chRow (.range t w) t w (BitVec.ofNat 8 n) fun _ => x :=
    State.chRow_of_issueCh (f := fun c s => cmdRange (fEntry w) c s) hi hc rfl h
  have allowed {p : Prop} {b : Bool} (h : p ∨ b = false) : ¬ (¬ p ∧ b = true) := by
    rintro ⟨hp, rfl⟩
    exact h.elim hp Bool.noConfusion
  refine ⟨fun ho => row ?off, fun ht => row ?tripped, fun hd => row ?draining, fun hs =>
    ⟨fun hr => row (cmdRange_ranging hs hr), fun hr ht hl => row ?closed, fun hr ho hb => row ?bad, fun hr ho hb => ?starts⟩⟩
  case off => simp only [cmdRange, ho]
  case tripped => simp only [cmdRange, ht]
  case draining => simp only [cmdRange, hd]
  case closed => exact (cmdRange_free hs hr).trans (if_pos ⟨ht, hl⟩)
  case bad => exact (cmdRange_free hs hr).trans ((if_neg (allowed ho)).trans (if_pos hb))
  case starts =>
    have eq := (cmdRange_free (e := fEntry w) hs hr).trans ((if_neg (allowed ho)).trans (if_neg (ne_true_of_eq_false hb)))
    refine State.ends_of_chRow (row eq) fun u hu hl => ?_
    rw [State.ch_of_chan hu]
    obtain ⟨st, tgt, act, powerupOut, r, hr, target, starts⟩ := State.rangeStart_starts ((s.atIssue t w).tripFirst c) c (fEntry w)
      ((s.atIssue t w).readRange c (ff w 0 3)) (((s.atIssue t w).tripFirst c).bnd c)
    exact ⟨hl, st, congrArg Fin.val tgt, act, powerupOut, r, hr, congrArg Fin.val target, starts⟩

end Sys2Proof.Machine
end

section
/-! PROOFS. The clear override (R80 to R83): CLR_N takes every powered channel, one after the other, and no channel's override moves with
another channel. -/

namespace Sys2Proof.Machine

/-! ### What leaves every clear override as it was -/

/-- The clear override of every channel. -/
def State.clrs (s : State) : Vector Bool 96 := s.chan.map Channel.clrActive

theorem State.clrActive_of_clrs {s u : State} (h : u.clrs = s.clrs) (c : Ch) : (u.ch c).clrActive = (s.ch c).clrActive :=
  (vget_map ..).symm.trans ((congrArg (fun v => v.get c) h).trans (vget_map ..))

theorem State.clrs_of_chan {s u : State} (h : u.chan = s.chan) : u.clrs = s.clrs := congrArg (Vector.map Channel.clrActive) h

theorem State.clrs_of_plains {s u : State} (h : u.plains = s.plains) : u.clrs = s.clrs := by
  have e (x : State) : x.clrs = x.plains.map Channel.clrActive := by
    rw [State.clrs, State.plains, Vector.map_map]
    rfl
  rw [e, e, h]

theorem State.modCh_clrs {s : State} {c : Ch} {f : Channel → Channel} (h : (f (s.ch c)).clrActive = (s.ch c).clrActive) :
    (s.modCh c f).clrs = s.clrs := vmap_set_of Channel.clrActive s.chan c _ h

@[simp] theorem State.ite_clrs (p : Prop) [Decidable p] (s u : State) : (if p then s else u).clrs = if p then s.clrs else u.clrs :=
  apply_ite ..

section
variable (s : State) (c : Ch) (t : Nat)

@[simp] theorem State.modCh_clrs_of {f : Channel → Channel} (h : ∀ x, (f x).clrActive = x.clrActive) : (s.modCh c f).clrs = s.clrs :=
  State.modCh_clrs (h _)
@[simp] theorem State.chEvAt_clrs (e : ChEv) (detail : Word) : (s.chEvAt c e detail t).clrs = s.clrs :=
  State.clrs_of_chan (State.chan_chEvAt ..)
@[simp] theorem State.stepDisturb_clrs : (s.stepDisturb c).clrs = s.clrs := State.clrs_of_plains (State.stepDisturb_plains s c)
@[simp] theorem State.refreshGates_clrs : (s.refreshGates c).clrs = s.clrs := State.modCh_clrs rfl
@[simp] theorem State.pulseEdgeFx_clrs (act : Bool) : (s.pulseEdgeFx c act t).clrs = s.clrs :=
  (State.clrs_of_plains (State.pulseEdgeFx_plains ..)).trans (State.modCh_clrs rfl)
@[simp] theorem State.pulseStart_clrs : (s.pulseStart c t).clrs = s.clrs := by simp [State.pulseStart]
@[simp] theorem State.pulseStop_clrs : (s.pulseStop c t).clrs = s.clrs := by simp [State.pulseStop]
@[simp] theorem State.pulseCheck_clrs : (s.pulseCheck c t).clrs = s.clrs := by simp [State.pulseCheck]
@[simp] theorem State.genArm_clrs : (s.genArm c t).clrs = s.clrs := by
  refine State.modCh_clrs ?_
  (repeat' split) <;> rfl
@[simp] theorem State.genStop_clrs : (s.genStop c t).clrs = s.clrs := by simp [State.genStop, State.modGen]
@[simp] theorem State.stimFollow_clrs : (s.stimFollow c t).clrs = s.clrs := by
  simp only [State.stimFollow, State.refreshGates_clrs, State.genArm_clrs, State.pulseCheck_clrs]
  refine State.modCh_clrs ?_
  split <;> rfl
@[simp] theorem State.stimStop_clrs : (s.stimStop c t).clrs = s.clrs := by simp [State.stimStop]
@[simp] theorem State.openEng_clrs : (s.openEng c).clrs = s.clrs := State.modCh_clrs rfl
@[simp] theorem State.flushDac_clrs : (s.flushDac c).clrs = s.clrs := State.modCh_clrs rfl
@[simp] theorem State.setSt_clrs (x : ChSt) : (s.setSt c x t).clrs = s.clrs := by simp [State.setSt]
@[simp] theorem State.rangeCut_clrs : (s.rangeCut c t).clrs = s.clrs := by
  unfold State.rangeCut
  (repeat' split) <;> simp
@[simp] theorem State.defCancel_clrs : (s.defCancel c t).clrs = s.clrs := by simp [State.defCancel]
@[simp] theorem State.toDraining_clrs : (s.toDraining c t).clrs = s.clrs := by simp [State.toDraining]
@[simp] theorem State.hostPark_clrs : (s.hostPark c t).clrs = s.clrs := by
  unfold State.hostPark
  split <;> simp

end

/-! ### A park that CLR_N asks for (R81) -/

/-- Where T8 takes a channel. -/
def parkSt : ChSt → ChSt
  | .heel | .run | .held => .draining
  | x => x

theorem State.hostPark_orders (s : State) (c : Ch) (t : Nat) : (s.hostPark c t).orders = (s.putSt c (parkSt (s.ch c).st)).orders := by
  have stay {x : ChSt} (h : (s.ch c).st = x) : (s.putSt c x).orders = s.orders := State.modCh_orders (by rw [← h])
  unfold State.hostPark
  cases h : (s.ch c).st with
  | heel | run | held => exact State.toDraining_orders s c t
  | _ => exact (stay h).symm

/-- The channel after the park and the end of its deferred requests. -/
def Channel.parks (h : Channel) : Channel := { h with st := parkSt h.st, defMode := none, defMove := none }

theorem State.clrPark_orders (s : State) (c : Ch) (t : Nat) :
    (((s.stepDisturb c).defCancel c t).hostPark c t).orders = (s.modCh c Channel.parks).orders := by
  have st : (((s.stepDisturb c).defCancel c t).ch c).st = (s.ch c).st :=
    (State.defCancel_ch ..).1.trans (State.stepDisturb_st s c c)
  rw [State.hostPark_orders, st]
  refine (State.orders_putSt (State.defCancel_orders ..) c _).trans ?_
  rw [State.putSt, State.modCh_modCh]
  refine State.orders_modCh (State.stepDisturb_orders s c) c ?_
  have e := State.orders_ch (State.stepDisturb_orders s c) c
  simp only [Channel.orders, Channel.mk.injEq, Channel.parks] at e ⊢
  tauto

/-! ### CLR_N on one channel -/

/-- Channel c is not Off, and its region has its power. -/
def State.powered (s : State) (c : Ch) : Prop := (s.ch c).st ≠ .off ∧ s.rgOn c = true

/-- The clear override, with nothing under way (R81). -/
def Channel.Cleared (h : Channel) : Prop :=
  h.clrActive = true ∧ h.defMode = none ∧ h.defMove = none ∧ h.st ∉ [ChSt.heel, .run, .held]

theorem State.clrChannel_of_not {s : State} {c : Ch} (h : ¬ s.powered c) : s.clrChannel c = s := by
  refine if_pos ?_
  simp only [State.powered, ne_eq, not_and_or, Decidable.not_not, Bool.not_eq_true] at h
  rcases h with h | h <;> simp [h]

/-- A powered channel before its output shows the clear code. -/
def State.clrBlank (s : State) (c : Ch) : State :=
  ((((s.stepDisturb c).defCancel c (s.bnd c)).hostPark c (s.bnd c)).flushDac c).modCh c fun h => { h with clrActive := true }

theorem State.clrChannel_inners {s : State} {c : Ch} (h : s.powered c) : (s.clrChannel c).inners = (s.clrBlank c).inners := by
  obtain ⟨ho, hr⟩ := h
  unfold State.clrChannel
  rw [if_neg (by simp [ho, hr])]
  exact State.showDac_inners ..

theorem State.clrBlank_orders (s : State) (c : Ch) : (s.clrBlank c).orders = (s.modCh c Channel.parks).orders := by
  rw [State.clrBlank, State.modCh_orders rfl, State.flushDac_orders, State.clrPark_orders]

theorem parkSt_rests (x : ChSt) : parkSt x ∉ [ChSt.heel, .run, .held] := by cases x <;> decide

theorem parkSt_eq_off (x : ChSt) : parkSt x = .off ↔ x = .off := by cases x <;> decide

/-- The channel that CLR_N takes. -/
theorem State.clrChannel_self {s : State} {c : Ch} (h : s.powered c) :
    ((s.clrChannel c).ch c).Cleared ∧ ((s.clrChannel c).ch c).st = parkSt (s.ch c).st := by
  obtain ⟨st, defMode, defMove, clr, -⟩ := Channel.fields_of_inner (State.inner_ch (State.clrChannel_inners h) c)
  have e := State.orders_ch (State.clrBlank_orders s c) c
  rw [State.ch_modCh_self] at e
  obtain ⟨st', -, -, defMode', defMove', -⟩ := Channel.fields_of_orders e
  have on : ((s.clrBlank c).ch c).clrActive = true := by rw [State.clrBlank, State.ch_modCh_self]
  refine ⟨⟨clr.trans on, defMode.trans defMode', defMove.trans defMove', ?_⟩, st.trans st'⟩
  rw [st, st']
  exact parkSt_rests _

/-- Every other channel keeps its state, its deferred requests and its override. -/
theorem State.clrChannel_ne (s : State) {c d : Ch} (hd : d ≠ c) : let h := (s.clrChannel c).ch d
    h.st = (s.ch d).st ∧ h.defMode = (s.ch d).defMode ∧ h.defMove = (s.ch d).defMove ∧ h.clrActive = (s.ch d).clrActive := by
  by_cases h : s.powered c
  · obtain ⟨st, defMode, defMove, clr, -⟩ := Channel.fields_of_inner (State.inner_ch (State.clrChannel_inners h) d)
    have e := State.orders_ch (State.clrBlank_orders s c) d
    rw [State.ch_modCh_ne _ _ hd] at e
    obtain ⟨st', -, -, defMode', defMove', -⟩ := Channel.fields_of_orders e
    have off : ((s.clrBlank c).ch d).clrActive = (s.ch d).clrActive := by
      rw [State.clrBlank, State.ch_modCh_ne _ _ hd]
      exact State.clrActive_of_clrs (by simp) d
    exact ⟨st.trans st', defMode.trans defMode', defMove.trans defMove', clr.trans off⟩
  · rw [State.clrChannel_of_not h]
    exact ⟨rfl, rfl, rfl, rfl⟩

/-! ### CLR_N on every channel -/

@[simp] theorem State.hostPark_env (s : State) (c : Ch) (t : Nat) : (s.hostPark c t).env = s.env := by
  unfold State.hostPark
  split <;> simp

theorem State.putDac_env (s : State) (c : Ch) (v : Code) (t : Nat) : (s.putDac c v t).env = s.env := by
  unfold State.putDac
  dsimp only
  split
  · exact State.env_of_calm ((State.openWin_calm ..).trans (State.modCh_calm rfl))
  · rfl

theorem State.showDac_env (s : State) (c : Ch) (t : Nat) : (s.showDac c t).env = s.env := by
  unfold State.showDac
  split
  · exact State.putDac_env ..
  · rfl

theorem State.clrChannel_env (s : State) (c : Ch) : (s.clrChannel c).env = s.env := by
  unfold State.clrChannel
  split
  · rfl
  · rw [State.showDac_env]
    simp

theorem State.rgOn_of_env {s u : State} (h : u.env = s.env) (c : Ch) : u.rgOn c = s.rgOn c := by
  have e := congrArg Region.on (State.rg_of_env h (rgOf c))
  exact e

theorem State.clrTill_of_env {s u : State} (h : u.env = s.env) : u.clrTill = s.clrTill := by
  have e := congrArg State.clrTill h
  exact e

theorem State.clrChannel_powered (s : State) (c d : Ch) : (s.clrChannel c).powered d ↔ s.powered d := by
  rw [State.powered, State.powered, State.rgOn_of_env (State.clrChannel_env s c)]
  by_cases hd : d = c
  · subst hd
    by_cases h : s.powered d
    · rw [(State.clrChannel_self h).2, ne_eq, parkSt_eq_off]
    · rw [State.clrChannel_of_not h]
  · rw [(State.clrChannel_ne s hd).1]

/-- CLR_N takes every powered channel. -/
theorem State.clrAll_cleared (s : State) (d : Ch) (h : s.powered d) : ((s.each allChs fun c s => s.clrChannel c).ch d).Cleared := by
  have taken := State.each_all (fun d (u : State) => u.powered d → (u.ch d).Cleared) allChs (f := fun c s => s.clrChannel c)
    (fun d u hu => (State.clrChannel_self ((State.clrChannel_powered u d d).1 hu)).1)
    (fun d c u hd hu => by
      have was := (State.clrChannel_powered u c d).1 hu
      by_cases e : d = c
      · subst e
        exact (State.clrChannel_self was).1
      · obtain ⟨st, defMode, defMove, clr⟩ := State.clrChannel_ne u e
        rw [Channel.Cleared, st, defMode, defMove, clr]
        exact hd was)
    s d (List.mem_finRange d)
  have powered := State.each_frame (fun u => State.powered u d) allChs (fun c u => propext (State.clrChannel_powered u c d)) s
  exact taken (powered.symm ▸ h)

/-! ### The rows -/

/-- CLR_N falls for ns nanoseconds, and acts. -/
def State.clrActs (s : State) (ns : Nat) : State :=
  let s := { s with clrTill := max s.clrTill (s.tick + ceilDiv ns 2) }
  ((s.each allChs fun c s => s.clrChannel c).latchAll 25).raiseAt (hubSrc 5) 0x305 0 s.clrTick

theorem exec_clrNFall_acts (s : State) (tk : Nat) {ns : Nat} (h : 20 ≤ ns) :
    exec (.clrNFall tk ns) s = .next ((s.advance tk).clrActs ns).settle := by
  have between : ¬ (5 ≤ ns ∧ ns < 20) := by omega
  show execClrNFall tk ns s = _
  simp only [execClrNFall, State.eventAt, if_neg between, decide_eq_true h, Bool.true_or, if_true]
  rfl

theorem exec_clrNFall_ignored (s : State) (tk : Nat) {ns : Nat} (h : ns < 5) :
    exec (.clrNFall tk ns) s = .next (s.advance tk).settle := by
  have between : ¬ (5 ≤ ns ∧ ns < 20) := by omega
  have short : ¬ 20 ≤ ns := by omega
  show execClrNFall tk ns s = _
  simp only [execClrNFall, State.eventAt, if_neg between, decide_eq_false short, decide_eq_false (Nat.not_le.2 h), Bool.false_and,
    Bool.false_or, Bool.false_eq_true, if_false]

theorem State.latchAll_chan (s : State) (b : Nat) : (s.latchAll b).chan = s.chan := by
  unfold State.latchAll
  refine State.each_frame State.chan _ (fun n u => ?_) s
  split
  · exact State.each_frame State.chan (f := fun t u => u.latchEvtAt t b (u.dt (dieOfCl t.cl) + 8)) _ (fun _ _ => rfl) u
  · rfl

/-- What the row leaves: CLR_N low until its time is over, and every powered channel taken. -/
theorem State.clrActs_settle (s : State) (ns : Nat) : (s.clrActs ns).settle.clrTill = max s.clrTill (s.tick + ceilDiv ns 2)
    ∧ ∀ d, s.powered d → ((s.clrActs ns).settle.ch d).Cleared := by
  have chan : (s.clrActs ns).settle.chan = (State.each { s with clrTill := max s.clrTill (s.tick + ceilDiv ns 2) } allChs
      fun c s => s.clrChannel c).chan :=
    (State.chan_of_bare ((State.bare_settle _).trans (State.bare_raiseAt ..))).trans (State.latchAll_chan ..)
  have calm : (s.clrActs ns).settle.calm = (State.each { s with clrTill := max s.clrTill (s.tick + ceilDiv ns 2) } allChs
      fun c s => s.clrChannel c).calm :=
    (State.settle_calm _).trans ((State.raiseAt_calm ..).trans (State.latchAll_calm ..))
  constructor
  · exact State.clrTill_of_env (State.env_eq calm (State.env_each _ (fun c s => State.clrChannel_env s c) _))
  · intro d hd
    rw [State.ch_of_chan chan]
    exact State.clrAll_cleared { s with clrTill := max s.clrTill (s.tick + ceilDiv ns 2) } d hd

/-- The override of a channel ends at boundary b. -/
def State.clrEnds (s : State) (c : Ch) (b : Nat) : State :=
  let s := s.modCh c fun h => { h with clrActive := false }
  if s.foutSrc c == .queue then s.putDac c (s.ch c).parkCode b else s.showDac c b

theorem State.clrEnds_settle (s : State) (c : Ch) (b : Nat) : ((s.clrEnds c b).settle.ch c).clrActive = false
    ∧ ((s.clrEnds c b).settle.ch c).st = (s.ch c).st := by
  have inners : (s.clrEnds c b).inners = (s.modCh c fun h => { h with clrActive := false }).inners := by
    unfold State.clrEnds
    dsimp only
    split
    · exact State.putDac_inners ..
    · exact State.showDac_inners ..
  have e := State.inner_ch inners c
  rw [State.ch_modCh_self] at e
  obtain ⟨st, -, -, clr, -⟩ := Channel.fields_of_inner e
  rw [State.ch_settle]
  exact ⟨clr, st⟩

/-- Settles O33: a low that acts takes all channels (`State.clrAll_cleared`), one that is ignored leaves the state, and the end of an
override shows the output again. -/
theorem clrRows : Obligations.ClrRows := by
  unfold Obligations.ClrRows
  intro s tk ns c
  refine ⟨fun hn => ?acts, fun hn => ?ignored, fun ha hh hd hc => ?ends⟩
  case acts =>
    obtain ⟨till, cleared⟩ := State.clrActs_settle (s.advance tk) ns
    have env : (s.advance tk).env = s.env := State.env_of_calm (State.advance_calm s tk)
    rw [State.clrTill_of_env env] at till
    refine State.ends_of (exec_clrNFall_acts s tk hn) ⟨till, fun d ho hr => cleared d ⟨?_, ?_⟩⟩
    · rwa [State.ch_advance]
    · rwa [State.rgOn_of_env env]
  case ignored => exact State.ends_of (exec_clrNFall_ignored s tk hn) ((State.bare_settle _).trans (State.bare_advance s tk))
  case ends =>
    refine State.ends_event rfl (if_pos (by simp [ha, hh, hd, hc])) (u := ((s.advance tk).advanceDie (dieOfCh c) _).clrEnds c _) ?_
    obtain ⟨clr, st⟩ := State.clrEnds_settle ((s.advance tk).advanceDie (dieOfCh c) ((s.advance tk).bndAt c ((s.advance tk).now c))) c
      ((s.advance tk).bndAt c ((s.advance tk).now c))
    rw [State.ch_advanceDie, State.ch_advance] at st
    exact ⟨clr, st⟩

end Sys2Proof.Machine
end

section
/-! PROOFS. The reading rows of a thread (10.5, 10.7, 10.11): LD, MOVS, READ and CAL RES act on their own thread alone. -/

namespace Sys2Proof.Machine

/-! ### A write to registers at the issue tick -/

/-- A write to a register leaves the issue tick alone. -/
theorem Thread.setG_ready (h : Thread) (r : BitVec 4) (v : Word) (n : Nat) :
    { h with ready := n }.setG r v = { h.setG r v with ready := n } := by
  unfold Thread.setG
  split <;> rfl

/-- A thread that writes registers at its issue tick, and nothing else. -/
theorem State.runsTo_of_issue {s : State} {i : Instr} {t : Thr} {w : ZWord} {tk : Bool} {f : State → Except Byte State}
    (hi : s.issues i t w) (he : exec i s = .next (s.issue t w (zlegal i) tk f)) (hk : tk = true → t.k ≠ 8) (g : Thread → Thread)
    (hf : f (s.atIssue t w) = .ok ((s.atIssue t w).modTh t g)) (hg : ∀ h n, g { h with ready := n } = { g h with ready := n }) :
    s.runsTo i t w g := by
  obtain ⟨hr, hp, hl, -⟩ := hi
  refine State.runsTo_of g (he.trans ?_) rfl ?_
  · rw [State.issue_eq s t w _ tk f hr hp hl hk, hf]
  · rw [State.th_atIssue]
    have e := hg { s.th t with pc := (s.th t).pc + 1 + b1 w.x }
    rw [e]

theorem thCh_ne_eight {t : Thr} {c : Ch} (h : thCh t = some c) : t.k ≠ 8 := fun e => by simp [thCh, e] at h

/-! ### Addresses of the data address space (Table 9-6) -/

/-- All the bits of a word, read as signed. -/
theorem sfld_all {n : Nat} (v : BitVec (n + 1)) : sfld v 0 (n + 1) = v.toInt := by
  have h2 : 2 ^ (n + 1) = 2 * 2 ^ n := by rw [Nat.pow_succ, Nat.mul_comm]
  rw [sfld_low, BitVec.toInt_eq_toNat_cond, sx, Nat.mod_eq_of_lt v.isLt, Nat.add_sub_cancel]
  refine if_congr ?_ rfl rfl
  rw [h2]
  omega

theorem f17s_eq (w : ZWord) : f17s w = .ofInt 32 (sfld (f17 w) 0 17) := by
  rw [sfld_all (n := 16)]
  rfl

/-- The address of LD reads registers alone. -/
theorem State.memAddr_atIssue (s : State) (t : Thr) (w : ZWord) : (s.atIssue t w).memAddr t w =
    (s.g t w.ra + if w.x then w.e else .ofInt 32 (sfld (f17 w) 0 17)).toNat := by
  rw [State.memAddr, State.g_atIssue, f17s_eq]

/-- No issue tick moves data SRAM. -/
theorem State.dmem_atIssue (s : State) (t : Thr) (w : ZWord) (n : Cl) : ((s.atIssue t w).cl n).dmem = (s.cl n).dmem := by
  have e (u : State) (f : Thread → Thread) : ((u.modTh t f).cl n).dmem = (u.cl n).dmem := by
    unfold State.modTh
    by_cases h : n = t.cl
    · rw [h, State.cl_modCl_self]
    · rw [State.cl_modCl_ne _ _ h]
  refine (e _ _).trans ?_
  rw [State.cl, State.cl, State.advanceDie, State.clus_advance]

/-- An aligned address inside the space raises no fault (R255). -/
theorem dataFault_eq_none {a : Nat} (h : a < 0x8000 ∨ 0x100000 ≤ a ∧ a < 0x180000) (h4 : a % 4 = 0) : dataFault a = none := by
  have hd : inData a = true := by simpa [inData] using h
  simp [dataFault, hd, h4]

/-! ### The rows -/

/-- LD of a word that Table 9-6 holds, from data SRAM or from the table address space. -/
theorem State.ld_runsTo {s : State} {t : Thr} {w : ZWord} (hi : s.issues (.ld t w) t w) {a : Nat}
    (ha : (s.atIssue t w).memAddr t w = a) (hd : a < 0x8000 ∨ 0x100000 ≤ a ∧ a < 0x180000) (h4 : a % 4 = 0) :
    s.runsTo (.ld t w) t w fun h => h.setG w.rd ((s.atIssue t w).readData t.cl a) := by
  refine State.runsTo_of_issue hi rfl (fun h => absurd h (by decide)) _ ?_ fun h n => Thread.setG_ready ..
  simp only [ha, dataFault_eq_none hd h4]
  rfl

theorem State.movs_runsTo {s : State} {t : Thr} {w : ZWord} (hi : s.issues (.movs t w) t w) :
    let v := (s.atIssue t w).readSpec t (ff w 0 3)
    s.runsTo (.movs t w) t w fun h => if ff w 0 3 = 0 then (h.setG w.rd v.1).setG (w.rd + 1) v.2 else h.setG w.rd v.1 := by
  refine State.runsTo_of_issue hi rfl (fun h => absurd h (by decide)) _ ?_ fun h n => ?_
  · dsimp only
    split <;> rfl
  · simp only [Thread.setG_ready]
    split <;> rfl

/-- Settles O7: each row's operation answers a write to its thread's registers (`State.runsTo_of_issue`); LD by the half of the address
space, MOVS by the selector. -/
theorem readingRows : Obligations.ReadingRows := by
  unfold Obligations.ReadingRows
  intro s t w
  refine ⟨fun hi h4 => ⟨fun hd => ?data, fun h0 h1 => ?table⟩, fun hi => ⟨fun h0 => ?pair, fun h0 => ?spec⟩,
    fun c hc hi => ?read, fun c hc hi => ?outcome⟩
  case data =>
    have r := State.ld_runsTo hi (State.memAddr_atIssue ..) (.inl hd) h4
    rw [State.readData, if_pos hd, State.dmem_atIssue] at r
    exact r
  case table =>
    have r := State.ld_runsTo hi (State.memAddr_atIssue ..) (.inr ⟨h0, h1⟩) h4
    rw [State.readData, if_neg (by omega)] at r
    exact r
  case pair =>
    have r := State.movs_runsTo hi
    simp only [h0, if_true] at r
    exact r
  case spec =>
    have r := State.movs_runsTo hi
    simp only [h0, if_false] at r
    exact r
  case read =>
    refine State.runsTo_of_issue hi rfl (fun _ => thCh_ne_eight hc) _ ?_ fun h n => ?_
    · simp only [hc, State.ch_atIssue]
      rfl
    · simp only [Thread.setG_ready]
  case outcome =>
    refine State.runsTo_of_issue hi rfl (fun _ => thCh_ne_eight hc) _ ?_ fun h n => Thread.setG_ready ..
    simp only [hc, State.ch_atIssue]
    rfl

end Sys2Proof.Machine
end

section
/-! PROOFS. What a converter follows (4.3, 4.4, 4.6): an injected sequence that begins, a SEQ that takes effect, the pass of a quiet
converter; and reads of a result register (4.8). -/

namespace Sys2Proof.Machine

/-! ### A change of one converter -/

/-- Channel h with converter v in state y. -/
def Channel.setConv (h : Channel) (v : Conv) (y : ConvSt) : Channel :=
  match v with
  | .a => { h with convA := y }
  | .b => { h with convB := y }

theorem State.modConv_eq (s : State) (c : Ch) (v : Conv) (f : ConvSt → ConvSt) :
    s.modConv c v f = s.modCh c fun h => h.setConv v (f (h.conv v)) := by
  cases v <;> rfl

@[simp] theorem Channel.conv_setConv (h : Channel) (v : Conv) (y : ConvSt) : (h.setConv v y).conv v = y := by cases v <;> rfl
@[simp] theorem Channel.setConv_setConv (h : Channel) (v : Conv) (x y : ConvSt) : (h.setConv v x).setConv v y = h.setConv v y := by
  cases v <;> rfl
@[simp] theorem Channel.setConv_cap (h : Channel) (v : Conv) (y : ConvSt) : (h.setConv v y).cap = h.cap := by cases v <;> rfl

/-- A converter is all that moves of its channel. -/
theorem Channel.setConv_frame (h : Channel) (v : Conv) (y : ConvSt) :
    { h.setConv v y with convA := h.convA, convB := h.convB } = h := by
  cases v <;> rfl

@[simp] theorem State.ch_modConv (s : State) (c : Ch) (v : Conv) (f : ConvSt → ConvSt) :
    (s.modConv c v f).ch c = (s.ch c).setConv v (f ((s.ch c).conv v)) := by
  rw [State.modConv_eq, State.ch_modCh_self]

/-- Two changes of one converter are one change. -/
theorem State.modConv_modConv (s : State) (c : Ch) (v : Conv) (f g : ConvSt → ConvSt) :
    (s.modConv c v f).modConv c v g = s.modConv c v fun x => g (f x) := by
  simp only [State.modConv_eq, State.modCh_modCh, Channel.conv_setConv, Channel.setConv_setConv]

/-- An event row that changes converter v of channel c, and nothing else. -/
theorem State.ends_modConv {s : State} {i : Instr} {tk : Nat} {c : Ch} {v : Conv} {u : State} {g : ConvSt → ConvSt}
    (he : exec i s = .next u.settle) (hu : u = (s.advance tk).modConv c v g) :
    s.ends i fun u => s.onlyCh c u ∧ (u.ch c).conv v = g ((s.ch c).conv v)
      ∧ { u.ch c with convA := (s.ch c).convA, convB := (s.ch c).convB } = s.ch c := by
  subst hu
  refine State.ends_of he ⟨?only, ?moves⟩
  case only =>
    rw [State.modConv_eq]
    exact State.onlyCh_event ..
  case moves =>
    rw [State.ch_settle, State.ch_modConv, State.ch_advance]
    exact ⟨Channel.conv_setConv .., Channel.setConv_frame ..⟩

/-! ### Sample boundaries at another tick -/

section
variable (s : State) (tk : Nat) (c : Ch)

@[simp] theorem State.rg_advance (r : Rg) : (s.advance tk).rg r = s.rg r := by simp [State.rg]
@[simp] theorem State.clocked_advance : (s.advance tk).clocked c = s.clocked c := by simp [State.clocked, State.rgOn]
@[simp] theorem State.sTick_advance (k : Nat) : (s.advance tk).sTick c k = s.sTick c k := by simp [State.sTick]
@[simp] theorem State.sIdx_advance (t : Nat) : (s.advance tk).sIdx c t = s.sIdx c t := by simp [State.sIdx]
@[simp] theorem State.nextB_advance (t : Nat) : (s.advance tk).nextB c t = s.nextB c t := by simp [State.nextB]
@[simp] theorem State.idxAt_advance (t : Nat) : (s.advance tk).idxAt c t = s.idxAt c t := by simp [State.idxAt]
@[simp] theorem State.bndAt_advance (t : Nat) : (s.advance tk).bndAt c t = s.bndAt c t := by simp [State.bndAt]

end

/-! ### An injected sequence (R116) -/

/-- A sequence that begins at boundary b is no request any more, and is what the samples after b meet; in an interleaved pair its first
entry comes one sample period later. -/
theorem State.injBegin_modConv (s : State) (c : Ch) (v : Conv) (b : Nat) : ∃ g, s.injBegin c v b = s.modConv c v g ∧ ∀ x,
    (g x).injPend = false ∧ (g x).ops = x.ops ++ [.inj b (if (s.ch c).ilv then s.nextB c b else b)] ∧ (g x).wcfg = x.wcfg := by
  unfold State.injBegin
  exact ⟨_, rfl, fun x => ⟨rfl, rfl, rfl⟩⟩

/-! ### SEQ (R114) -/

/-- A converter that takes the configuration g at boundary b, of index k; `start` is the end of the start-up that a quiet one begins with
its pass (R125). -/
def ConvSt.takes (x : ConvSt) (g : ConvCfg) (k b : Nat) (start : Option Nat) : ConvSt :=
  { x with
    cfg := g, mark := k, ops := x.ops ++ [.seq b g], seqPend := none, seqJoint := false, splitTill := 0
    knext := g.ents.map fun e => fld e 17 5, starting := start, passTill := 0 }

/-- A converter that is not on its way through a pass follows a pass start (R125). -/
theorem State.passStart_modConv (s : State) (c : Ch) (v : Conv) (t : Nat) (g : ConvCfg) (k : Nat) :
    ∃ start, (s.modConv c v fun x => x.takes g k t none).passStart c v t = s.modConv c v fun x => x.takes g k t start := by
  unfold State.passStart
  rw [State.ch_modConv, Channel.conv_setConv]
  dsimp only
  split
  · exact ⟨none, rfl⟩
  · rw [if_neg (by simp [ConvSt.takes]), State.modConv_modConv]
    exact ⟨_, rfl⟩

theorem State.takeSeq_eq {s : State} {c : Ch} {v : Conv} {g : ConvCfg} (h : ((s.ch c).conv v).seqPend = some g) (b : Nat) :
    ∃ start, s.takeSeq c v b = s.modConv c v fun x => x.takes g (s.idxAt c b) b start := by
  unfold State.takeSeq
  rw [h]
  exact State.passStart_modConv ..

/-- Where no record and no stream is open, a SEQ cuts none (R228, R237). -/
theorem State.seqCut_idle {s : State} {c : Ch} (hr : (s.ch c).cap.cur = none) (hs : (s.ch c).cap.streaming = false) (b : Nat) :
    s.seqCut c b = s := by
  simp [State.seqCut, hr, hs]

theorem State.seqEffect_eq {s : State} {c : Ch} {v : Conv} {g : ConvCfg} (h : ((s.ch c).conv v).seqPend = some g)
    (hj : ((s.ch c).conv v).seqJoint = false) (hr : (s.ch c).cap.cur = none) (hs : (s.ch c).cap.streaming = false) (b : Nat) :
    ∃ start, s.seqEffect c v b = s.modConv c v fun x => x.takes g (s.idxAt c b) b start := by
  obtain ⟨start, e⟩ := State.takeSeq_eq h b
  refine ⟨start, ?_⟩
  simp [State.seqEffect, State.seqCut_idle hr hs, hj, e, hs]

/-! ### The rows -/

section
variable {s : State} {tk : Nat} {c : Ch} {v : Conv}

/-- The row of a pending injected sequence, at its boundary or later (R116). -/
theorem exec_injSequenceBegin (hp : ((s.ch c).conv v).injPend = true) (hc : s.clocked c = true)
    (hf : ((s.ch c).conv v).injFrom ≤ (s.advance tk).now c) (hi : ((s.ch c).conv v).inCal = false) :
    let u := s.advance tk
    exec (.injSequenceBegin tk c v) s = .next (u.injBegin c v (u.bndAt c (u.now c))).settle := by
  show execInjSequenceBegin tk c v s = _
  simp [execInjSequenceBegin, State.eventAt, hp, hc, hf, hi]

/-- The row of a SEQ that is due on a free converter (R114). -/
theorem exec_seqTakesEffect {g : ConvCfg} (hp : ((s.ch c).conv v).seqPend = some g) (hc : s.clocked c = true)
    (hd : ((s.ch c).conv v).seqDue ≤ (s.advance tk).now c) (hf : ((s.ch c).conv v).seqFree ((s.advance tk).now c) = true)
    (hj : ((s.ch c).conv v).seqJoint = false) :
    let u := s.advance tk
    exec (.seqTakesEffect tk c v) s = .next (u.seqEffect c v (u.bndAt c (u.now c))).settle := by
  show execSeqTakesEffect tk c v s = _
  simp [execSeqTakesEffect, State.eventAt, hp, hc, hd, hf, hj]

/-- The row of a quiet converter whose start-up is over (R125). -/
theorem exec_quietStartupEnd {t : Nat} (hs : ((s.ch c).conv v).starting = some t) (ht : t ≤ (s.advance tk).now c)
    (hc : s.clocked c = true) :
    let u := s.advance tk
    let b := u.bndAt c (u.now c)
    exec (.quietStartupEnd tk c v) s = .next (u.modConv c v fun x =>
      { x with starting := none, passTill := u.sTick c (x.cfg.instant x.mark (u.idxAt c b) x.cfg.total) }).settle := by
  show execQuietStartupEnd tk c v s = _
  simp [execQuietStartupEnd, State.eventAt, hs, ht, hc]

end

/-- Settles O35: what a row makes of its converter is all that it moves (`State.ends_modConv`); a read of a result register writes that
register and the word that is read. -/
theorem converterRows : Obligations.ConverterRows := by
  unfold Obligations.ConverterRows
  intro s tk c v r
  refine ⟨fun hp hc hf hi => ?inj, fun g hp hc hd hf hj hr hs => ?seq, fun t hs ht hc => ?start, fun ho => ?snapshot, fun ho => ?report,
    ?high⟩
  case inj =>
    obtain ⟨g, e, hg⟩ := (s.advance tk).injBegin_modConv c v ((s.advance tk).bndAt c ((s.advance tk).now c))
    obtain ⟨u, hu, only, moved, frame⟩ := State.ends_modConv (exec_injSequenceBegin hp hc hf hi) e
    refine ⟨u, hu, only, ?_, frame⟩
    simpa [← moved] using hg ((s.ch c).conv v)
  case seq =>
    obtain ⟨start, e⟩ := State.seqEffect_eq (s := s.advance tk) (c := c) (v := v) (by rwa [State.ch_advance])
      (by rwa [State.ch_advance]) (by rwa [State.ch_advance]) (by rwa [State.ch_advance]) ((s.advance tk).bndAt c ((s.advance tk).now c))
    obtain ⟨u, hu, only, moved, frame⟩ := State.ends_modConv (exec_seqTakesEffect hp hc hd hf hj) e
    refine ⟨u, hu, only, ?_, frame⟩
    rw [moved]
    simp [ConvSt.takes]
  case start =>
    obtain ⟨u, hu, only, moved, frame⟩ := State.ends_modConv (exec_quietStartupEnd hs ht hc) rfl
    refine ⟨u, hu, only, ?_, frame⟩
    rw [moved]
    simp
  case snapshot =>
    refine State.turns_of rfl ?_
    simp only [State.ch_advance, ho]
    rfl
  case report =>
    refine State.turns_of rfl ?_
    simp only [State.ch_advance, if_pos ho, wd, at_, Nat.mul_comm]
    rfl
  case high => exact State.turns_of rfl (by simp only [State.ch_advance])

end Sys2Proof.Machine
end

section
/-! PROOFS. A delivered sample of a regular entry (4.7, 4.8): what surrounds it leaves converters and result registers, and the sample
enters its interval, which commits once it is full. -/

namespace Sys2Proof.Machine

/-! ### The measure path of every channel -/

/-- The converter without its count of results that the result queue had no room for. -/
def ConvSt.meter (x : ConvSt) : ConvSt := { x with rdrop := 0 }

/-- The channel without its capture unit, result queue, loop engine, calibration and sample trigger: its converters, result registers and
ranges are what a sample is taken with. -/
def Channel.meter (h : Channel) : Channel :=
  { h with
    cap := .reset, rq := [], loop := .reset, cal := .reset, strgHigh := false, convA := h.convA.meter, convB := h.convB.meter }

/-- The measure path of every channel. -/
def State.meters (s : State) : Vector Channel 96 := s.chan.map Channel.meter

/-- What two channels of one measure path share. -/
theorem Channel.fields_of_meter {x y : Channel} (h : x.meter = y.meter) : (∀ v, (x.conv v).meter = (y.conv v).meter) ∧ x.res = y.res
    ∧ x.rhist = y.rhist ∧ x.act = y.act ∧ x.work = y.work := by
  simp only [Channel.meter, Channel.mk.injEq] at h
  refine ⟨fun v => ?_, by tauto⟩
  cases v <;> tauto

/-- What two converters of one measure path share. -/
theorem ConvSt.fields_of_meter {x y : ConvSt} (h : x.meter = y.meter) : x.iv = y.iv ∧ x.wts = y.wts ∧ x.knext = y.knext
    ∧ x.wcfg = y.wcfg ∧ x.wmark = y.wmark ∧ x.ops = y.ops ∧ x.wcal = y.wcal ∧ x.winj = y.winj ∧ x.wpos = y.wpos := by
  simp only [ConvSt.meter, ConvSt.mk.injEq] at h
  tauto

@[simp] theorem Channel.setConv_res (h : Channel) (v : Conv) (y : ConvSt) : (h.setConv v y).res = h.res := by cases v <;> rfl
@[simp] theorem Channel.setConv_act (h : Channel) (v : Conv) (y : ConvSt) : (h.setConv v y).act = h.act := by cases v <;> rfl
@[simp] theorem Channel.setConv_work (h : Channel) (v : Conv) (y : ConvSt) : (h.setConv v y).work = h.work := by cases v <;> rfl
@[simp] theorem Channel.setConv_rhist (h : Channel) (v : Conv) (y : ConvSt) : (h.setConv v y).rhist = h.rhist := by cases v <;> rfl

theorem Channel.meter_setConv (h : Channel) (v : Conv) (y : ConvSt) : (h.setConv v y).meter = h.meter.setConv v y.meter := by
  cases v <;> rfl

theorem State.meter_ch {s u : State} (h : u.meters = s.meters) (c : Ch) : (u.ch c).meter = (s.ch c).meter :=
  (vget_map ..).symm.trans ((congrArg (fun v => v.get c) h).trans (vget_map ..))

theorem State.meters_of_chan {s u : State} (h : u.chan = s.chan) : u.meters = s.meters := congrArg (Vector.map Channel.meter) h

theorem State.modCh_meters {s : State} {c : Ch} {f : Channel → Channel} (h : (f (s.ch c)).meter = (s.ch c).meter) :
    (s.modCh c f).meters = s.meters := vmap_set_of Channel.meter s.chan c _ h

@[simp] theorem State.ite_meters (p : Prop) [Decidable p] (s u : State) : (if p then s else u).meters =
    if p then s.meters else u.meters := apply_ite ..

@[simp] theorem State.each_meters {α : Type} (l : List α) {f : α → State → State} (h : ∀ a s, (f a s).meters = s.meters)
    (s : State) : (s.each l f).meters = s.meters := State.each_frame State.meters l h s

section
variable (s : State) (c : Ch) (q : Nat) (b : Bool) (p : Samp)

@[simp] theorem State.chEv_meters (e : ChEv) (detail : Word) : (s.chEv c e detail).meters = s.meters :=
  State.meters_of_chan (State.chan_chEvAt ..)
@[simp] theorem State.modLoop_meters (f : LoopSt → LoopSt) : (s.modLoop c f).meters = s.meters := State.modCh_meters rfl
@[simp] theorem State.modCap_meters (f : CapSt → CapSt) : (s.modCap c f).meters = s.meters := State.modCh_meters rfl
@[simp] theorem State.modRec_meters (f : Rec → Rec) : (s.modRec c q f).meters = s.meters := State.modCh_meters rfl
@[simp] theorem State.modCal_meters (f : CalSt → CalSt) : (s.modCal c f).meters = s.meters := State.modCh_meters rfl
@[simp] theorem State.raiseHub_meters (h : Fin 112) (d : Word) : (s.raiseHub h d).meters = s.meters :=
  State.meters_of_chan (State.chan_of_bare (State.bare_raiseHub ..))

/-! Capture -/

@[simp] theorem State.logUe_meters (finder lch n : Nat) : (s.logUe finder lch n).meters = s.meters := by
  unfold State.logUe
  dsimp only
  rw [State.raiseHub_meters]
  unfold State.meters
  ext i hi : 1
  simp [State.ch, Vector.get, Channel.meter]
@[simp] theorem State.acqPut_meters (lch base size tot : Nat) (bs : List Byte) : (s.acqPut lch base size tot bs).meters = s.meters := by
  unfold State.acqPut
  dsimp only
  split
  · rfl
  · refine (State.each_meters _ (fun b s => ?_) _).trans rfl
    split
    · rfl
    · exact (State.logUe_meters _ 6 lch b).trans rfl
@[simp] theorem State.side_meters (bs : List Byte) : (s.side c q bs).meters = s.meters := by simp [State.side, State.sideWrite]
@[simp] theorem State.flushGap_meters : (s.flushGap c q b).meters = s.meters := by
  unfold State.flushGap
  split <;> simp
@[simp] theorem State.flushRng_meters (i : Nat) : (s.flushRng c q b i).meters = s.meters := by
  unfold State.flushRng
  split <;> simp
@[simp] theorem State.gapTo_meters (i cause : Nat) : (s.gapTo c q b i cause).meters = s.meters := by
  unfold State.gapTo
  split <;> simp
@[simp] theorem State.recSample_meters : (s.recSample c q p).meters = s.meters := by
  unfold State.recSample
  split <;> simp
@[simp] theorem State.capSample_meters : (s.capSample c p).meters = s.meters := by simp [State.capSample]
@[simp] theorem State.forwardRes_meters : (s.forwardRes c).meters = s.meters := by
  unfold State.forwardRes
  refine (State.each_meters _ (fun x s => ?_) _).trans (State.modCh_meters rfl)
  dsimp only
  split <;> simp

/-! System calibration and the sample trigger -/

@[simp] theorem State.calDone_meters (code target : Nat) (skew : Bool) (resid : Nat) :
    (s.calDone c code target skew resid).meters = s.meters := by simp [State.calDone]
@[simp] theorem State.sysSample_meters (x : Int) (inp : Nat) : (s.sysSample c p x inp).meters = s.meters := by
  unfold State.sysSample
  split <;> simp
@[simp] theorem State.sampleTrig_meters : (s.sampleTrig c p).meters = s.meters := by
  have trig (u : State) (f : Channel → Bool) : (u.modCh c fun h => { h with strgHigh := f h }).meters = u.meters := State.modCh_meters rfl
  simp [State.sampleTrig, trig]

end

/-! ### Result registers (R135) -/

/-- A result is written to register r with its tick (R135, R136). -/
def Channel.commit (h : Channel) (r : Fin 40) (w : Word) (ts : Nat) : Channel :=
  let g := h.res.get r
  { h with res := h.res.set r.1 { g with res := w, tstamp := wd ts, ovr := if g.flag then satAdd 0xFFFF g.ovr 1 else g.ovr } r.2 }

@[simp] theorem Channel.conv_commit (h : Channel) (r : Fin 40) (w : Word) (ts : Nat) (v : Conv) : (h.commit r w ts).conv v = h.conv v := by
  cases v <;> rfl

theorem Channel.res_commit_self (h : Channel) (r : Fin 40) (w : Word) (ts : Nat) :
    ((h.commit r w ts).res.get r).res = w ∧ ((h.commit r w ts).res.get r).tstamp = wd ts := by
  simp [Channel.commit, vget_set]

theorem Channel.res_commit_ne (h : Channel) {r j : Fin 40} (w : Word) (ts : Nat) (hj : j ≠ r) :
    (h.commit r w ts).res.get j = h.res.get j :=
  (vget_set ..).trans (if_neg hj.symm)

theorem State.commitRes_meters (s : State) (c : Ch) (r : Fin 40) (w : Word) (ts : Nat) :
    (s.commitRes c r w ts).meters = (s.modCh c fun h => h.commit r w ts).meters := by
  have rq (u : State) (x : RqItem) : (u.modCh c fun h => { h with rq := h.rq ++ [x] }).meters = u.meters := State.modCh_meters rfl
  have rdrop (u : State) (v : Conv) : (u.modConv c v fun x => { x with rdrop := satAdd 0xFF x.rdrop 1 }).meters = u.meters :=
    State.modCh_meters (by cases v <;> rfl)
  simp only [State.commitRes, State.ite_meters, State.chEv_meters, rq, rdrop, ite_self]
  rfl

/-! ### Intervals (R128) -/

/-- The interval of entry e with one sample more. -/
def ConvSt.more (x : ConvSt) (e : Fin 16) (y : Int) (sat : Bool) (rc : BitVec 3) (ts : Nat) : Interval :=
  let i := x.iv.get e
  { k := if i.n = 0 then x.knext.get e else i.k, acc := i.acc + y, n := i.n + 1, satf := i.satf || sat, ts := ts, rc := rc }

theorem ConvSt.more_congr {x y : ConvSt} (h : x.meter = y.meter) : x.more = y.more := by
  obtain ⟨iv, -, knext, -⟩ := ConvSt.fields_of_meter h
  unfold ConvSt.more
  rw [iv, knext]

/-- From h to u the interval of entry e of converter v has become i: with its last sample it commits to its result register and begins
anew, before that no result register moves. -/
def Channel.Takes (h u : Channel) (v : Conv) (e : Fin 16) (i : Interval) : Prop :=
  let r := regOf v e.1
  (u.conv v).wts = (h.conv v).wts ∧ (∀ j, j ≠ r → u.res.get j = h.res.get j)
    ∧ (i.n = 2 ^ i.k → (u.res.get r).res = resWord (rnd i.acc i.n) i.rc false i.satf false false ∧ (u.res.get r).tstamp = wd i.ts
        ∧ (u.conv v).iv.get e = .reset)
    ∧ (i.n ≠ 2 ^ i.k → u.res.get r = h.res.get r ∧ (u.conv v).iv.get e = i)

/-- Of the end it speaks of result registers, interval and instant alone. -/
theorem Channel.Takes.after {h u u' : Channel} {v : Conv} {e : Fin 16} {i : Interval} (t : h.Takes u v e i) (res : u'.res = u.res)
    (iv : (u'.conv v).iv = (u.conv v).iv) (wts : (u'.conv v).wts = (u.conv v).wts) : h.Takes u' v e i := by
  unfold Channel.Takes at t ⊢
  rwa [res, iv, wts]

/-- It speaks of the measure path alone. -/
theorem Channel.Takes.congr {h h' u u' : Channel} {v : Conv} {e : Fin 16} {i : Interval} (t : h.Takes u v e i) (hh : h'.meter = h.meter)
    (hu : u'.meter = u.meter) : h'.Takes u' v e i := by
  obtain ⟨conv, res, -⟩ := Channel.fields_of_meter hh
  obtain ⟨conv', res', -⟩ := Channel.fields_of_meter hu
  obtain ⟨-, wts, -⟩ := ConvSt.fields_of_meter (conv v)
  obtain ⟨iv', wts', -⟩ := ConvSt.fields_of_meter (conv' v)
  refine Channel.Takes.after ?_ res' iv' wts'
  unfold Channel.Takes at t ⊢
  rwa [res, wts]

theorem State.modIv_ch (s : State) (c : Ch) (v : Conv) (e : Fin 16) (i : Interval) : (s.modIv c v e fun _ => i).ch c =
    (s.ch c).setConv v { (s.ch c).conv v with iv := ((s.ch c).conv v).iv.set e.1 i e.2 } := State.ch_modConv ..

theorem rnd_succ (a : Int) (n : Nat) : rnd a (n + 1) = (2 * a + (n + 1)).fdiv (2 * (n + 1)) := by simp [rnd]

theorem State.addIv_takes (s : State) (c : Ch) (v : Conv) (e : Fin 16) (y : Int) (sat : Bool) (rc : BitVec 3) (ts : Nat) :
    (s.ch c).Takes ((s.addIv c v e y sat rc ts).ch c) v e (((s.ch c).conv v).more e y sat rc ts) := by
  have eq : s.addIv c v e y sat rc ts =
      let i := ((s.ch c).conv v).more e y sat rc ts
      if i.n = 2 ^ i.k then
        (s.modIv c v e fun _ => .reset).commitRes c (regOf v e.1) (resWord (rnd i.acc i.n) i.rc false i.satf false false) i.ts
      else s.modIv c v e fun _ => i := rfl
  rw [eq]
  generalize ((s.ch c).conv v).more e y sat rc ts = i
  dsimp only
  split
  next hf =>
    refine Channel.Takes.congr ?_ rfl (State.meter_ch (State.commitRes_meters ..) c)
    rw [State.ch_modCh_self, State.modIv_ch]
    obtain ⟨res, tstamp⟩ := Channel.res_commit_self
      ((s.ch c).setConv v { (s.ch c).conv v with iv := ((s.ch c).conv v).iv.set e.1 .reset e.2 }) (regOf v e.1)
      (resWord (rnd i.acc i.n) i.rc false i.satf false false) i.ts
    refine ⟨by simp, fun j hj => ?_, fun _ => ⟨res, tstamp, by simp [vget_set]⟩, fun h => absurd hf h⟩
    rw [Channel.res_commit_ne _ _ _ hj, Channel.setConv_res]
  next hf =>
    rw [State.modIv_ch]
    exact ⟨by simp, fun j _ => by simp, fun h => absurd h hf, fun _ => by simp [vget_set]⟩

/-! ### A regular sample (R127) -/

/-- The correction reads the physical channel's pairs alone. -/
theorem State.correct_congr {s u : State} {c : Ch} (h : u.ph c = s.ph c) : u.correct c = s.correct c := by
  unfold State.correct
  rw [h]

theorem State.ph_of_calm {s u : State} (h : u.calm = s.calm) (c : Ch) : u.ph c = s.ph c := by
  have env := State.env_of_calm h
  rw [State.ph, State.ph, State.phys_of_env env, State.physOf_congr (State.remap_of_env env)]

/-- With no range change in its samples, a regular sample is corrected in the range in force and enters its interval. -/
theorem State.regularSample_takes (s : State) (c : Ch) (v : Conv) (e : Fin 16) (code : BitVec 16) (ts : Nat)
    (hr : (s.ch c).rhist = []) :
    let h := s.ch c
    let rc : BitVec 3 := .ofNat 3 h.act.1
    let k := s.correct c v code ((h.conv v).wcfg.ents.get e) h.work rc
    h.Takes ((s.regularSample c v v e code ts).ch c) v e ((h.conv v).more e k.2.1 k.2.2 rc ts) := by
  intro h rc k
  have range : h.rangeAt ts = (false, rc, h.work) := by simp [Channel.rangeAt, h, hr, rc]
  obtain ⟨u, p, inp, before, eq⟩ : ∃ (u : State) (p : Samp) (inp : Nat), u.meters = s.meters ∧
      s.regularSample c v v e code ts = (((u.addIv c v e k.2.1 k.2.2 rc ts).capSample c p).sysSample c p k.1 inp) := by
    unfold State.regularSample
    dsimp only
    rw [range]
    exact ⟨_, _, _, by simp, rfl⟩
  have m := State.meter_ch before c
  rw [eq, ← ConvSt.more_congr ((Channel.fields_of_meter m).1 v)]
  exact (State.addIv_takes u c v e k.2.1 k.2.2 rc ts).congr m.symm (State.meter_ch (by simp) c)

/-! ### A delivered sample (R102) -/

/-- The channel takes a regular sample of converter v: no change waits among its samples, and no calibration step, injected sequence,
interleave or range change is in them. -/
structure Channel.Regular (h : Channel) (v : Conv) : Prop where
  opsA : h.convA.ops = []
  opsB : h.convB.ops = []
  cal : (h.conv v).wcal = false
  inj : (h.conv v).winj = none
  ilv : h.convA.wcfg.ilv = false
  range : h.rhist = []

theorem Channel.Regular.of_meter {h h' : Channel} {v : Conv} (r : h.Regular v) (hm : h'.meter = h.meter) : h'.Regular v := by
  obtain ⟨conv, -, rhist, -⟩ := Channel.fields_of_meter hm
  obtain ⟨-, -, -, -, -, -, wcal, winj, -⟩ := ConvSt.fields_of_meter (conv v)
  obtain ⟨-, -, -, wcfg, -, opsA, -⟩ := ConvSt.fields_of_meter (conv .a)
  obtain ⟨-, -, -, -, -, opsB, -⟩ := ConvSt.fields_of_meter (conv .b)
  exact ⟨opsA.trans r.opsA, opsB.trans r.opsB, wcal.trans r.cal, winj.trans r.inj, (congrArg ConvCfg.ilv wcfg).trans r.ilv,
    rhist.trans r.range⟩

theorem State.each_same {α : Type} {s : State} {f : α → State → State} (l : List α) (h : ∀ a, f a s = s) : s.each l f = s := by
  induction l with
  | nil => rfl
  | cons a l ih => rw [State.each_cons, h a, ih]

theorem State.modConv_same {s : State} {c : Ch} {v : Conv} {f : ConvSt → ConvSt} (h : f ((s.ch c).conv v) = (s.ch c).conv v) :
    s.modConv c v f = s := by
  rw [State.modConv_eq]
  refine (State.modCh_congr s c _ id ?_).trans (State.modCh_id s c)
  rw [h]
  cases v <;> rfl

/-- Without a change that waits, none acts. -/
theorem State.convOps_nil {s : State} {c : Ch} {v : Conv} (h : ((s.ch c).conv v).ops = []) (ts : Nat) : s.convOps c v ts = s := by
  unfold State.convOps
  rw [h]
  refine State.modConv_same ?_
  simp only [State.each, List.filter_nil, List.foldl_nil, h]
  rw [← h]

/-- Without a range change, no interval closes for one. -/
theorem State.closeRanged_nil {s : State} {c : Ch} (h : (s.ch c).rhist = []) (v : Conv) (ts : Nat) : s.closeRanged c v ts = s :=
  State.each_same _ fun e => if_neg (by simp [h])

theorem Channel.Regular.conv_ops {h : Channel} {v : Conv} (r : h.Regular v) : (h.conv v).ops = [] := by
  cases v
  · exact r.opsA
  · exact r.opsB

theorem Channel.Regular.wts {h : Channel} {v : Conv} (r : h.Regular v) (ts : Nat) :
    (h.setConv v { h.conv v with wts := ts }).Regular v := by
  cases v <;> exact ⟨r.opsA, r.opsB, r.cal, r.inj, r.ilv, r.range⟩

/-- What is queued goes on, the instant is noted, the sample enters, and the position in the sequence goes on (R111, R138). -/
theorem State.sampleIn_regular {s u : State} {c : Ch} {v : Conv} {ts : Nat} (h : (s.ch c).Regular v)
    (e : (s.forwardRes c).modConv c v (fun x => { x with wts := ts }) = u) (code : BitVec 16) :
    s.sampleIn c v code ts = (u.regularSample c v v ((u.ch c).conv v).entry code ts).modConv c v fun x =>
      { x.advancePos with lossCause := 0 } := by
  have hf : ((s.forwardRes c).ch c).Regular v := h.of_meter (State.meter_ch (State.forwardRes_meters s c) c)
  have hu : (u.ch c).Regular v := by
    rw [← e, State.ch_modConv]
    exact hf.wts ts
  have ilv : ((s.forwardRes c).convAt c .a ts).1.ilv = false := by
    simpa [State.convAt, Channel.conv, hf.opsA] using hf.ilv
  simp only [State.sampleIn, ilv, Bool.and_false, Bool.false_eq_true, if_false, State.convOps_nil hf.conv_ops, e, hu.ilv,
    State.closeRanged_nil hu.range, hu.cal, hu.inj]

@[simp] theorem ConvSt.advancePos_iv (x : ConvSt) : x.advancePos.iv = x.iv := by unfold ConvSt.advancePos; split <;> rfl
@[simp] theorem ConvSt.advancePos_wts (x : ConvSt) : x.advancePos.wts = x.wts := by unfold ConvSt.advancePos; split <;> rfl

/-- A delivered regular sample enters the interval of its converter's entry. -/
theorem State.sampleIn_takes {s : State} {c : Ch} {v : Conv} (h : (s.ch c).Regular v) (code : BitVec 16) (ts : Nat) :
    let h := s.ch c
    let x := h.conv v
    let rc : BitVec 3 := .ofNat 3 h.act.1
    let k := s.correct c v code (x.wcfg.ents.get x.entry) h.work rc
    (h.setConv v { x with wts := ts }).Takes ((s.sampleIn c v code ts).ch c) v x.entry (x.more x.entry k.2.1 k.2.2 rc ts) := by
  intro h0 x rc k
  obtain ⟨u, e⟩ : ∃ u, (s.forwardRes c).modConv c v (fun x => { x with wts := ts }) = u := ⟨_, rfl⟩
  have meter : (u.ch c).meter = (h0.setConv v { x with wts := ts }).meter := by
    have m := State.meter_ch (State.forwardRes_meters s c) c
    rw [← e, State.ch_modConv, Channel.meter_setConv, Channel.meter_setConv, m]
    exact congrArg (fun y : ConvSt => h0.meter.setConv v { y with wts := ts }) ((Channel.fields_of_meter m).1 v)
  obtain ⟨conv, -, rhist, act, work⟩ := Channel.fields_of_meter meter
  have conv := conv v
  rw [Channel.conv_setConv] at conv
  rw [Channel.setConv_rhist] at rhist
  rw [Channel.setConv_act] at act
  rw [Channel.setConv_work] at work
  obtain ⟨-, -, -, wcfg, -, -, -, -, wpos⟩ := ConvSt.fields_of_meter conv
  have entry : ((u.ch c).conv v).entry = x.entry := by simp [ConvSt.entry, wpos]
  have ph : u.ph c = s.ph c := State.ph_of_calm (by rw [← e]; simp) c
  have t := State.regularSample_takes u c v ((u.ch c).conv v).entry code ts (rhist.trans h.range)
  dsimp only at t
  rw [ConvSt.more_congr conv, entry, wcfg, act, work, State.correct_congr ph] at t
  rw [State.sampleIn_regular h e code, entry]
  refine Channel.Takes.congr ?_ meter.symm rfl
  exact t.after (by simp) (by simp) (by simp)

/-- The row of a sampling instant of a clocked converter (R102). -/
theorem exec_sampleDelivered {s : State} {c : Ch} {v : Conv} {ts d : Nat} (hd : s.deliverAt c v ts = some d)
    (hc : s.clocked c = true) (hw : ((s.ch c).conv v).wts < ts) (hs : s.samplesAt c v ts = true) (code : BitVec 16) :
    exec (.sampleDelivered ts c v code) s = .next ((s.advanceDie (dieOfCh c) d).sampleIn c v code ts).settle := by
  show execSampleDelivered ts c v code s = _
  simp [execSampleDelivered, State.dueAt, hd, hc, hw, hs]

/-- Settles O34: at its delivery tick the channel takes the sample as a regular one, so it enters the interval of its entry
(`State.sampleIn_takes`), and what the row says of result registers and interval is what `Channel.Takes` says. -/
theorem sampleRow : Obligations.SampleRow := by
  unfold Obligations.SampleRow
  intro s c v ts d code h x e i rc k n acc m sat r hc hd hw hs ha hb hcal hinj hilv hr
  have regular : ((s.advanceDie (dieOfCh c) d).ch c).Regular v := by
    rw [State.ch_advanceDie]
    exact ⟨ha, hb, hcal, hinj, hilv, hr⟩
  have t := State.sampleIn_takes regular code ts
  have ph : (s.advanceDie (dieOfCh c) d).ph c = s.ph c := State.ph_of_calm (State.advance_calm ..) c
  rw [State.ch_advanceDie, State.correct_congr ph] at t
  obtain ⟨wts, others, full, more⟩ := t.congr rfl (congrArg Channel.meter (State.ch_settle _ c))
  rw [Channel.setConv_res] at others more
  rw [Channel.conv_setConv] at wts
  refine State.ends_of (exec_sampleDelivered hd hc hw hs code) ⟨wts, others, fun hn => ?_, more⟩
  obtain ⟨res, tstamp, reset⟩ := full hn
  exact ⟨res.trans (congrArg (fun y => resWord y rc false sat false false) (rnd_succ acc i.n)), tstamp, reset⟩

end Sys2Proof.Machine
end

section
/-! PROOFS. The loop parameters and the list (R159, R293, R295): COEF, LAW and FORCE LIST by what their channel and their value refuse. -/

namespace Sys2Proof.Machine

/-! ### COEF and LAW -/

/-- The loop is closed, or closes at the release of a range change (Table 5-5). -/
def Channel.shut (h : Channel) : Prop := h.closed = true ∨ ∃ r, h.rchg = some r ∧ r.closes = true

/-- The channel with loop parameter i; a write of DEC restarts the count of loop periods at sample boundary k (R143). -/
def Channel.setParam (h : Channel) (i : Nat) (x : Int) (k : Nat) : Channel :=
  { h with
    coef := if p : i < 67 then h.coef.set i x p else h.coef
    loop := if i = 0x40 then { h.loop with mark := k } else h.loop }

/-- An index that is accepted names a parameter. -/
theorem lt_of_coefOk {band : Bool} {i : Nat} {x : Int} (h : coefOk band i x = true) : i < 67 := by
  refine not_le.1 fun hi => ?_
  have h1 : ¬ i < 0x40 := by omega
  have h2 : ¬ i = 0x40 := by omega
  have h3 : ¬ (i = 0x41 ∨ i = 0x42) := by omega
  simp [coefOk, h1, h2, h3] at h

theorem Channel.setParam_coef (h : Channel) {i : Nat} (hi : i < 67) (x : Int) (k : Nat) (j : Fin 67) :
    (h.setParam i x k).coef.get j = if j.1 = i then x else h.coef.get j := by
  rw [Channel.setParam, dif_pos hi, vget_set h.coef ⟨i, hi⟩]
  exact if_congr (Fin.ext_iff.trans eq_comm) rfl rfl

/-- No other parameter than DEC touches the loop engine. -/
theorem Channel.setParam_frame (h : Channel) {i : Nat} (hi : i ≠ 0x40) (x : Int) (k : Nat) :
    h.setParam i x k = { h with coef := (h.setParam i x k).coef } := by
  rw [Channel.setParam, if_neg hi]

section
variable {s : State} {c : Ch} {band : Bool} {i : Nat} {v : Word}

theorem State.param_shut (ho : ((s.tripFirst c).ch c).st ≠ .off) (hk : ((s.tripFirst c).ch c).shut) :
    s.param band i v c = ((s.tripFirst c).modCh c Channel.reject, 2) := by
  simp only [State.param, if_neg ho]
  refine if_pos ?_
  obtain closed | ⟨r, hr, closes⟩ := hk
  · rw [closed, Bool.true_or]
  · simp [hr, closes]

/-- Once the loop is open, index and value judge. -/
theorem State.param_open (ho : ((s.tripFirst c).ch c).st ≠ .off) (hk : ¬ ((s.tripFirst c).ch c).shut) : let u := s.tripFirst c
    s.param band i v c = if coefOk band i v.toInt = false then (u, 0x13)
      else (u.modCh c fun h => h.setParam i v.toInt (u.idxAt c (u.bnd c)), 0) := by
  simp only [State.param, if_neg ho, ← Bool.not_eq_true']
  refine if_neg fun shut => hk ?_
  rcases Bool.or_eq_true_iff.1 shut with closed | closes
  · exact .inl closed
  · split at closes
    next r hr => exact .inr ⟨r, hr, closes⟩
    · exact absurd closes Bool.false_ne_true

end

/-- The row of COEF or LAW. -/
theorem State.param_row {s x : State} {j : Instr} {t : Thr} {w : ZWord} {c : Ch} {band : Bool} {n : Nat} (hi : s.issues j t w)
    (hc : thCh t = some c) (he : exec j s = .next (s.issueCh t w (zlegal j) fun c s => s.param band (ff w 0 7) (s.opV t w) c))
    (h : (s.atIssue t w).param band (ff w 0 7) (s.opV t w) c = (x, n)) : s.chRow j t w (BitVec.ofNat 8 n) fun _ => x :=
  State.chRow_of_issueCh hi hc he (by rwa [State.opV_atIssue])

/-- What a parameter that is accepted leaves: it alone moves, and with DEC the count of loop periods. -/
theorem State.ends_of_setParam {s x : State} {j : Instr} {t : Thr} {w : ZWord} {c : Ch} {i k : Nat} {v : Int}
    (h : s.chRow j t w 0 fun _ => x.modCh c fun h => h.setParam i v k) (hi : i < 67) : s.ends j fun u => (u.th t).last = 0
      ∧ (∀ k : Fin 67, (u.ch c).coef.get k = if k.1 = i then v else (x.ch c).coef.get k)
      ∧ (i ≠ 0x40 → u.bare = ((x.modCh c fun h => { h with coef := (u.ch c).coef }).modTh t fun h => { h with last := 0 }).bare) := by
  obtain ⟨u, he, hu⟩ := h
  have ch : u.ch c = (x.ch c).setParam i v k := by
    rw [State.ch_of_bare hu, State.ch_modTh, State.ch_modCh_self]
  refine ⟨u, he, ?last, fun j => ?coef, fun hd => ?frame⟩
  case last => rw [State.th_of_bare hu, State.th_modTh_self]
  case coef => rw [ch, Channel.setParam_coef _ hi]
  case frame =>
    rw [hu, ch]
    exact congrArg (fun y : State => (y.modTh t _).bare) (State.modCh_congr _ _ _ _ (Channel.setParam_frame _ hd v k))

/-! ### FORCE LIST -/

/-- FORCE LIST outside Off (R293, R295). -/
theorem cmdList_on {v : Word} {c : Ch} {s : State} (ho : ((s.tripFirst c).ch c).st ≠ .off) : let u := s.tripFirst c
    cmdList v c s = if u.listOk c v.toNat = false then (u, 0x0E)
      else if mLIST (u.ch c).mode = true ∧ (u.ch c).listRun = true then (u.modCh c fun h => { h with listNext := some v.toNat }, 0)
      else (u.modCh c fun h => { h with listSel := some v.toNat, listNext := none }, 0) := by
  simp only [cmdList, if_neg ho, Bool.not_eq_true', Bool.and_eq_true]

/-- Settles O19: a loop that is or will be closed refuses, then index and value judge (`State.param_open`); a list by its descriptor and by
the list that runs (`cmdList_on`). -/
theorem loopParameterRows : Obligations.LoopParameterRows := by
  unfold Obligations.LoopParameterRows
  intro s t w c hc
  dsimp only
  have accepted {b : Bool} (h : b = true) : ¬ b = false := by simp [h]
  refine ⟨?coef, ?law, fun hi ho => ?list⟩
  case coef | law =>
    intro hi ho
    refine ⟨fun hk => ?closed, fun hk hb => ?refused, fun hk hb => ?written⟩
    case closed => exact State.param_row hi hc rfl (State.param_shut ho hk)
    case refused => exact State.param_row hi hc rfl ((State.param_open ho hk).trans (if_pos hb))
    case written =>
      have eq := (State.param_open ho hk).trans (if_neg (accepted hb))
      exact State.ends_of_setParam (State.param_row hi hc rfl eq) (lt_of_coefOk hb)
  case list =>
    have row {x : State} {n : Nat} (h : cmdList (s.opV t w) c (s.atIssue t w) = (x, n)) :
        s.chRow (.forceList t w) t w (BitVec.ofNat 8 n) fun _ => x :=
      State.chRow_of_issueCh (f := fun c s => cmdList (s.opV t w) c s) hi hc rfl (by rwa [State.opV_atIssue])
    refine ⟨fun hb => row ?_, fun hb hr => row ?_, fun hb hr => row ?_⟩
    · rw [cmdList_on ho, if_pos hb]
    · rw [cmdList_on ho, if_neg (accepted hb), if_pos hr]
    · rw [cmdList_on ho, if_neg (accepted hb), if_neg hr]

end Sys2Proof.Machine
end

section
/-! PROOFS. The computation of a loop period (R144, R148, R157): the code that it leaves, and the entry to Run at the end of a Heel ramp
(R164), which moves neither the loop engine nor the queue. -/

namespace Sys2Proof.Machine

/-! ### The loop engine of every channel -/

/-- The loop engine and the DAC sample queue that it writes. -/
def Channel.engine (h : Channel) : LoopSt × List (Nat × Code) := (h.loop, h.queue)

/-- The loop engine of every channel, with its queue. -/
def State.engines (s : State) : Vector (LoopSt × List (Nat × Code)) 96 := s.chan.map Channel.engine

theorem State.engine_ch {s u : State} (h : u.engines = s.engines) (c : Ch) : (u.ch c).engine = (s.ch c).engine :=
  (vget_map ..).symm.trans ((congrArg (fun v => v.get c) h).trans (vget_map ..))

theorem State.engines_of_chan {s u : State} (h : u.chan = s.chan) : u.engines = s.engines := congrArg (Vector.map Channel.engine) h

theorem State.engines_of_plains {s u : State} (h : u.plains = s.plains) : u.engines = s.engines := by
  have e (x : State) : x.engines = x.plains.map Channel.engine := by
    rw [State.engines, State.plains, Vector.map_map]
    rfl
  rw [e, e, h]

theorem State.modCh_engines {s : State} {c : Ch} {f : Channel → Channel} (h : (f (s.ch c)).engine = (s.ch c).engine) :
    (s.modCh c f).engines = s.engines := vmap_set_of Channel.engine s.chan c _ h

@[simp] theorem State.ite_engines (p : Prop) [Decidable p] (s u : State) : (if p then s else u).engines =
    if p then s.engines else u.engines := apply_ite ..

section
variable (s : State) (c : Ch) (t : Nat)

@[simp] theorem State.chEvAt_engines (e : ChEv) (detail : Word) : (s.chEvAt c e detail t).engines = s.engines :=
  State.engines_of_chan (State.chan_chEvAt ..)
@[simp] theorem State.stepDisturb_engines : (s.stepDisturb c).engines = s.engines := State.engines_of_plains (State.stepDisturb_plains s c)
@[simp] theorem State.setSt_engines (x : ChSt) : (s.setSt c x t).engines = s.engines := by
  have st : (s.modCh c fun h => { h with st := x }).engines = s.engines := State.modCh_engines rfl
  simp [State.setSt, st]
@[simp] theorem State.refreshGates_engines : (s.refreshGates c).engines = s.engines := State.modCh_engines rfl
@[simp] theorem State.pulseEdgeFx_engines (act : Bool) : (s.pulseEdgeFx c act t).engines = s.engines :=
  (State.engines_of_plains (State.pulseEdgeFx_plains ..)).trans (State.modCh_engines rfl)
@[simp] theorem State.pulseStart_engines : (s.pulseStart c t).engines = s.engines := by
  simp only [State.pulseStart, State.ite_engines, State.refreshGates_engines, State.pulseEdgeFx_engines, ite_self]
  exact State.modCh_engines rfl
@[simp] theorem State.pulseStop_engines : (s.pulseStop c t).engines = s.engines := by
  simp only [State.pulseStop, State.ite_engines, State.pulseEdgeFx_engines, ite_self]
  exact State.modCh_engines rfl
@[simp] theorem State.pulseCheck_engines : (s.pulseCheck c t).engines = s.engines := by
  have seen (x : Bool) : (s.modCh c fun h => { h with pulseSeen := x }).engines = s.engines := State.modCh_engines rfl
  simp [State.pulseCheck, seen]
@[simp] theorem State.genArm_engines : (s.genArm c t).engines = s.engines := by
  refine State.modCh_engines ?_
  (repeat' split) <;> rfl
@[simp] theorem State.stimFollow_engines : (s.stimFollow c t).engines = s.engines := by
  simp only [State.stimFollow, State.refreshGates_engines, State.genArm_engines, State.pulseCheck_engines]
  refine State.modCh_engines ?_
  split <;> rfl

/-- From Heel the loop is closed already: it goes on in Run as it stands (R164). -/
theorem State.toRun_engines (hs : (s.ch c).st = .heel) : (s.toRun c t).engines = s.engines := by
  have parked : (ChSt.heel == .parked) = false := rfl
  have held : (ChSt.heel == .held) = false := rfl
  simp only [State.toRun, hs, parked, held, Bool.false_and, Bool.false_eq_true, if_false, State.stimFollow_engines]
  rw [State.modCh_engines rfl, State.setSt_engines, State.stepDisturb_engines]

end

/-! ### The law of a period -/

section
variable (l : LoopSt)

@[simp] theorem LoopSt.stick_flight (b : Nat) (on : Bool) : (l.stick b on).flight = l.flight := by
  unfold LoopSt.stick
  split <;> rfl
@[simp] theorem LoopSt.prepare_flight (m : BitVec 8) : (l.prepare m).flight = l.flight := by
  unfold LoopSt.prepare
  dsimp only
  (repeat' split) <;> rfl
@[simp] theorem LoopSt.runLaw_flight (p : Nat → Int) (dual : Bool) (q : Qty) (e H : Int) :
    (l.runLaw p dual q e H).1.flight = l.flight := by
  unfold LoopSt.runLaw
  dsimp only
  (repeat' split) <;> rfl

/-- A flag that is stuck is set (R162). -/
theorem LoopSt.stick_bit {b : Nat} (h : b < 32) : bit (l.stick b true).sticky b = true := bit_or_pow h l.sticky

end

/-- The periods under way stand while one of them is computed. -/
theorem Channel.runPeriod_flight (h : Channel) (p : Period) (mv mi : Int) : (h.runPeriod p mv mi).1.flight = h.loop.flight := by
  have moved (q : Prop) [Decidable q] (x y : LoopSt) : (if q then x else y).flight = if q then x.flight else y.flight := apply_ite ..
  simp [Channel.runPeriod, moved]

/-- The output of a period is the last output of the loop, and lies within the two output limits (R157). -/
theorem Channel.runPeriod_output (h : Channel) (p : Period) (mv mi : Int) (hl : h.coef.get 66 ≤ h.coef.get 65) :
    let r := h.runPeriod p mv mi
    r.1.last = r.2.2.1 ∧ h.coef.get 66 ≤ r.2.2.1 ∧ r.2.2.1 ≤ h.coef.get 65 :=
  ⟨rfl, le_max_left .., max_le hl (min_le_right ..)⟩

/-! ### The computation -/

/-- The loop engine with the sums of the periods after tick n alone (R147). -/
def LoopSt.drop (l : LoopSt) (n : Nat) : LoopSt := { l with acc := l.acc.filter fun a => decide (n < a.per) }

section
variable {s : State} {c : Ch} {p : Period}

/-- A period of an open loop leaves no code (R146). -/
theorem State.computePeriod_open (h : p.live = false ∨ (s.ch c).loop.running = false) :
    s.computePeriod c p = s.modLoop c fun l => l.drop p.tick := by
  refine if_pos ?_
  rcases h with h | h <;> simp [h]

/-- A period without a sample repeats the last output (R148). -/
theorem State.computePeriod_gap (hp : p.live = true) (hr : (s.ch c).loop.running = true)
    (hg : isGap p.mode ((s.ch c).loop.measured p.tick) = true) : let h := s.ch c
    s.computePeriod c p = s.modCh c fun x => { x with loop := (x.loop.drop p.tick).stick 10 true }.enqueue (s.now c)
      (outCode (if h.loop.entering then h.lastOut else h.loop.last)) := by
  unfold State.computePeriod
  dsimp only
  rw [if_neg (by simp [hp, hr]), if_pos hg]
  simp only [State.modLoop, State.modCh_modCh]
  rfl

/-- A finished Heel ramp takes T4 at the next sample boundary, unless a trip takes effect there (R164 step 3). -/
def State.heelDone (s : State) (c : Ch) (done : Bool) : State :=
  if done then
    (let s := s.tripFirst c; if (s.ch c).st == .heel then s.toRun c (s.bnd c) else s)
  else s

theorem State.heelDone_engines {done : Bool} (h : done = true → (s.ch c).st = .heel ∧ (s.ch c).trip.pend = false) :
    (s.heelDone c done).engines = s.engines := by
  unfold State.heelDone
  split
  next hd =>
    obtain ⟨heel, untripped⟩ := h hd
    rw [State.tripFirst_of_not_pend untripped]
    dsimp only
    rw [if_pos (by simp [heel]), State.toRun_engines s c _ heel]
  · rfl

/-- A period's result r enters the channel, and its code the queue; a hand-over is an event (R153, R157). -/
def State.putPeriod (s : State) (c : Ch) (r : LoopSt × Bool × Int × Bool) : State :=
  let s := (s.modLoop c fun _ => r.1).modCh c fun h => h.enqueue (s.now c) (outCode r.2.2.1)
  if r.2.1 then s.chEv c .xover (wd (b1 r.1.xoverI)) else s

theorem State.putPeriod_ch (r : LoopSt × Bool × Int × Bool) :
    (s.putPeriod c r).ch c = { s.ch c with loop := r.1 }.enqueue (s.now c) (outCode r.2.2.1) := by
  have chan : (s.putPeriod c r).chan = ((s.modLoop c fun _ => r.1).modCh c fun h => h.enqueue (s.now c) (outCode r.2.2.1)).chan := by
    unfold State.putPeriod
    dsimp only
    split
    · exact State.chan_chEvAt ..
    · rfl
  rw [State.ch_of_chan chan, State.ch_modCh_self, State.modLoop, State.ch_modCh_self]

/-- Any other period is computed from its measured values, and puts its result. -/
theorem State.computePeriod_run (hp : p.live = true) (hr : (s.ch c).loop.running = true)
    (hg : isGap p.mode ((s.ch c).loop.measured p.tick) = false) : let v := (s.ch c).loop.measured p.tick
    let u := s.modLoop c fun l => l.drop p.tick
    let r := (u.ch c).runPeriod p (v.1.getD 0) (v.2.getD 0)
    s.computePeriod c p = (u.putPeriod c r).heelDone c (r.2.2.2 && (s.ch c).st == .heel) :=
  (if_neg (by rw [hp, hr]; decide)).trans (if_neg (ne_true_of_eq_false hg))

/-- It leaves the loop engine of its result, and the code of its output at the end of the queue (R157). -/
theorem State.computePeriod_engine (hp : p.live = true) (hr : (s.ch c).loop.running = true)
    (hg : isGap p.mode ((s.ch c).loop.measured p.tick) = false) (hh : (s.ch c).st ≠ .heel ∨ (s.ch c).trip.pend = false) :
    ∃ mv mi, let r := Channel.runPeriod { s.ch c with loop := (s.ch c).loop.drop p.tick } p mv mi
      ((s.computePeriod c p).ch c).engine = (r.1, ((s.ch c).queue ++ [(s.now c, outCode r.2.2.1)]).take 16) := by
  have dropped : (s.modLoop c fun l => l.drop p.tick).ch c = { s.ch c with loop := (s.ch c).loop.drop p.tick } :=
    State.ch_modCh_self ..
  have put := State.putPeriod_ch (s := s.modLoop c fun l => l.drop p.tick) (c := c)
  rw [dropped] at put
  have run := State.computePeriod_run hp hr hg
  dsimp only at run
  rw [dropped] at run
  refine ⟨((s.ch c).loop.measured p.tick).1.getD 0, ((s.ch c).loop.measured p.tick).2.getD 0, ?_⟩
  rw [run, State.engine_ch (State.heelDone_engines fun hd => ?heel), put]
  · rfl
  case heel =>
    have heel : (s.ch c).st = .heel := by simpa using (Bool.and_eq_true_iff.1 hd).2
    rw [put]
    exact ⟨heel, hh.resolve_left (absurd heel)⟩

end

/-! ### The row -/

theorem exec_loopCompute {s : State} {c : Ch} {p : Period} {rest : List Period} (h : (s.ch c).loop.flight = p :: rest) :
    exec (.loopCompute c) s = .next (s.dueAt (dieOfCh c) (s.sTick c (s.sIdx c p.tick + 18) + 6) fun s =>
      (s.modLoop c fun l => { l with flight := rest }).computePeriod c p) := by
  show execLoopCompute c s = _
  rw [execLoopCompute, h]

/-- The oldest period leaves the list of those under way. -/
theorem State.shift_ch (s : State) (c : Ch) (rest : List Period) :
    (s.modLoop c fun l => { l with flight := rest }).ch c = { s.ch c with loop := { (s.ch c).loop with flight := rest } } :=
  State.ch_modCh_self ..

/-- Settles O28: an open loop, a gap and any other period, by what the computation makes of the channel at its tick
(`State.computePeriod_open`, `State.computePeriod_gap`, `State.computePeriod_engine`). -/
theorem loopCompute : Obligations.LoopCompute := by
  unfold Obligations.LoopCompute
  intro s c p rest hf
  dsimp only
  have he := exec_loopCompute hf
  generalize s.sTick c (s.sIdx c p.tick + 18) + 6 = n at he ⊢
  have now : ((s.advanceDie (dieOfCh c) n).modLoop c fun l => { l with flight := rest }).now c = (s.advanceDie (dieOfCh c) n).now c := rfl
  have ch := State.shift_ch (s.advanceDie (dieOfCh c) n) c rest
  rw [State.ch_advanceDie] at ch
  rw [State.dueAt] at he
  refine ⟨fun hp => State.ends_of he ?opened, fun hp hr hg => State.ends_of he ?gap, fun hp hr hh hg hl => State.ends_of he ?code⟩
  case opened =>
    rw [State.computePeriod_open (by rwa [ch]), State.modLoop, State.modLoop, State.modCh_modCh]
    refine ⟨State.onlyCh_event .., ?_⟩
    rw [State.ch_settle, State.ch_modCh_self, State.ch_advanceDie]
    exact ⟨rfl, rfl⟩
  case gap =>
    rw [State.computePeriod_gap hp (by rwa [ch]) (by rwa [ch]), ch, now, State.modLoop, State.modCh_modCh]
    refine ⟨State.onlyCh_event .., ?_⟩
    rw [State.ch_settle, State.ch_modCh_self, State.ch_advanceDie]
    exact ⟨rfl, LoopSt.stick_bit _ (by decide), LoopSt.stick_flight ..⟩
  case code =>
    obtain ⟨mv, mi, engine⟩ := State.computePeriod_engine
      (s := (s.advanceDie (dieOfCh c) n).modLoop c fun l => { l with flight := rest }) hp (by rwa [ch]) (by rwa [ch]) (by rwa [ch])
    rw [ch, now] at engine
    obtain ⟨last, low, high⟩ := Channel.runPeriod_output
      { s.ch c with loop := LoopSt.drop { (s.ch c).loop with flight := rest } p.tick } p mv mi hl
    obtain ⟨loop, queue⟩ := Prod.mk.inj engine
    rw [State.ch_settle]
    exact ⟨⟨_, low, high, queue, (congrArg LoopSt.last loop).trans last⟩,
      (congrArg LoopSt.flight loop).trans (Channel.runPeriod_flight ..)⟩

end Sys2Proof.Machine
end

section
/-! PROOFS. The threshold codes (R168): limits that lie between two points of the 12-bit grid. -/

namespace Sys2Proof.Machine

/-- The code of an upper limit: up to the grid, outward by the guard, and kept in 12 bits. -/
theorem clamp12_up {x k : Int} (above : 4096 * (k - 1) < x) (upto : x ≤ 4096 * k) (g : Int) :
    clamp12 (-((-x).fdiv 4096) + g) = max (-2048) (min (k + g) 2047) := by
  have grid : -((-x).fdiv 4096) = k := by
    rw [Int.fdiv_eq_ediv_of_nonneg _ (by decide)]
    omega
  rw [grid]
  rfl

/-- The code of a lower limit: down to the grid, outward by the guard, and kept in 12 bits. -/
theorem clamp12_down {x k : Int} (from_ : 4096 * k ≤ x) (below : x < 4096 * (k + 1)) (g : Int) :
    clamp12 (x.fdiv 4096 - g) = max (-2048) (min (k - g) 2047) := by
  have grid : x.fdiv 4096 = k := by
    rw [Int.fdiv_eq_ediv_of_nonneg _ (by decide)]
    omega
  rw [grid]
  rfl

/-- Settles O15: `recalcThr` writes the codes alone, an upper limit's by `clamp12_up`, a lower limit's by `clamp12_down`. -/
theorem thresholdCodes : Obligations.ThresholdCodes := by
  unfold Obligations.ThresholdCodes
  intro s c e
  have codes : ((s.recalcThr c e).ch c).trip = _ := State.modTrip_trip ..
  dsimp only
  rw [codes]
  exact ⟨fun k h1 h2 => clamp12_up h1 h2 _, fun k h1 h2 => clamp12_down h1 h2 _, fun k h1 h2 => clamp12_up h1 h2 _,
    fun k h1 h2 => clamp12_down h1 h2 _, rfl⟩

end Sys2Proof.Machine
end

section
/-! PROOFS. A word of table SRAM that is written (Table 9-7): it reads back, and AVG changes one field of its entry's word (R131). -/

namespace Sys2Proof.Machine

/-! ### A byte and a word read back -/

theorem sget_serase_self {α : Type} (d : α) (m : List (Nat × α)) (k : Nat) : sget d (serase m k) k = d := by
  induction m with
  | nil => rfl
  | cons p m ih =>
    obtain ⟨a, v⟩ := p
    rw [serase]
    split
    · exact ih
    next e => rw [sget, if_neg e, ih]

theorem sget_sput_self {α : Type} (d : α) (m : List (Nat × α)) (k : Nat) (v : α) : sget d (sput m k v) k = v := by
  induction m with
  | nil => exact if_pos rfl
  | cons p m ih =>
    obtain ⟨a, u⟩ := p
    rw [sput]
    split
    · exact if_pos rfl
    · split
      · exact if_pos rfl
      next e => rw [sget, if_neg e, ih]

theorem memByte_memSetByte_self (m : Memory) (a : Nat) (v : Byte) : memByte (memSetByte m a v) a = v := by
  unfold memByte memSetByte sset
  split
  next e => rw [sget_serase_self, e]
  · exact sget_sput_self ..

/-- A word is its four bytes. -/
theorem append_bytes (w : Word) : w.extractLsb' 24 8 ++ w.extractLsb' 16 8 ++ w.extractLsb' 8 8 ++ w.extractLsb' 0 8 = w := by
  ext i hi
  simp only [BitVec.getElem_append, BitVec.getElem_extractLsb']
  grind

theorem memWord_memSetWord (m : Memory) (a : Nat) (w : Word) : memWord (memSetWord m a w) a = w := by
  unfold memWord memSetWord
  simp only [memByte_memSetByte_self, ne_eq, memByte_memSetByte_ne, Nat.left_eq_add, OfNat.ofNat_ne_zero,
    not_false_eq_true, Nat.add_right_inj, Nat.reduceEqDiff, one_ne_zero]
  exact append_bytes w

theorem State.ctl_setCtl (s : State) (c : Ch) (o : Nat) (w : Word) : (s.setCtl c o w).ctl c o = w := by
  rw [State.ctl, State.setCtl, State.cl_modCl_self]
  exact memWord_memSetWord ..

/-- No thread's update moves table SRAM. -/
theorem State.ctl_modTh (s : State) (t : Thr) (f : Thread → Thread) (c : Ch) (o : Nat) : (s.modTh t f).ctl c o = s.ctl c o := by
  have e : ((s.modTh t f).cl (clOf c)).tmem = (s.cl (clOf c)).tmem := by
    unfold State.modTh
    by_cases h : clOf c = t.cl
    · rw [h, State.cl_modCl_self]
    · rw [State.cl_modCl_ne _ _ h]
  rw [State.ctl, e, State.ctl]

theorem State.ctl_of_bare {s u : State} (h : u.bare = s.bare) (c : Ch) (o : Nat) : u.ctl c o = s.ctl c o := by
  simp only [State.ctl, State.cl, State.clus_of_bare h]

/-! ### The AVG field of an entry (Table 4-4) -/

/-- A field is what its own bits are. -/
theorem fld_congr {u w : Word} {a b len : Nat} (h : ∀ i < len, bit u (a + i) = bit w (b + i)) : fld u a len = fld w b len := by
  have e : u.extractLsb' a len = w.extractLsb' b len := by
    refine BitVec.eq_of_getLsbD_eq fun i hi => ?_
    rw [BitVec.getLsbD_extractLsb', BitVec.getLsbD_extractLsb']
    exact congrArg (decide (i < len) && ·) (h i hi)
  exact congrArg BitVec.toNat e

/-- The entry with k in its AVG field. -/
def putAvg (w : Word) (k : Nat) : Word := (w &&& ~~~((0x1F : Word) <<< 17)) ||| (wd k <<< 17)

theorem bit_putAvg (w : Word) {k i : Nat} (hk : k < 2 ^ 5) (hi : i < 32) :
    bit (putAvg w k) i = if 17 ≤ i ∧ i < 22 then k.testBit (i - 17) else bit w i := by
  have high (h : 22 ≤ i) : k.testBit (i - 17) = false :=
    Nat.testBit_lt_two_pow (hk.trans_le (Nat.pow_le_pow_right (by omega) (by omega)))
  have mask (j : Nat) : (0x1F : Word).getLsbD j = decide (j < 32 ∧ j < 5) := by
    rw [show (0x1F : Word) = BitVec.ofNat 32 (2 ^ 5 - 1) from rfl, BitVec.getLsbD_ofNat, Nat.testBit_two_pow_sub_one,
      Bool.decide_and]
  simp only [bit, putAvg, wd, BitVec.getLsbD_or, BitVec.getLsbD_and, BitVec.getLsbD_not, BitVec.getLsbD_shiftLeft, mask,
    BitVec.getLsbD_ofNat]
  grind

theorem fld_putAvg_avg (w : Word) {k : Nat} (hk : k < 2 ^ 5) : fld (putAvg w k) 17 5 = k := by
  have e : fld (putAvg w k) 17 5 = fld (wd k) 0 5 := fld_congr fun i hi => by
    rw [bit_putAvg w hk (by omega), if_pos (by omega), bit, wd, BitVec.getLsbD_ofNat, decide_eq_true (by omega : 0 + i < 32),
      Bool.true_and, Nat.zero_add, Nat.add_sub_cancel_left]
  rw [e, fld, wd, BitVec.toNat_ofNat]
  omega

/-- The fields beside AVG stand. -/
theorem fld_putAvg_ne (w : Word) {k lo len : Nat} (hk : k < 2 ^ 5) (h : lo + len ≤ 17 ∨ 22 ≤ lo) (hl : lo + len ≤ 32) :
    fld (putAvg w k) lo len = fld w lo len :=
  fld_congr fun i hi => by rw [bit_putAvg w hk (by omega), if_neg (by omega)]

end Sys2Proof.Machine
end

section
/-! PROOFS. BLANK, SEQ, INJ and AVG (R113, R114, R120, R131, R179): what each operation answers outside Off, and what it leaves of the
channel. -/

namespace Sys2Proof.Machine

/-! ### BLANK -/

/-- No judgement moves a window. -/
theorem State.evalTrip_win (s : State) (c : Ch) (t : Nat) : ((s.evalTrip c t).ch c).trip.win = (s.ch c).trip.win := by
  unfold State.evalTrip
  split
  · rfl
  · refine State.each_frame (fun u => (u.ch c).trip.win) (List.finRange 4) (fun m u => ?_) s
    obtain ⟨-, -, win⟩ := TripSt.judge_frame (u.ch c).trip m t (u.hasLevel c m) ((u.ch c).st != .tripped)
    rw [State.evalCmp_trip, win]

/-- The program window is replaced from the next tick on (R179). -/
theorem cmdBlank_on {s : State} {c : Ch} (ho : (s.ch c).st ≠ .off) (mask : BitVec 4) (v : Word) : let len := min 65535 v.toNat
    ∃ u, cmdBlank mask v c s = (u, 0)
      ∧ (u.ch c).trip.win.get 4 = { till := s.now c + 1 + len, mask := if len = 0 then 0 else mask } := by
  refine ⟨_, if_neg ho, ?_⟩
  rw [State.evalTrip_win, State.modTrip_trip]
  exact (vget_set _ 4 _ 4).trans (if_pos rfl)

/-! ### SEQ -/

/-- A converter whose configuration waits for boundary b. -/
theorem State.seqSchedule_ch (s : State) (c : Ch) (v : Conv) (g : ConvCfg) (named joint : Bool) (b : Nat) : ∃ y : ConvSt,
    (s.seqSchedule c v g named joint b).ch c = (s.ch c).setConv v y ∧ y.seqPend = some g ∧ y.seqDue = b
      ∧ (named = true → y.rdrop = 0) :=
  ⟨_, State.ch_modConv .., rfl, rfl, fun h => if_pos h⟩

/-- The configuration that converter A has once what waits has taken effect. -/
def Channel.nextA (h : Channel) : ConvCfg := h.convA.seqPend.getD h.convA.cfg

/-- SEQ takes B's configuration: it names B, or ends the interleave in force, and does not begin one (R113). -/
def Channel.seqTakesB (h : Channel) (na nb : Bool) (ga : ConvCfg) : Bool := !(na && ga.ilv) && (nb || (na && h.nextA.ilv))

/-- The configurations that SEQ schedules for boundary b (R114). -/
def State.seqAccept (s : State) (c : Ch) (na nb : Bool) (ga gb : ConvCfg) (joint : Bool) (b : Nat) : State :=
  let h := s.ch c
  let u := if na then s.seqSchedule c .a ga true joint b else s
  if h.seqTakesB na nb ga then u.seqSchedule c .b gb nb joint b
  else if na && ga.ilv then u.seqSchedule c .b h.convB.cfg nb joint b else u

/-- A configuration that the SEQ would take holds a reserved value, or the pair could not interleave (R113, Table 4-5). -/
def Channel.seqBad (h : Channel) (na nb : Bool) (ga gb : ConvCfg) : Bool :=
  let a := if na then ga else h.nextA
  (na && !ga.entsOk) || (h.seqTakesB na nb ga && !gb.entsOk) || (a.ilv && !ilvOk a gb.mcfg)

theorem Channel.seqBad_iff (h : Channel) (na nb : Bool) (ga gb : ConvCfg) : let a := if na then ga else h.nextA
    h.seqBad na nb ga gb = true ↔ (na = true ∧ ga.entsOk = false) ∨ (h.seqTakesB na nb ga = true ∧ gb.entsOk = false)
      ∨ (a.ilv = true ∧ ilvOk a gb.mcfg = false) := by
  simp only [Channel.seqBad, Bool.or_eq_true, Bool.and_eq_true, Bool.not_eq_true', or_assoc]

/-- An end of the interleave in force is all that takes B along, where none begins. -/
theorem Channel.seqTakesB_eq (h : Channel) (na nb : Bool) (ga : ConvCfg) :
    h.seqTakesB na nb ga = ((nb || (na && h.nextA.ilv && !ga.ilv)) && !(na && ga.ilv)) := by
  unfold Channel.seqTakesB
  generalize h.nextA.ilv = i
  generalize ga.ilv = j
  revert na nb i j
  decide

/-- SEQ outside Off, in the order in which it judges. -/
theorem cmdSeq_on {na nb : Bool} {c : Ch} {s : State} (ho : ((s.tripFirst c).ch c).st ≠ .off) : let u := s.tripFirst c
    let h := u.ch c
    let ga := s.readCfg c .a
    let gb := s.readCfg c .b
    cmdSeq na nb c s = if h.seqBad na nb ga gb then (u, 0x10)
      else if !na && h.nextA.ilv then (u, 0)
      else (u.seqAccept c na nb ga gb ((na && ga.ilv) || (na && h.nextA.ilv && !ga.ilv)) (u.bnd c), 0) := by
  simp only [cmdSeq, if_neg ho, State.seqAccept, Channel.seqBad, Channel.seqTakesB_eq, apply_ite ConvCfg.ilv, Channel.nextA]
  cases hp : ((s.tripFirst c).ch c).convA.seqPend <;> cases na <;> rfl

/-- What an accepted SEQ makes of the two converters. -/
theorem State.seqAccept_ch (s : State) (c : Ch) (na nb : Bool) (ga gb : ConvCfg) (joint : Bool) (b : Nat) :
    let h := s.ch c
    let x := (s.seqAccept c na nb ga gb joint b).ch c
    (na = true → x.convA.seqPend = some ga ∧ x.convA.seqDue = b ∧ x.convA.rdrop = 0)
    ∧ (na = false → x.convA = h.convA)
    ∧ (h.seqTakesB na nb ga = true → x.convB.seqPend = some gb ∧ x.convB.seqDue = b)
    ∧ (na = true → ga.ilv = true → x.convB.seqPend = some h.convB.cfg ∧ x.convB.seqDue = b)
    ∧ (h.seqTakesB na nb ga = false → (na = true ∧ ga.ilv = true) ∨ x.convB = h.convB) := by
  obtain ⟨y, hy, named, unnamed⟩ : ∃ y, (if na then s.seqSchedule c .a ga true joint b else s).ch c = (s.ch c).setConv .a y
      ∧ (na = true → y.seqPend = some ga ∧ y.seqDue = b ∧ y.rdrop = 0) ∧ (na = false → y = (s.ch c).convA) := by
    cases na with
    | true =>
      obtain ⟨y, hy, pend, due, rdrop⟩ := s.seqSchedule_ch c .a ga true joint b
      exact ⟨y, hy, fun _ => ⟨pend, due, rdrop rfl⟩, nofun⟩
    | false => exact ⟨_, rfl, nofun, fun _ => rfl⟩
  unfold State.seqAccept
  dsimp only
  generalize (if na then s.seqSchedule c .a ga true joint b else s) = u at hy ⊢
  have excl : (s.ch c).seqTakesB na nb ga = true → ¬ (na = true ∧ ga.ilv = true) := by
    rintro ht ⟨rfl, hi⟩
    simp [Channel.seqTakesB, hi] at ht
  by_cases ht : (s.ch c).seqTakesB na nb ga = true
  · rw [if_pos ht]
    obtain ⟨z, hz, pend, due, -⟩ := u.seqSchedule_ch c .b gb nb joint b
    rw [hz, hy]
    exact ⟨named, unnamed, fun _ => ⟨pend, due⟩, fun hn hi => absurd ⟨hn, hi⟩ (excl ht),
      fun h => absurd ht (ne_true_of_eq_false h)⟩
  · rw [if_neg ht]
    by_cases hf : na = true ∧ ga.ilv = true
    · rw [if_pos (Bool.and_eq_true_iff.2 hf)]
      obtain ⟨z, hz, pend, due, -⟩ := u.seqSchedule_ch c .b (s.ch c).convB.cfg nb joint b
      rw [hz, hy]
      exact ⟨named, unnamed, fun h => absurd h ht, fun _ _ => ⟨pend, due⟩, fun _ => .inl hf⟩
    · rw [if_neg (fun h => hf (Bool.and_eq_true_iff.1 h)), hy]
      exact ⟨named, unnamed, fun h => absurd h ht, fun hn hi => absurd ⟨hn, hi⟩ hf, fun _ => .inr rfl⟩

/-! ### INJ -/

theorem cmdInj_on {v : Conv} {c : Ch} {s : State} (ho : ((s.tripFirst c).ch c).st ≠ .off) : let u := s.tripFirst c
    let w := u.injConv c v
    let x := (u.ch c).conv w
    cmdInj v c s = if x.cfg.styleB = true then (u, 0x11)
      else if x.busyAt (u.now c) = true then (u.dropUrgent c w, 0x12) else (u.acceptUrgent c w (u.now c + 1), 0) :=
  if_neg ho

/-- A dropped request is counted, and one that is pending stays so (R117). -/
theorem State.dropUrgent_conv (s : State) (c : Ch) (v : Conv) :
    (((s.dropUrgent c v).ch c).conv v).drop = min 0xFFFF (((s.ch c).conv v).drop + 1)
    ∧ (((s.dropUrgent c v).ch c).conv v).injPend = ((s.ch c).conv v).injPend := by
  unfold State.dropUrgent
  dsimp only
  rw [State.chEv, State.ch_of_chan (State.chan_chEvAt ..), State.ch_modConv, Channel.conv_setConv]
  exact ⟨rfl, rfl⟩

/-- A calibration step that ends leaves the counts of dropped requests. -/
theorem State.stepOff_drop (s : State) (r : Rg) (d : Ch) (w : Conv) :
    (((s.stepOff r).ch d).conv w).drop = ((s.ch d).conv w).drop := by
  have e : (s.stepOff r).chan.map (fun h => (h.conv w).drop) = s.chan.map fun h => (h.conv w).drop := by
    unfold State.stepOff
    rw [State.modRg_chan]
    split
    · refine vmap_set_of _ s.chan _ _ ?_
      cases w <;> exact apply_ite ConvSt.drop .. |>.trans (ite_self _)
    · rfl
  exact (vget_map ..).symm.trans ((congrArg (fun v => v.get d) e).trans (vget_map ..))

theorem State.stepDiscard_drop (s : State) (r : Rg) (d : Ch) (w : Conv) :
    (((s.stepDiscard r).ch d).conv w).drop = ((s.ch d).conv w).drop := by
  unfold State.stepDiscard
  split
  · exact State.stepOff_drop ..
  · rfl

theorem State.stepUrgent_drop (s : State) (c d : Ch) (v w : Conv) :
    (((s.stepUrgent c v).ch d).conv w).drop = ((s.ch d).conv w).drop := by
  refine (apply_ite (fun u : State => ((u.ch d).conv w).drop) ..).trans ?_
  rw [State.stepDiscard_drop, ite_self]

/-- An accepted request waits for its sequence to begin (R115, R116). -/
theorem State.acceptUrgent_conv (s : State) (c : Ch) (v : Conv) (t : Nat) : (((s.acceptUrgent c v t).ch c).conv v).injPend = true
    ∧ (((s.acceptUrgent c v t).ch c).conv v).drop = ((s.ch c).conv v).drop := by
  unfold State.acceptUrgent
  rw [State.ch_modConv, Channel.conv_setConv]
  exact ⟨rfl, State.stepUrgent_drop s c c v v⟩

/-! ### AVG -/

/-- The word of a converter's entry e in the measure block (Table 4-2). -/
def entryOff (v : Conv) (e : Fin 16) : Nat := (match v with | .a => 0x110 | .b => 0x160) + 4 * e.1

/-- Exponent k in the word of entry e, and for its next interval (R131). -/
def State.setAvg (s : State) (c : Ch) (v : Conv) (e : Fin 16) (k : Nat) : State :=
  (s.setCtl c (entryOff v e) (putAvg (s.ctl c (entryOff v e)) k)).modConv c v fun x => { x with knext := x.knext.set e.1 k }

theorem cmdAvg_on {v : Conv} {e : Fin 16} {k : Nat} {c : Ch} {s : State} (ho : ((s.tripFirst c).ch c).st ≠ .off) :
    let u := s.tripFirst c
    cmdAvg v e k c s = if 16 < k then (u, 0x10) else (u.setAvg c v e k, 0) :=
  if_neg ho

/-- The intervals under way keep their exponents (R128). -/
theorem State.setAvg_conv (s : State) (c : Ch) (v : Conv) (e : Fin 16) (k : Nat) :
    let x := (s.ch c).conv v
    let y := ((s.setAvg c v e k).ch c).conv v
    y.knext.get e = k ∧ (∀ j, j ≠ e → y.knext.get j = x.knext.get j) ∧ y.iv = x.iv := by
  dsimp only
  rw [State.setAvg, State.ch_modConv, Channel.conv_setConv]
  exact ⟨(vget_set ..).trans (if_pos rfl), fun j hj => (vget_set ..).trans (if_neg hj.symm), rfl⟩

theorem State.setAvg_ctl (s : State) (c : Ch) (v : Conv) (e : Fin 16) {k : Nat} (hk : k < 2 ^ 5) :
    let w := s.ctl c (entryOff v e)
    let y := (s.setAvg c v e k).ctl c (entryOff v e)
    fld y 17 5 = k ∧ fld y 0 17 = fld w 0 17 ∧ fld y 22 10 = fld w 22 10 := by
  have word : (s.setAvg c v e k).ctl c (entryOff v e) = putAvg (s.ctl c (entryOff v e)) k := State.ctl_setCtl ..
  dsimp only
  rw [word]
  exact ⟨fld_putAvg_avg _ hk, fld_putAvg_ne _ hk (by omega) (by omega), fld_putAvg_ne _ hk (by omega) (by omega)⟩

/-! ### The rows -/

/-- What the channels, their control words and the thread hold after a channel instruction. -/
theorem State.ends_of_chRow_bare {s x : State} {i : Instr} {t : Thr} {w : ZWord} {status : Byte} (h : s.chRow i t w status fun _ => x)
    {P : State → Prop} (hP : ∀ u : State, (∀ c, u.ch c = x.ch c) → (∀ c o, u.ctl c o = x.ctl c o) →
      (u.th t).last = status → P u) : s.ends i P := by
  obtain ⟨u, he, hu⟩ := h
  refine ⟨u, he, hP u (fun c => ?ch) (fun c o => ?ctl) ?last⟩
  case ch => rw [State.ch_of_bare hu, State.ch_modTh]
  case ctl => rw [State.ctl_of_bare hu, State.ctl_modTh]
  case last => rw [State.th_of_bare hu, State.th_modTh_self]

/-- Settles O20: each instruction by what its operation answers outside Off (`cmdBlank_on`, `cmdSeq_on`, `cmdInj_on`, `cmdAvg_on`). -/
theorem measureRows : Obligations.MeasureRows := by
  unfold Obligations.MeasureRows
  intro s t w c hc
  dsimp only
  refine ⟨fun hi ho => ?blank, fun hi ho => ?seq, fun hi ho => ?inj, fun hi ho => ?avg⟩
  case blank =>
    obtain ⟨x, eq, win⟩ := cmdBlank_on ho (.ofNat 4 (ff w 0 4)) (s.opV t w)
    have row : s.chRow (.blank t w) t w 0 fun _ => x :=
      State.chRow_of_issueCh (f := fun c s => cmdBlank (.ofNat 4 (ff w 0 4)) (s.opV t w) c s) hi hc rfl (by rwa [State.opV_atIssue])
    refine State.ends_of_chRow row fun u hu hl => ⟨hl, ?_⟩
    rw [State.ch_of_chan hu, win]
  case seq =>
    have eq := cmdSeq_on (na := bit (f17 w) 0) (nb := bit (f17 w) 1) ho
    have row {x : State} {n : Nat} (h : cmdSeq (bit (f17 w) 0) (bit (f17 w) 1) c (s.atIssue t w) = (x, n)) :
        s.chRow (.seq t w) t w (BitVec.ofNat 8 n) fun _ => x :=
      State.chRow_of_issueCh (f := fun c s => cmdSeq (bit (f17 w) 0) (bit (f17 w) 1) c s) hi hc rfl h
    have bad := Channel.seqBad_iff (((s.atIssue t w).tripFirst c).ch c) (bit (f17 w) 0) (bit (f17 w) 1)
      ((s.atIssue t w).readCfg c .a) ((s.atIssue t w).readCfg c .b)
    refine ⟨fun hb => row (eq.trans (if_pos (bad.2 hb))), fun hb hn hl => ?paired, fun hb hn => ?accepted⟩
    case paired => exact row (eq.trans ((if_neg (mt bad.1 hb)).trans (if_pos (Bool.and_eq_true_iff.2 ⟨congrArg (!·) hn, hl⟩))))
    case accepted =>
      have judged := ne_true_of_eq_false (Bool.and_eq_false_iff.2 (hn.imp (congrArg (!·)) id))
      refine State.ends_of_chRow (row (eq.trans ((if_neg (mt bad.1 hb)).trans (if_neg judged)))) fun u hu hl => ?_
      rw [State.ch_of_chan hu]
      exact ⟨hl, State.seqAccept_ch ..⟩
  case inj =>
    have eq := cmdInj_on (v := convOf (bit (f17 w) 0)) ho
    have row {x : State} {n : Nat} (h : cmdInj (convOf (bit (f17 w) 0)) c (s.atIssue t w) = (x, n)) :
        s.chRow (.inj t w) t w (BitVec.ofNat 8 n) fun _ => x :=
      State.chRow_of_issueCh (f := fun c s => cmdInj (convOf (bit (f17 w) 0)) c s) hi hc rfl h
    refine ⟨fun hs => row (eq.trans (if_pos hs)), fun hs hb => ?dropped, fun hs hb => ?accepted⟩
    case dropped =>
      have answer := eq.trans ((if_neg (ne_true_of_eq_false hs)).trans (if_pos hb))
      refine State.ends_of_chRow (row answer) fun u hu hl => ?_
      rw [State.ch_of_chan hu]
      exact ⟨hl, State.dropUrgent_conv ..⟩
    case accepted =>
      have answer := eq.trans ((if_neg (ne_true_of_eq_false hs)).trans (if_neg (ne_true_of_eq_false hb)))
      refine State.ends_of_chRow (row answer) fun u hu hl => ?_
      rw [State.ch_of_chan hu]
      exact ⟨hl, State.acceptUrgent_conv ..⟩
  case avg =>
    have eq := cmdAvg_on (v := convOf (bit (f17 w) 0)) (e := fAvgEntry w) (k := ff w 5 5) ho
    have row {x : State} {n : Nat} (h : cmdAvg (convOf (bit (f17 w) 0)) (fAvgEntry w) (ff w 5 5) c (s.atIssue t w) = (x, n)) :
        s.chRow (.avg t w) t w (BitVec.ofNat 8 n) fun _ => x :=
      State.chRow_of_issueCh (f := fun c s => cmdAvg (convOf (bit (f17 w) 0)) (fAvgEntry w) (ff w 5 5) c s) hi hc rfl h
    refine ⟨fun hk => row (eq.trans (if_pos hk)), fun hk => ?_⟩
    refine State.ends_of_chRow_bare (row (eq.trans (if_neg (not_lt.2 hk)))) fun u ch ctl hl => ?_
    rw [ch, ctl]
    obtain ⟨next, others, iv⟩ := State.setAvg_conv ((s.atIssue t w).tripFirst c) c (convOf (bit (f17 w) 0)) (fAvgEntry w) (ff w 5 5)
    exact ⟨hl, next, others, iv, State.setAvg_ctl _ c (convOf (bit (f17 w) 0)) (fAvgEntry w) (by omega)⟩

end Sys2Proof.Machine
end

section
/-! PROOFS. The generator instructions (7.5, Table 7-4): SEG, JUMP, RATE and MARK by what their operation answers outside Off, and the half
of MKCFG that a MARK writes (Table 7-9). -/

namespace Sys2Proof.Machine

/-! ### The generator of a channel -/

theorem State.modGen_gen (s : State) (c : Ch) (f : GenSt → GenSt) : ((s.modGen c f).ch c).gen = f (s.ch c).gen :=
  congrArg Channel.gen (State.ch_modCh_self ..)

theorem State.ch_modCl (s : State) (n : Cl) (f : Cluster → Cluster) (c : Ch) : (s.modCl n f).ch c = s.ch c := rfl

/-- What a generator plays and has loaded, without the start that it waits for. -/
theorem State.genArm_gen (s : State) (c : Ch) (t : Nat) : let g := ((s.genArm c t).ch c).gen
    g.next = (s.ch c).gen.next ∧ g.nextLoaded = (s.ch c).gen.nextLoaded ∧ g.cur = (s.ch c).gen.cur
    ∧ g.running = (s.ch c).gen.running := by
  dsimp only
  rw [State.genArm, State.ch_modCh_self]
  split
  · split <;> exact ⟨rfl, rfl, rfl, rfl⟩
  · exact ⟨rfl, rfl, rfl, rfl⟩

/-- A sticky bit that a condition sets (Table 7-8). -/
theorem GenSt.bit_stick_self (g : GenSt) {b : Nat} (hb : b < 32) (on : Bool) : bit (g.stick b on).sticky b = (bit g.sticky b || on) := by
  cases on
  · exact (Bool.or_false _).symm
  · exact (bit_or_pow hb g.sticky).trans (Bool.or_true _).symm

@[simp] theorem GenSt.stick_jumpPend (g : GenSt) (b : Nat) (on : Bool) : (g.stick b on).jumpPend = g.jumpPend := by cases on <;> rfl
@[simp] theorem GenSt.stick_follower (g : GenSt) (b : Nat) (on : Bool) : (g.stick b on).follower = g.follower := by cases on <;> rfl

/-! ### SEG -/

/-- SEG's descriptor takes NEXT, at the slot size in force (R196, R260). -/
def State.placeSeg (s : State) (c : Ch) (q : Seg) : State := s.modGen c fun g =>
  let g := if !g.running && g.next.isNone then { g with size := (s.sizeFor c).1, cut := (s.sizeFor c).2 } else g
  { g with next := some q, nextLoaded := 0, nextSize := g.size, eccNext := none }

/-- An accepted SEG: with NEXT filled, a start may be awaited (R210). -/
def State.takeSeg (s : State) (c : Ch) (q : Seg) : State := (s.placeSeg c q).genArm c ((s.placeSeg c q).now c)

theorem cmdSeg_on {d : Fin 16} {c : Ch} {s : State} (ho : (s.ch c).st ≠ .off) : let q := s.readSeg c d
    cmdSeg d c s = if s.segOk c q = false then (s, 0x18) else if (s.ch c).gen.follower = .next then (s, 0x19)
      else (s.takeSeg c q, 0) := by
  simp [cmdSeg, ho, State.takeSeg, State.placeSeg]

theorem State.takeSeg_gen (s : State) (c : Ch) (q : Seg) : let g := ((s.takeSeg c q).ch c).gen
    g.next = some q ∧ g.nextLoaded = 0 ∧ g.cur = (s.ch c).gen.cur ∧ g.running = (s.ch c).gen.running := by
  obtain ⟨next, loaded, cur, running⟩ := State.genArm_gen (s.placeSeg c q) c ((s.placeSeg c q).now c)
  rw [State.placeSeg, State.modGen_gen] at next loaded cur running
  refine ⟨next, loaded, cur.trans ?_, running.trans ?_⟩ <;> dsimp only <;> split <;> rfl

/-! ### JUMP and RATE -/

theorem cmdJump_on {c : Ch} {s : State} (ho : (s.ch c).st ≠ .off) : let g := (s.ch c).gen
    cmdJump c s = if g.running = false then (s, 0x1A) else if g.jumpPend = true then (s, 0x1B)
      else (s.modGen c fun x => { x with jumpPend := true, jumpAt := s.now c }.stick 1 (g.follower != Follower.undecided), 0) := by
  simp [cmdJump, ho]

theorem cmdRate_on {m n : Word} {c : Ch} {s : State} (ho : (s.ch c).st ≠ .off) :
    cmdRate m n c s = if 1 ≤ m.toNat ∧ m.toNat ≤ n.toNat ∧ n.toNat ≤ 4096
      then (s.modGen c fun g => { g with rateM := m.toNat, rateN := n.toNat }, 0) else (s, 0x1C) := by
  have bad : (m = 0 ∨ n.toNat < m.toNat ∨ 4096 < n.toNat) ↔ ¬ (1 ≤ m.toNat ∧ m.toNat ≤ n.toNat ∧ n.toNat ≤ 4096) := by
    rw [← BitVec.toNat_inj]
    simp only [BitVec.ofNat_eq_ofNat, BitVec.toNat_ofNat, Nat.zero_mod]
    omega
  rw [cmdRate, if_neg ho]
  by_cases h : 1 ≤ m.toNat ∧ m.toNat ≤ n.toNat ∧ n.toNat ≤ 4096
  · rw [if_neg (fun e => bad.1 e h), if_pos h]
  · rw [if_pos (bad.2 h), if_neg h]

/-! ### MARK -/

/-- MKCFG with the 16 bits from `lo` on taken from MARK's value (Table 7-9). -/
def putMark (old v : Word) (lo : Nat) : Word := (old &&& ~~~((0xFFFF : Word) <<< lo)) ||| ((v &&& 0xFFFC) <<< lo)

theorem bit_putMark (old v : Word) (lo : Nat) {i : Nat} (hi : i < 32) :
    bit (putMark old v lo) i = if lo ≤ i ∧ i < lo + 16 then decide (2 ≤ i - lo) && bit v (i - lo) else bit old i := by
  have ones (j : Nat) : (0xFFFF : Word).getLsbD j = decide (j < 32 ∧ j < 16) := by
    rw [show (0xFFFF : Word) = BitVec.ofNat 32 (2 ^ 16 - 1) from rfl, BitVec.getLsbD_ofNat, Nat.testBit_two_pow_sub_one, Bool.decide_and]
  have mask (j : Nat) : (0xFFFC : Word).getLsbD j = decide (2 ≤ j ∧ j < 16) := by
    rw [show (0xFFFC : Word) = BitVec.ofNat 32 ((2 ^ 14 - 1) * 2 ^ 2) from rfl, BitVec.getLsbD_ofNat, Nat.testBit_mul_two_pow,
      Nat.testBit_two_pow_sub_one]
    grind
  simp only [bit, putMark, BitVec.getLsbD_or, BitVec.getLsbD_and, BitVec.getLsbD_not, BitVec.getLsbD_shiftLeft, ones, mask]
  grind

theorem testBit_fld {n : Nat} (w : BitVec n) (lo len i : Nat) : (fld w lo len).testBit i = (decide (i < len) && bit w (lo + i)) := by
  rw [fld, Nat.testBit_mod_two_pow, Nat.testBit_shiftRight]
  rfl

/-- The half that MARK writes: its value but for the two reserved bits. -/
theorem fld_putMark_half (old v : Word) {lo : Nat} (hl : lo ≤ 16) : fld (putMark old v lo) lo 16 = fld v 2 14 * 4 := by
  refine Nat.eq_of_testBit_eq fun i => ?_
  rw [show 4 = 2 ^ 2 from rfl, Nat.testBit_mul_two_pow, testBit_fld, testBit_fld]
  by_cases hi : i < 16
  · rw [bit_putMark old v lo (by omega), if_pos (by omega), Nat.add_sub_cancel_left]
    grind
  · grind

/-- The other half stands. -/
theorem fld_putMark_other (old v : Word) {lo k : Nat} (h : k + 16 ≤ lo ∨ lo + 16 ≤ k) (hk : k ≤ 16) :
    fld (putMark old v lo) k 16 = fld old k 16 :=
  fld_congr fun i hi => by rw [bit_putMark old v lo (by omega), if_neg (by omega)]

/-- The pin is another marker's already (R209). -/
def State.pinTaken (s : State) (c : Ch) (w : Bool) (p : Nat) : Bool :=
  allChs.any fun d => [false, true].any fun m => !(d == c && m == w) && s.drivesPin d m p

theorem State.pinTaken_iff (s : State) (c : Ch) (w : Bool) (p : Nat) :
    s.pinTaken c w p = true ↔ ∃ d b, (d, b) ≠ (c, w) ∧ s.drivesPin d b p = true := by
  have other (d : Ch) (b : Bool) : (!(d == c && b == w)) = true ↔ (d, b) ≠ (c, w) := by simp [imp_iff_not_or]
  simp only [State.pinTaken, allChs, List.any_eq_true, List.mem_finRange, true_and, Bool.and_eq_true, other, List.mem_cons,
    List.not_mem_nil, or_false]
  refine exists_congr fun d => exists_congr fun b => and_iff_right ?_
  cases b <;> simp

@[simp] theorem GenSt.askMk_mkcfg (g : GenSt) (w lvl : Bool) (due : Nat) : (g.askMk w lvl due).mkcfg = g.mkcfg := by
  unfold GenSt.askMk
  split <;> rfl

theorem cmdMark_on {w : Bool} {v : Word} {c : Ch} {s : State} (ho : (s.ch c).st ≠ .off) : let pin := fld v 10 5
    ∃ x, (x.ch c).gen.mkcfg = putMark (s.ch c).gen.mkcfg v (if w then 16 else 0)
      ∧ cmdMark w v c s = if bit v 15 = true ∧ (24 ≤ pin ∨ pin / 12 ≠ (dieOfCh c).1) then (s, 0x1D)
        else if bit v 15 = true ∧ s.pinTaken c w pin = true then (s, 0x1E) else (x, 0) := by
  have wrong : (bit v 15 && (decide (23 < fld v 10 5) || decide (fld v 10 5 / 12 ≠ (dieOfCh c).1))) = true ↔
      bit v 15 = true ∧ (24 ≤ fld v 10 5 ∨ fld v 10 5 / 12 ≠ (dieOfCh c).1) := by simp [Nat.succ_le_iff]
  refine ⟨_, ?cfg, (if_neg ho).trans (if_congr wrong rfl (if_congr Bool.and_eq_true_iff rfl rfl))⟩
  rw [State.modGen_gen, GenSt.askMk_mkcfg, State.ch_modCl, State.modGen_gen]
  rfl

/-! ### The rows -/

/-- Settles O21: each instruction by what its operation answers outside Off (`cmdSeg_on`, `cmdJump_on`, `cmdRate_on`, `cmdMark_on`). -/
theorem generatorRows : Obligations.GeneratorRows := by
  unfold Obligations.GeneratorRows
  intro s t w c hc
  dsimp only
  refine ⟨fun hi ho => ?seg, fun hi ho => ?jump, fun hi ho => ?rate, fun hi ho => ?mark⟩
  case seg =>
    have row {x : State} {n : Nat} (h : cmdSeg (fSegD w) c (s.atIssue t w) = (x, n)) :
        s.chRow (.seg t w) t w (BitVec.ofNat 8 n) fun _ => x :=
      State.chRow_of_issueCh (f := fun c s => cmdSeg (fSegD w) c s) hi hc rfl h
    have eq := cmdSeg_on (d := fSegD w) ho
    refine ⟨fun hq => row (eq.trans (if_pos hq)), fun hq hn => ?busy, fun hq hn => ?taken⟩
    case busy => exact row (eq.trans ((if_neg (ne_false_of_eq_true hq)).trans (if_pos hn)))
    case taken =>
      refine State.ends_of_chRow (row (eq.trans ((if_neg (ne_false_of_eq_true hq)).trans (if_neg hn)))) fun u hu hl => ?_
      rw [State.ch_of_chan hu]
      exact ⟨hl, State.takeSeg_gen ..⟩
  case jump =>
    have row {x : State} {n : Nat} (h : cmdJump c (s.atIssue t w) = (x, n)) :
        s.chRow (.jump t w) t w (BitVec.ofNat 8 n) fun _ => x :=
      State.chRow_of_issueCh (f := fun c s => cmdJump c s) hi hc rfl h
    have eq := cmdJump_on ho
    refine ⟨fun hr => row (eq.trans (if_pos hr)), fun hr hp => ?pending, fun hr hp => ?asked⟩
    case pending => exact row (eq.trans ((if_neg (ne_false_of_eq_true hr)).trans (if_pos hp)))
    case asked =>
      have answer := eq.trans ((if_neg (ne_false_of_eq_true hr)).trans (if_neg (ne_true_of_eq_false hp)))
      refine State.ends_of_chRow (row answer) fun u hu hl => ?_
      rw [State.ch_of_chan hu, State.modGen_gen]
      exact ⟨hl, GenSt.stick_jumpPend .., GenSt.stick_follower .., GenSt.bit_stick_self _ (by decide) _⟩
  case rate =>
    have eq := cmdRate_on (m := s.g t w.ra) (n := s.g t w.rb) ho
    have row {f : State → State} {n : Nat} (h : cmdRate (s.g t w.ra) (s.g t w.rb) c (s.atIssue t w) = (f (s.atIssue t w), n)) :
        s.chRow (.rate t w) t w (BitVec.ofNat 8 n) f :=
      State.chRow_of_issueCh (f := fun c s => cmdRate (s.g t w.ra) (s.g t w.rb) c s) hi hc rfl (by rwa [State.g_atIssue, State.g_atIssue])
    exact ⟨fun h1 h2 h3 => row (eq.trans (if_pos ⟨h1, h2, h3⟩)), fun hn => row (f := id) (eq.trans (if_neg hn))⟩
  case mark =>
    have row {x : State} {n : Nat} (h : cmdMark (bit (f17 w) 16) (s.opV t w) c (s.atIssue t w) = (x, n)) :
        s.chRow (.mark t w) t w (BitVec.ofNat 8 n) fun _ => x :=
      State.chRow_of_issueCh (f := fun c s => cmdMark (bit (f17 w) 16) (s.opV t w) c s) hi hc rfl (by rwa [State.opV_atIssue])
    obtain ⟨x, cfg, eq⟩ := cmdMark_on (w := bit (f17 w) 16) (v := s.opV t w) ho
    rw [← State.pinTaken_iff]
    refine ⟨fun he hp => row (eq.trans (if_pos ⟨he, hp⟩)), fun he hp hd ht => ?taken, fun hv => ?written⟩
    case taken => exact row (eq.trans ((if_neg (by omega)).trans (if_pos ⟨he, ht⟩)))
    case written =>
      have good : ¬ (bit (s.opV t w) 15 = true ∧ (24 ≤ fld (s.opV t w) 10 5 ∨ fld (s.opV t w) 10 5 / 12 ≠ (dieOfCh c).1))
          ∧ ¬ (bit (s.opV t w) 15 = true ∧ (s.atIssue t w).pinTaken c (bit (f17 w) 16) (fld (s.opV t w) 10 5) = true) := by
        rcases hv with he | ⟨hp, hd, ht⟩
        · simp [he]
        · exact ⟨by omega, fun h => ht h.2⟩
      refine State.ends_of_chRow (row (eq.trans ((if_neg good.1).trans (if_neg good.2)))) fun u hu hl => ?_
      rw [State.ch_of_chan hu, cfg]
      refine ⟨hl, fld_putMark_half _ _ ?_, fld_putMark_other _ _ ?_ ?_⟩ <;> split <;> omega

end Sys2Proof.Machine
end

section
/-! PROOFS. A generator that plays (7.1 to 7.6): the sample that it emits, the start, the samples of an entry, the entry that follows and
the starvation. -/

namespace Sys2Proof.Machine

/-! ### What a generator plays -/

/-- The run that a generator is in, its place in the entry, its phase and the samples that it has played, without markers, loops, flags and
the follower of the pass. -/
def GenSt.play (g : GenSt) : GenSt :=
  { GenSt.reset with
    running := g.running, cur := g.cur, next := g.next, curSlot := g.curSlot, m := g.m, n := g.n, t0 := g.t0, j := g.j
    starving := g.starving, ent := g.ent, left := g.left, entry := g.entry, theta := g.theta, xs := g.xs }

/-- What two generators that play the same share. -/
theorem GenSt.fields_of_play {x y : GenSt} (h : x.play = y.play) : x.running = y.running ∧ x.cur = y.cur ∧ x.next = y.next
    ∧ x.curSlot = y.curSlot ∧ x.m = y.m ∧ x.n = y.n ∧ x.t0 = y.t0 ∧ x.j = y.j ∧ x.starving = y.starving ∧ x.ent = y.ent
    ∧ x.left = y.left ∧ x.entry = y.entry ∧ x.theta = y.theta ∧ x.xs = y.xs := by
  simp only [GenSt.play, GenSt.mk.injEq] at h
  tauto

/-- The generator with one more sample played, of value x (R192). -/
def GenSt.sampled (g : GenSt) (x : Int) : GenSt := { g with xs := (x :: g.xs).take 48, j := g.j + 1 }

/-- A sample that is played is one more of what is played. -/
theorem GenSt.sampled_play {g k : GenSt} (h : g.play = k.play) (x : Int) : (g.sampled x).play = (k.sampled x).play :=
  congrArg (GenSt.sampled · x) h

section
variable (g : GenSt)

@[simp] theorem GenSt.stick_play (b : Nat) (on : Bool) : (g.stick b on).play = g.play := by cases on <;> rfl
@[simp] theorem GenSt.askMk_play (w lvl : Bool) (due : Nat) : (g.askMk w lvl due).play = g.play := by
  unfold GenSt.askMk
  split <;> rfl
@[simp] theorem GenSt.askBoth_play (b : BitVec 2) (due : Nat) : (g.askBoth b due).play = g.play := by
  simp only [GenSt.askBoth, GenSt.askMk_play]
  rfl

/-- An emitted sample moves markers and flags beside what is played. -/
theorem GenSt.emit_play {k : GenSt} (h : g.play = k.play) (t : Nat) : (g.emit t).play = (k.sampled (genShape k.entry k.theta).1).play := by
  obtain ⟨-, -, -, -, -, -, -, -, -, -, -, entry, theta, -⟩ := GenSt.fields_of_play h
  rw [← entry, ← theta]
  exact (GenSt.askBoth_play ..).trans (GenSt.sampled_play ((GenSt.stick_play g 3 _).trans h) _)

/-- A flag that is set stands (Table 7-8). -/
theorem GenSt.stick_keeps {b : Nat} (h : bit g.sticky b = true) (k : Nat) (on : Bool) : bit (g.stick k on).sticky b = true := by
  cases on
  · exact h
  · exact (BitVec.getLsbD_or ..).trans (by rw [show g.sticky.getLsbD b = true from h, Bool.true_or])

@[simp] theorem GenSt.askMk_sticky (w lvl : Bool) (due : Nat) : (g.askMk w lvl due).sticky = g.sticky := by
  unfold GenSt.askMk
  split <;> rfl

theorem GenSt.emit_keeps {b : Nat} (h : bit g.sticky b = true) (t : Nat) : bit (g.emit t).sticky b = true := by
  have e : (g.emit t).sticky = (g.stick 3 (genShape g.entry g.theta).2).sticky := by
    simp only [GenSt.emit, GenSt.askBoth, GenSt.askMk_sticky]
  exact e ▸ g.stick_keeps h 3 _

/-- The commit point fixes the follower alone (R200). -/
@[simp] theorem GenSt.commit_play (t : Nat) : (g.commit t).play = g.play := by
  unfold GenSt.commit
  dsimp only
  (repeat' split) <;> rfl

@[simp] theorem GenSt.release_play : g.release.play = g.play := by
  unfold GenSt.release
  split
  · rfl
  · split <;> rfl

end

section
variable (s : State) (c : Ch) (t : Nat)

@[simp] theorem State.chEv_gen (e : ChEv) (d : Word) : ((s.chEv c e d).ch c).gen = (s.ch c).gen :=
  congrArg Channel.gen (State.ch_of_chan (State.chan_chEvAt ..) c)

/-- An event that may be raised moves no generator. -/
theorem State.ite_chEv_gen (p : Bool) (e : ChEv) (d : Word) : ((if p then s.chEv c e d else s).ch c).gen = (s.ch c).gen := by
  cases p
  · rfl
  · exact State.chEv_gen ..

@[simp] theorem State.genCommit_play : ((s.genCommit c t).ch c).gen.play = (s.ch c).gen.play := by
  unfold State.genCommit
  dsimp only
  split
  · rw [State.modGen_gen, GenSt.commit_play]
  · rfl

/-- A starving generator plays no pass sample, so that no commit point comes (R203). -/
theorem State.genCommit_starving (h : (s.ch c).gen.starving = true) : s.genCommit c t = s := by
  simp [State.genCommit, h]

@[simp] theorem State.genAfter_play : ((s.genAfter c t).ch c).gen.play = (s.ch c).gen.play := by
  rw [State.genAfter, State.modGen_gen, GenSt.release_play]
  split <;> rfl

@[simp] theorem State.genAfter_sticky : ((s.genAfter c t).ch c).gen.sticky = (s.ch c).gen.sticky := by
  have release (g : GenSt) : g.release.sticky = g.sticky := by
    unfold GenSt.release
    split
    · rfl
    · split <;> rfl
  rw [State.genAfter, State.modGen_gen, release]
  split <;> rfl

end

/-! ### An entry that is due (R191, R194, R203) -/

/-- Entry e, of content x, begins. -/
def GenSt.enters (g : GenSt) (e : Nat) (x : GenEntry) : GenSt :=
  { g with ent := e, entry := x, left := max 1 x.dur - 1, theta := x.phase * 2 ^ 32, starving := false }

/-- Entry e is due and not there: the last entry is held, its phase advancing. -/
def GenSt.starves (g : GenSt) (e : Nat) : GenSt := { g with ent := e, starving := true }.spin

section
variable {s : State} {c : Ch} {e : Nat} (back : Bool) (t : Nat)

/-- An entry that is in its slot begins with its first sample. -/
theorem State.genBegin_resident (h : (s.ch c).gen.resident e = true) : let x := s.slotEntry c e
    ((s.genBegin c e back t).ch c).gen.play =
      (((s.ch c).gen.enters e x).sampled (genShape x (x.phase * 2 ^ 32)).1).play := by
  unfold State.genBegin
  dsimp only
  rw [if_pos h, State.ite_chEv_gen, State.modGen_gen]
  refine GenSt.emit_play (k := (s.ch c).gen.enters e (s.slotEntry c e)) _ ?_ t
  split <;> rfl

/-- An entry that is not in its slot starves the generator; STARVED sets at the first starved sample (R204). -/
theorem State.genBegin_starved (h : (s.ch c).gen.resident e = false) : let g := (s.ch c).gen
    let u := ((s.genBegin c e back t).ch c).gen
    u.play = ((g.starves e).sampled (genShape g.entry (g.starves e).theta).1).play
    ∧ (g.starving = false → bit u.sticky 2 = true) := by
  unfold State.genBegin
  dsimp only
  rw [if_neg (ne_true_of_eq_false h), State.ite_chEv_gen, State.modGen_gen]
  refine ⟨GenSt.emit_play (k := (s.ch c).gen.starves e) _ ?play t, fun hs => GenSt.emit_keeps _ (GenSt.stick_keeps _ ?flag 8 _) t⟩
  case play =>
    rw [GenSt.stick_play]
    (repeat' split) <;> rfl
  case flag =>
    rw [if_pos (by rw [hs]; rfl)]
    exact (GenSt.bit_stick_self _ (by decide) true).trans (Bool.or_true _)

/-- Either way the run is the same, one sample on. -/
theorem State.genBegin_run : let g := (s.ch c).gen
    let u := ((s.genBegin c e back t).ch c).gen
    u.running = g.running ∧ u.cur = g.cur ∧ u.next = g.next ∧ u.curSlot = g.curSlot ∧ u.m = g.m ∧ u.n = g.n ∧ u.t0 = g.t0
    ∧ u.j = g.j + 1 := by
  dsimp only
  cases h : (s.ch c).gen.resident e with
  | true =>
    obtain ⟨running, cur, next, slot, m, n, t0, j, -⟩ := GenSt.fields_of_play (State.genBegin_resident back t h)
    exact ⟨running, cur, next, slot, m, n, t0, j⟩
  | false =>
    obtain ⟨running, cur, next, slot, m, n, t0, j, -⟩ := GenSt.fields_of_play (State.genBegin_starved back t h).1
    exact ⟨running, cur, next, slot, m, n, t0, j⟩

end

/-! ### A start (R210) -/

/-- A slot size at which NEXT was loaded stands (R260). -/
theorem State.startSize_gen {s : State} {c : Ch} (h : (s.ch c).gen.nextSize = (s.sizeFor c).1) :
    ((s.startSize c).ch c).gen = { (s.ch c).gen with size := (s.sizeFor c).1, cut := (s.sizeFor c).2 } := by
  rw [State.startSize, State.modGen_gen]
  exact if_pos h

/-- A started generator plays sample 0 of what stood in NEXT. -/
theorem State.genStart_run (s : State) (c : Ch) (t0 : Nat) (late : Bool) : let g := (s.ch c).gen
    let u := ((s.genStart c t0 late).ch c).gen
    u.running = true ∧ u.cur = g.next ∧ u.next = none ∧ u.t0 = t0 ∧ u.m = g.rateM ∧ u.n = g.rateN ∧ u.j = 1
    ∧ u.curSlot = !g.curSlot := by
  dsimp only
  unfold State.genStart
  dsimp only
  generalize hu : s.modGen c _ = u
  have start := congrArg (fun x => (x.ch c).gen.play) hu
  rw [State.modGen_gen, GenSt.stick_play] at start
  obtain ⟨running, cur, next, slot, m, n, t, j, -⟩ := GenSt.fields_of_play start
  have after := (State.genAfter_play ((u.genBegin c 0 false t0).genCommit c t0) c t0).trans (State.genCommit_play ..)
  obtain ⟨running', cur', next', slot', m', n', t', j', -⟩ := GenSt.fields_of_play after
  obtain ⟨running'', cur'', next'', slot'', m'', n'', t'', j''⟩ := State.genBegin_run (s := u) (c := c) (e := 0) false t0
  exact ⟨running'.trans (running''.trans running.symm), cur'.trans (cur''.trans cur.symm), next'.trans (next''.trans next.symm),
    t'.trans (t''.trans t.symm), m'.trans (m''.trans m.symm), n'.trans (n''.trans n.symm), j'.trans (j''.trans (congrArg (· + 1) j.symm)),
    slot'.trans (slot''.trans slot.symm)⟩

/-! ### Samples (R191, R194) -/

/-- The generator has played the last sample of an entry without a wait and without a loop's end, and another entry of segment q follows. -/
structure GenSt.EntryDone (g : GenSt) (q : Seg) : Prop where
  cur  : g.cur = some q
  live : g.starving = false
  left : g.left = 0
  wait : g.entry.waitt = false
  loop : g.entry.le = false
  more : g.ent + 1 ≤ q.len

section
variable {s : State} {c : Ch} {q : Seg} (t : Nat)

/-- A sample inside an entry advances the phase. -/
theorem State.genSample_inside (hc : (s.ch c).gen.cur.isSome = true) (hs : (s.ch c).gen.starving = false) (hl : 0 < (s.ch c).gen.left) :
    let k := { (s.ch c).gen with left := (s.ch c).gen.left - 1 }.spin
    ((s.genSample c t).ch c).gen.play = (k.sampled (genShape k.entry k.theta).1).play := by
  obtain ⟨q, hq⟩ := Option.isSome_iff_exists.1 hc
  have eq : s.genSample c t = (s.modGen c fun g => { g with left := g.left - 1 }.spin.emit t).genCommit c t := by
    simp [State.genSample, hq, hs, hl]
  dsimp only
  rw [eq, State.genCommit_play, State.modGen_gen]
  exact GenSt.emit_play _ rfl t

/-- The generator has left an entry that ends no loop: no wait goes on. -/
def State.leaveEntry (s : State) (c : Ch) : State := s.modGen c fun g => { g with waiting := none, waitHit := none }

/-- At the next sample the entry that follows is due. -/
theorem State.genSample_next (h : (s.ch c).gen.EntryDone q) :
    s.genSample c t = ((s.leaveEntry c).genBegin c ((s.ch c).gen.ent + 1) false t).genCommit c t := by
  obtain ⟨hq, hs, hl, hw, he, hn⟩ := h
  have ends (p : Loops) : loopsEnd (s.ch c).gen.entry (s.ch c).gen.ent p = ((s.ch c).gen.ent + 1, false, p, false) := by
    simp [loopsEnd, he]
  have left : (s.modGen c fun g =>
      ({ g with ctr := (s.ch c).gen.ctr, beg := (s.ch c).gen.beg, waiting := none, waitHit := none }.stick 6 false)) = s.leaveEntry c :=
    State.modCh_congr s c _ _ rfl
  simp [State.genSample, hq, hs, hl, hw, ends, Nat.not_lt.2 hn, left]

theorem State.leaveEntry_gen : ((s.leaveEntry c).ch c).gen = { (s.ch c).gen with waiting := none, waitHit := none } :=
  State.modGen_gen ..

theorem State.leaveEntry_slotEntry (e : Nat) : (s.leaveEntry c).slotEntry c e = s.slotEntry c e := by
  have same : ((s.leaveEntry c).cl (clOf c)) = s.cl (clOf c) := rfl
  simp only [State.slotEntry, State.leaveEntry_gen, same]
  rfl

/-- The next entry, in its slot, begins. -/
theorem State.genSample_enters (h : (s.ch c).gen.EntryDone q)
    (hr : (s.ch c).gen.resident ((s.ch c).gen.ent + 1) = true) : let x := s.slotEntry c ((s.ch c).gen.ent + 1)
    ((s.genSample c t).ch c).gen.play =
      (((s.ch c).gen.enters ((s.ch c).gen.ent + 1) x).sampled (genShape x (x.phase * 2 ^ 32)).1).play := by
  have due : ((s.leaveEntry c).ch c).gen.resident ((s.ch c).gen.ent + 1) = true := by
    rw [State.leaveEntry_gen]
    exact hr
  have begins := State.genBegin_resident false t due
  dsimp only at begins ⊢
  rw [State.genSample_next t h, State.genCommit_play, begins, State.leaveEntry_slotEntry, State.leaveEntry_gen]
  rfl

/-- The next entry, not in its slot, starves the generator. -/
theorem State.genSample_starves (h : (s.ch c).gen.EntryDone q)
    (hr : (s.ch c).gen.resident ((s.ch c).gen.ent + 1) = false) : let u := ((s.genSample c t).ch c).gen
    u.j = (s.ch c).gen.j + 1 ∧ u.starving = true ∧ bit u.sticky 2 = true ∧ u.ent = (s.ch c).gen.ent + 1 := by
  have due : ((s.leaveEntry c).ch c).gen.resident ((s.ch c).gen.ent + 1) = false := by
    rw [State.leaveEntry_gen]
    exact hr
  obtain ⟨played, flag⟩ := State.genBegin_starved false t due
  obtain ⟨-, -, -, -, -, -, -, j, starving, ent, -⟩ := GenSt.fields_of_play played
  rw [State.leaveEntry_gen] at j flag
  dsimp only
  rw [State.genSample_next t h, State.genCommit_starving _ _ _ starving]
  exact ⟨j, starving, flag h.live, ent⟩

end

/-! ### The rows of a generator -/

section
variable {s : State} {tk : Nat} {c : Ch}

@[simp] theorem State.ctl_advance (o : Nat) : (s.advance tk).ctl c o = s.ctl c o := State.ctl_of_bare (State.bare_advance s tk) c o
@[simp] theorem State.rgOn_advance : (s.advance tk).rgOn c = s.rgOn c := by simp [State.rgOn]
@[simp] theorem State.sizeFor_advance : (s.advance tk).sizeFor c = s.sizeFor c := by simp [State.sizeFor]
@[simp] theorem State.startTick_advance : (s.advance tk).startTick c = s.startTick c := by simp [State.startTick]
@[simp] theorem State.loopFrom_advance (t : Nat) : (s.advance tk).loopFrom c t = s.loopFrom c t := by simp [State.loopFrom]
@[simp] theorem State.startAt_advance (a : Nat) : (s.advance tk).startAt c a = s.startAt c a := by
  rw [State.startAt, State.startAt, State.ctl_advance, State.startTick_advance, State.loopFrom_advance, State.ch_advance]

/-- The row of a generator whose start condition has come, NEXT being ready (R210). -/
theorem exec_generatorStart {a t : Nat} (ha : (s.ch c).gen.armedAt = some a) (hs : s.startAt c a = some (t, false))
    (ht : t ≤ (s.advance tk).now c) (hg : (s.ch c).genReady = true) (hr : s.rgOn c = true)
    (hz : (s.ch c).gen.nextSize = (s.sizeFor c).1) (hn : (s.ch c).gen.nextReady = true) : ∃ late,
    exec (.generatorStart tk c) s =
      .next (((s.advance tk).startSize c).genStart c (max t (s.ch c).gen.readyAt) late).settle := by
  have size := State.startSize_gen (s := s.advance tk) (c := c) (by simpa using hz)
  have ready : (((s.advance tk).startSize c).ch c).gen.nextReady = true := by
    rw [size, State.ch_advance]
    exact hn
  have readyAt : (((s.advance tk).startSize c).ch c).gen.readyAt = (s.ch c).gen.readyAt := by
    rw [size, State.ch_advance]
  refine ⟨decide (t < (s.ch c).gen.readyAt), ?_⟩
  show execGeneratorStart tk c s = _
  simp only [execGeneratorStart, State.eventAt, State.ch_advance, ha, Option.bind_some, State.startAt_advance, hs, hg, State.rgOn_advance,
    hr, Nat.not_lt.2 ht, ready, readyAt, Bool.not_true, decide_false, Bool.or_false, Bool.false_eq_true, if_false, Bool.false_or]

/-- The row of a generator that runs: its next sample, at its tick (R190). -/
theorem exec_generatorSample (hr : (s.ch c).gen.running = true) : let t := (s.ch c).gen.tickOf (s.ch c).gen.j
    exec (.generatorSample c) s = .next (((s.advanceDie (dieOfCh c) t).genSample c t).genAfter c t).settle := by
  show execGeneratorSample c s = _
  simp only [execGeneratorSample, hr, if_true]
  rfl

/-- What the sample of a running generator leaves. -/
theorem State.generatorSample_play (hr : (s.ch c).gen.running = true) : ∃ u t, let v := (s.advanceDie (dieOfCh c) t).genSample c t
    exec (.generatorSample c) s = .next u ∧ (u.ch c).gen.play = (v.ch c).gen.play ∧ (u.ch c).gen.sticky = (v.ch c).gen.sticky := by
  refine ⟨_, (s.ch c).gen.tickOf (s.ch c).gen.j, exec_generatorSample hr, ?_⟩
  rw [State.ch_settle]
  exact ⟨State.genAfter_play .., State.genAfter_sticky ..⟩

theorem State.slotEntry_advanceDie (d : Die) (t e : Nat) : (s.advanceDie d t).slotEntry c e = s.slotEntry c e := by
  simp [State.slotEntry, State.cl, State.advanceDie]

end

end Sys2Proof.Machine
end

section
/-! PROOFS. Fetch (7.4): the bytes that a block puts into its slot, and the obligation about the generator's events. -/

namespace Sys2Proof.Machine

/-! ### Bytes that are written -/

/-- Bytes written from an address up stand there, and every other byte is as it was. -/
theorem putBytes_memSetBytes (m : Memory) (a : Nat) (l : List Byte) : putBytes m (memSetBytes m a l) a l := by
  induction l generalizing m a with
  | nil =>
    intro b
    rw [if_neg (by simp), memSetBytes]
  | cons x l ih =>
    intro b
    rw [memSetBytes, ih (memSetByte m a x) (a + 1) b, List.length_cons]
    rcases lt_trichotomy b a with below | rfl | above
    · rw [if_neg (by omega), if_neg (by omega), memByte_memSetByte_ne m x (by omega)]
    · rw [if_neg (by omega), if_pos (by omega), memByte_memSetByte_self, Nat.sub_self, List.getD_cons_zero]
    · rw [memByte_memSetByte_ne m x (by omega), show b - a = b - (a + 1) + 1 by omega, List.getD_cons_succ]
      exact if_congr (by omega) rfl rfl

/-! ### A block (R197 to R199) -/

section
variable (s : State) (c : Ch)

@[simp] theorem State.logUe_gen (finder lch n : Nat) : ((s.logUe finder lch n).ch c).gen = (s.ch c).gen := by
  have e := congrArg Channel.gen (State.meter_ch (State.logUe_meters s finder lch n) c)
  exact e

@[simp] theorem State.logUe_clus (finder lch n : Nat) : (s.logUe finder lch n).clus = s.clus :=
  (State.clus_of_bare (State.bare_raiseHub ..)).trans rfl

/-- Where block `ab` of the slot's stream begins in table SRAM, with its physical slot p of S entries (R197, R260). -/
def blockOff (c : Ch) (p S ab : Nat) : Nat := slotOff c p S + ab * 256 % S * 16

/-- A block of a segment as acquisition memory holds it (R196). -/
def State.blockBytes (s : State) (q : Seg) (blk : Nat) : List Byte :=
  memBytes s.acq (16 * q.base + 4096 * blk) (16 * min 256 (q.len + 1 - 256 * blk))

variable (q : Seg) (next : Bool) (blk ab : Nat)

/-- Fetch notes an entry that it could not read, and no more of the generator moves (R199). -/
theorem State.fetchBlock_gen : ∃ x y, ((s.fetchBlock c q next blk ab).ch c).gen = { (s.ch c).gen with eccAt := x, eccNext := y } := by
  unfold State.fetchBlock
  dsimp only
  split
  · exact ⟨_, _, rfl⟩
  · rw [State.modGen_gen, State.logUe_gen, State.logUe_gen]
    split
    · exact ⟨_, _, rfl⟩
    · exact ⟨_, _, rfl⟩

theorem State.fetchBlock_tmem : let g := (s.ch c).gen
    let z := max 1 (if next then g.nextSize else g.size)
    putBytes (s.cl (clOf c)).tmem ((s.fetchBlock c q next blk ab).cl (clOf c)).tmem
      (blockOff c (if next then g.nextP else g.curP) z ab) (s.blockBytes q blk) := by
  dsimp only
  have cl (u : State) (f : GenSt → GenSt) (a b : Nat) :
      ((((u.logUe 2 c.1 a).logUe 2 c.1 b).modGen c f).cl (clOf c)) = u.cl (clOf c) := by
    simp [State.cl, State.modGen]
  unfold State.fetchBlock
  dsimp only
  split
  · rw [State.cl_modCl_self]
    exact putBytes_memSetBytes _ _ _
  · rw [cl, State.cl_modCl_self]
    exact putBytes_memSetBytes _ _ _

end

/-! ### The rows of Fetch -/

section
variable {s : State} {tk : Nat} {c : Ch} {q : Seg} {block : Nat}

/-- A block row leaves its bytes in the slot, and of the generator what it makes of the counts of loaded blocks (R197, R199). -/
theorem State.fetchRow {i : Instr} {next : Bool} {ab : Nat} {f : GenSt → GenSt}
    (he : exec i s = .next (((s.advance tk).fetchBlock c q next block ab).modGen c f).settle) : let g := (s.ch c).gen
    ∃ u x y, exec i s = .next u ∧ (u.ch c).gen = f { g with eccAt := x, eccNext := y }
      ∧ putBytes (s.cl (clOf c)).tmem (u.cl (clOf c)).tmem
        (blockOff c (if next then g.nextP else g.curP) (max 1 (if next then g.nextSize else g.size)) ab) (s.blockBytes q block) := by
  obtain ⟨x, y, gen⟩ := State.fetchBlock_gen (s.advance tk) c q next block ab
  refine ⟨_, x, y, he, ?gen, ?bytes⟩
  case gen => rw [State.ch_settle, State.modGen_gen, gen, State.ch_advance]
  case bytes =>
    have stands := State.fetchBlock_tmem (s.advance tk) c q next block ab
    have after : ((((s.advance tk).fetchBlock c q next block ab).modGen c f).settle.cl (clOf c)) =
        (((s.advance tk).fetchBlock c q next block ab).cl (clOf c)) := by
      rw [State.cl, State.clus_of_bare (State.bare_settle _)]
      rfl
    have before : (s.advance tk).cl (clOf c) = s.cl (clOf c) := by simp [State.cl]
    have bytes : (s.advance tk).blockBytes q block = s.blockBytes q block := by
      unfold State.advance
      split <;> rfl
    rw [after]
    rwa [State.ch_advance, bytes, before] at stands

/-- The block of NEXT that Fetch reads next (R196). -/
theorem exec_fetchNext (hq : (s.ch c).gen.next = some q) (hr : s.rgOn c = true) (hb : block = (s.ch c).gen.nextLoaded)
    (hn : block < q.need (s.ch c).gen.nextSize) : exec (.fetchBlockArrival tk c true block) s =
      .next (((s.advance tk).fetchBlock c q true block block).modGen c fun g =>
        let g := { g with nextLoaded := block + 1 }
        if g.nextReady then { g with readyAt := (s.advance tk).now c } else g).settle := by
  show execFetchBlockArrival tk c true block s = _
  simp only [execFetchBlockArrival, State.eventAt, State.ch_advance, State.rgOn_advance, hr, hq, Bool.not_true, Bool.false_eq_true,
    if_false, if_true, if_pos (And.intro hb hn)]

/-- The block of CUR that Fetch reads next (R197). -/
theorem exec_fetchCur (hq : (s.ch c).gen.cur = some q) (hr : s.rgOn c = true) (hw : (s.ch c).gen.wantsBlock q = true)
    (hb : block = (s.ch c).gen.curLoaded % q.blocks) : exec (.fetchBlockArrival tk c false block) s =
      .next (((s.advance tk).fetchBlock c q false block (s.ch c).gen.curLoaded).modGen c fun g =>
        { g with curLoaded := g.curLoaded + 1 }).settle := by
  show execFetchBlockArrival tk c false block s = _
  simp only [execFetchBlockArrival, State.eventAt, State.ch_advance, State.rgOn_advance, hr, hq, Bool.not_true, Bool.false_eq_true,
    if_false, if_pos (And.intro hw hb)]

end

/-- Settles O38: the start by the run that sample 0 begins (`State.genStart_run`), a sample by what is played (`State.genSample_inside`,
`State.genSample_enters`, `State.genSample_starves`), a block by the bytes that Fetch puts (`State.fetchRow`). -/
theorem generatorEvents : Obligations.GeneratorEvents := by
  unfold Obligations.GeneratorEvents
  intro s tk c block
  dsimp only
  refine ⟨fun a t ha hs ht hg hr hz hn => ?start, fun hr hc hs hl => ?inside,
    fun q hr hc hs hl hw hl' hn => ⟨fun hi => ?enters, fun hi => ?starves⟩, fun q hq hr hb hn => ?next, fun q hq hr hw hb => ?cur⟩
  case start =>
    obtain ⟨late, he⟩ := exec_generatorStart ha hs ht hg hr hz hn
    have run := State.genStart_run ((s.advance tk).startSize c) c (max t (s.ch c).gen.readyAt) late
    rw [State.startSize_gen (by simpa using hz), State.ch_advance] at run
    refine ⟨_, he, ?_⟩
    dsimp only at run ⊢
    rw [State.ch_settle]
    exact run
  case inside =>
    obtain ⟨u, t, he, played, -⟩ := State.generatorSample_play hr
    have sample := State.genSample_inside (s := s.advanceDie (dieOfCh c) t) (c := c) t
    rw [State.ch_advanceDie] at sample
    obtain ⟨-, -, -, -, -, -, -, j, -, ent, left, entry, theta, xs⟩ := GenSt.fields_of_play (played.trans (sample hc hs hl))
    exact ⟨u, he, j, left, theta, entry, ent, xs ▸ rfl⟩
  case enters =>
    obtain ⟨u, t, he, played, -⟩ := State.generatorSample_play hr
    have sample := State.genSample_enters (s := s.advanceDie (dieOfCh c) t) (c := c) (q := q) t
    rw [State.ch_advanceDie, State.slotEntry_advanceDie] at sample
    obtain ⟨-, -, -, -, -, -, -, j, -, ent, left, entry, theta, xs⟩ :=
      GenSt.fields_of_play (played.trans (sample ⟨hc, hs, hl, hw, hl', hn⟩ hi))
    exact ⟨u, he, j, ent, entry, left, theta, xs ▸ rfl⟩
  case starves =>
    obtain ⟨u, t, he, played, sticky⟩ := State.generatorSample_play hr
    have sample := State.genSample_starves (s := s.advanceDie (dieOfCh c) t) (c := c) (q := q) t
    rw [State.ch_advanceDie] at sample
    obtain ⟨j', starving', flag, ent'⟩ := sample ⟨hc, hs, hl, hw, hl', hn⟩ hi
    obtain ⟨-, -, -, -, -, -, -, j, starving, ent, -⟩ := GenSt.fields_of_play played
    exact ⟨u, he, j.trans j', starving.trans starving', sticky ▸ flag, ent.trans ent'⟩
  case next =>
    obtain ⟨u, x, y, he, gen, bytes⟩ := State.fetchRow (exec_fetchNext (tk := tk) hq hr hb hn)
    refine ⟨u, he, ?_, bytes⟩
    rw [gen]
    dsimp only
    split <;> rfl
  case cur =>
    obtain ⟨u, x, y, he, gen, bytes⟩ := State.fetchRow (exec_fetchCur (tk := tk) hq hr hw hb)
    exact ⟨u, he, gen ▸ rfl, bytes⟩

end Sys2Proof.Machine
end

section
/-! PROOFS. What an edge of a trigger line leaves before it meets the threads (8.2): the ticks of the dies, the lines, and the waits for a
line. -/

namespace Sys2Proof.Machine

/-! ### The waits for a line -/

/-- The kind of WAIT.TRIG. -/
def WaitKind.onLine : WaitKind → Bool
  | .trig _ _ => true
  | _ => false

/-- The wait of a thread, where it is one for a line. -/
def Thread.lineWait (h : Thread) : Option Wait := h.wait.filter fun w => w.kind.onLine

/-- The lines of a cluster, and the waits of its threads for a line. -/
def Cluster.watch (k : Cluster) : BitVec 32 × Vector (Option Wait) 9 := (k.lines, k.thr.map Thread.lineWait)

/-- The ticks of the dies, and what each cluster's lines and line waits are. -/
def State.watch (s : State) : Vector Nat 2 × Vector (BitVec 32 × Vector (Option Wait) 9) 12 := (s.dieTick, s.clus.map Cluster.watch)

theorem State.watch_eq {s u : State} (ht : u.dieTick = s.dieTick) (hc : u.clus = s.clus) : u.watch = s.watch := by
  rw [State.watch, ht, hc, State.watch]

/-- What two states of one watch share. -/
theorem State.fields_of_watch {s u : State} (h : u.watch = s.watch) : (∀ t, u.thNow t = s.thNow t)
    ∧ (∀ n, (u.cl n).lines = (s.cl n).lines)
    ∧ ∀ t w, (s.th t).wait = some w → w.kind.onLine = true → (u.th t).wait = some w := by
  obtain ⟨ticks, clusters⟩ := Prod.mk.inj h
  have cl (n : Cl) : (u.cl n).watch = (s.cl n).watch :=
    (vget_map ..).symm.trans ((congrArg (fun v => v.get n) clusters).trans (vget_map ..))
  refine ⟨fun t => congrArg (fun v : Vector Nat 2 => v.get (dieOfCl t.cl)) ticks, fun n => (Prod.mk.inj (cl n)).1, fun t w hw hk => ?_⟩
  have wait : (u.th t).lineWait = (s.th t).lineWait :=
    (vget_map ..).symm.trans ((congrArg (fun v => v.get t.k) (Prod.mk.inj (cl t.cl)).2).trans (vget_map ..))
  rw [Thread.lineWait, Thread.lineWait, hw, Option.filter_some, if_pos hk] at wait
  exact (Option.filter_eq_some_iff.1 wait).1

/-! ### Updates -/

@[simp] theorem State.modCh_watch (s : State) (c : Ch) (f : Channel → Channel) : (s.modCh c f).watch = s.watch := rfl
@[simp] theorem State.modRg_watch (s : State) (r : Rg) (f : Region → Region) : (s.modRg r f).watch = s.watch := rfl
@[simp] theorem State.mem_watch (s : State) (m : MemCtl) : { s with mem := m }.watch = s.watch := rfl
@[simp] theorem State.acq_watch (s : State) (m : List Host.Cell) : { s with acq := m }.watch = s.watch := rfl

theorem State.modTh_watch {s : State} {t : Thr} {f : Thread → Thread} (h : (f (s.th t)).lineWait = (s.th t).lineWait) :
    (s.modTh t f).watch = s.watch := by
  refine congrArg (Prod.mk s.dieTick) (vmap_set_of Cluster.watch s.clus t.cl _ ?_)
  exact congrArg (Prod.mk (s.cl t.cl).lines) (vmap_set_of Thread.lineWait (s.cl t.cl).thr t.k _ h)

@[simp] theorem State.ite_watch (p : Prop) [Decidable p] (s u : State) : (if p then s else u).watch = if p then s.watch else u.watch :=
  apply_ite ..

@[simp] theorem State.each_watch {α : Type} (l : List α) {f : α → State → State} (h : ∀ a s, (f a s).watch = s.watch) (s : State) :
    (s.each l f).watch = s.watch := State.each_frame State.watch l h s

section
variable (s : State) (c : Ch) (t b : Nat) (r : Rg) (v : Conv)

/-! ### Events -/

@[simp] theorem State.raiseAt_watch (n : Src) (code : Nat) (d : Word) : (s.raiseAt n code d t).watch = s.watch :=
  State.watch_eq (State.raiseAt_dieTick ..) (State.clus_of_bare (State.bare_raiseAt ..))
@[simp] theorem State.raiseHub_watch (h : Fin 112) (d : Word) : (s.raiseHub h d).watch = s.watch := State.raiseAt_watch ..

/-- An event bit ends no wait for a line (Table 9-11). -/
@[simp] theorem State.latchEvtAt_watch (u : Thr) (now : Nat) : (s.latchEvtAt u b now).watch = s.watch := by
  refine State.modTh_watch ?_
  dsimp only
  split
  next w hw =>
    split
    next mask rd hk =>
      split
      · simp [Thread.lineWait, hw, Option.filter, hk, WaitKind.onLine]
      · rfl
    · rfl
  · rfl
@[simp] theorem State.chEvAt_watch (e : ChEv) (d : Word) : (s.chEvAt c e d t).watch = s.watch := by
  unfold State.chEvAt
  dsimp only
  rw [State.raiseAt_watch]
  split
  · exact State.latchEvtAt_watch ..
  · rfl
@[simp] theorem State.chEv_watch (e : ChEv) (d : Word) : (s.chEv c e d).watch = s.watch := State.chEvAt_watch ..

/-! ### Converters and the calibration step -/

@[simp] theorem State.modConv_watch (f : ConvSt → ConvSt) : (s.modConv c v f).watch = s.watch := rfl
@[simp] theorem State.stepOff_watch : (s.stepOff r).watch = s.watch := by
  unfold State.stepOff
  rw [State.modRg_watch]
  split <;> rfl
@[simp] theorem State.stepDiscard_watch : (s.stepDiscard r).watch = s.watch := by simp [State.stepDiscard]
@[simp] theorem State.stepDisturb_watch : (s.stepDisturb c).watch = s.watch := by simp [State.stepDisturb]
@[simp] theorem State.stepUrgent_watch : (s.stepUrgent c v).watch = s.watch := by simp [State.stepUrgent]
@[simp] theorem State.dropUrgent_watch : (s.dropUrgent c v).watch = s.watch := by simp [State.dropUrgent]
@[simp] theorem State.acceptUrgent_watch : (s.acceptUrgent c v t).watch = s.watch := by simp [State.acceptUrgent]
@[simp] theorem State.passStart_watch : (s.passStart c v t).watch = s.watch := by simp [State.passStart]

/-! ### Comparators and the pulse -/

@[simp] theorem State.modTrip_watch (f : TripSt → TripSt) : (s.modTrip c f).watch = s.watch := rfl
@[simp] theorem State.refreshGates_watch : (s.refreshGates c).watch = s.watch := rfl
@[simp] theorem State.latchTrip_watch (m : Cmp) : (s.latchTrip c m t).watch = s.watch := by simp [State.latchTrip]
@[simp] theorem State.evalCmp_watch (m : Cmp) : (s.evalCmp c m t).watch = s.watch := by simp [State.evalCmp]
@[simp] theorem State.evalTrip_watch : (s.evalTrip c t).watch = s.watch := by simp [State.evalTrip]
@[simp] theorem State.openWin_watch (i : Fin 5) (len : Nat) (mask : BitVec 4) : (s.openWin c i t len mask).watch = s.watch := by
  simp [State.openWin]
@[simp] theorem State.pulseEdgeFx_watch (act : Bool) : (s.pulseEdgeFx c act t).watch = s.watch := by simp [State.pulseEdgeFx]
@[simp] theorem State.pulseStart_watch : (s.pulseStart c t).watch = s.watch := by simp [State.pulseStart]
@[simp] theorem State.pulseTrigger_watch (kind : BitVec 2) : (s.pulseTrigger c kind t).watch = s.watch := by simp [State.pulseTrigger]

/-! ### Capture -/

@[simp] theorem State.modCap_watch (f : CapSt → CapSt) : (s.modCap c f).watch = s.watch := rfl
@[simp] theorem State.modRec_watch (q : Nat) (f : Rec → Rec) : (s.modRec c q f).watch = s.watch := rfl
@[simp] theorem State.logUe_watch (finder lch : Nat) : (s.logUe finder lch b).watch = s.watch := by
  refine State.watch_eq ?_ (State.logUe_clus ..)
  simp [State.logUe]
@[simp] theorem State.acqPut_watch (lch base size tot : Nat) (bs : List Byte) : (s.acqPut lch base size tot bs).watch = s.watch := by
  unfold State.acqPut
  dsimp only
  split
  · rfl
  · refine (State.each_watch _ (fun b s => ?_) _).trans rfl
    split
    · rfl
    · exact (State.logUe_watch _ b 6 lch).trans rfl
@[simp] theorem State.side_watch (q : Nat) (bs : List Byte) : (s.side c q bs).watch = s.watch := by simp [State.side, State.sideWrite]
@[simp] theorem State.flushGap_watch (q : Nat) (x : Bool) : (s.flushGap c q x).watch = s.watch := by
  unfold State.flushGap
  split <;> simp
@[simp] theorem State.flushRng_watch (q : Nat) (x : Bool) (i : Nat) : (s.flushRng c q x i).watch = s.watch := by
  unfold State.flushRng
  split <;> simp
@[simp] theorem State.gapTo_watch (q : Nat) (x : Bool) (i cause : Nat) : (s.gapTo c q x i cause).watch = s.watch := by
  unfold State.gapTo
  split <;> simp
@[simp] theorem State.recSample_watch (q : Nat) (p : Samp) : (s.recSample c q p).watch = s.watch := by
  unfold State.recSample
  split <;> simp
@[simp] theorem State.placeRec_watch (q : Rec) : (s.placeRec c q).watch = s.watch := by simp [State.placeRec]
@[simp] theorem State.takeHist_watch : (s.takeHist c).watch = s.watch := by
  unfold State.takeHist
  split <;> simp
@[simp] theorem State.openRec_watch (q : Rec) : (s.openRec c q t).watch = s.watch := by simp [State.openRec]
@[simp] theorem State.openMark_watch (first last : Nat) : (s.openMark c first last t).watch = s.watch := by simp [State.openMark]
@[simp] theorem State.judge_watch : (s.judge c t).watch = s.watch := by simp [State.judge]

/-! ### The blocks that take a line (R217) -/

@[simp] theorem State.edgeUrgent_watch (i : Nat) : (s.edgeUrgent c v i).watch = s.watch := by simp [State.edgeUrgent]
@[simp] theorem State.edgePass_watch (i : Nat) : (s.edgePass c v i).watch = s.watch := by simp [State.edgePass]
@[simp] theorem State.edgeGen_watch (i : Nat) : (s.edgeGen c i).watch = s.watch := rfl

/-- No block of a channel moves a line or ends a wait for one. -/
@[simp] theorem State.edgeCh_watch (i te : Nat) : (s.edgeCh c i te).watch = s.watch := by simp [State.edgeCh]

end

end Sys2Proof.Machine
end

section
/-! PROOFS. Sources of trigger lines and the lines themselves (8.1, 8.2, 9.3): markers, TRG pins, cluster timers, and the edge that meets a
WAIT.TRIG. -/

namespace Sys2Proof.Machine

/-! ### One bit of a level word -/

/-- The word with bit i at the level `on`. -/
def putLevel {n : Nat} (v : BitVec n) (i : Nat) (on : Bool) : BitVec n :=
  if on then v ||| BitVec.ofNat n (2 ^ i) else v &&& ~~~BitVec.ofNat n (2 ^ i)

theorem bit_putLevel {n i k : Nat} (v : BitVec n) (on : Bool) (hi : i < n) (hk : k < n) :
    bit (putLevel v i on) k = if k = i then on else bit v k := by
  by_cases e : k = i
  · subst e
    rw [if_pos rfl]
    cases on
    · exact bit_and_not_pow hi v
    · exact bit_or_pow hi v
  · have other : (BitVec.ofNat n (2 ^ i)).getLsbD k = false := by
      rw [BitVec.getLsbD_ofNat, Nat.testBit_two_pow_of_ne (Ne.symm e), Bool.and_false]
    rw [if_neg e, putLevel]
    cases on
    · rw [if_neg Bool.false_ne_true, bit, BitVec.getLsbD_and, BitVec.getLsbD_not, other, decide_eq_true hk, Bool.not_false, Bool.and_self,
        Bool.and_true, bit]
    · rw [if_pos rfl, bit, BitVec.getLsbD_or, other, Bool.or_false, bit]

/-! ### Markers (R208) -/

theorem eraseFirst_length {α : Type} {f : α → Bool} {l : List α} {a : α} (h : l.find? f = some a) :
    (eraseFirst f l).length + 1 = l.length := by
  have mem := List.mem_of_find?_eq_some h
  have pos := List.length_pos_of_mem mem
  rw [eraseFirst_eq_eraseP, List.length_eraseP_of_mem mem (List.find?_some h)]
  omega

theorem b1_other (w : Bool) : b1 w < 2 ∧ 1 - b1 w < 2 ∧ 1 - b1 w ≠ b1 w := by cases w <;> decide

/-- The row of a marker's level that is due. -/
theorem exec_markerEdge {s : State} {tk : Nat} {c : Ch} {m1 level : Bool} {t : Nat}
    (hp : ((s.ch c).gen.mkPend.find? fun p => p.2.1 == m1) = some (t, m1, level)) (ht : t ≤ (s.advance tk).now c) :
    exec (.markerEdge tk c m1 level) s = .next ((s.advance tk).modGen c fun g =>
      { g with mkPend := eraseFirst (fun p => p.2.1 == m1) g.mkPend }.setMk m1 level).settle := by
  show execMarkerEdge tk c m1 level s = _
  simp only [execMarkerEdge, State.eventAt, State.ch_advance, hp]
  rw [if_pos ⟨ht, trivial⟩]

/-! ### TRG pins (R219, R220) -/

/-- The edge count of a pin after an edge (R220). -/
def trgCount (n : Nat) (rising fast : Bool) : Nat :=
  if rising then (if fast then n else satAdd 0xFFFFFFFF n 1) else if fast && decide (n < 0xFFFFFFFF) then n - 1 else n

/-- A pin takes a new level and its count; OVERRANGE sets where the counter cannot follow, or stands at its end. -/
def State.takeTrg (s : State) (pin : Fin 16) (rising fast : Bool) : State :=
  let n := trgCount (s.trgCnt.get pin) rising fast
  { s with
    trgLvl := putLevel s.trgLvl pin.1 rising, trgCnt := s.trgCnt.set pin.1 n pin.2
    trgCfg := if fast || decide (n = 0xFFFFFFFF) then s.trgCfg.set pin.1 (s.trgCfg.get pin ||| 0x1000000) pin.2 else s.trgCfg }

theorem exec_trgEdge {s : State} {tk : Nat} {pin : Fin 16} {rising fast : Bool} (h : bit s.trgLvl pin.1 ≠ rising) :
    exec (.trgEdge tk pin rising fast) s = .next ((s.advance tk).takeTrg pin rising fast).settle := by
  have lvl : (s.advance tk).trgLvl = s.trgLvl := by
    unfold State.advance
    split <;> rfl
  show execTrgEdge tk pin rising fast s = _
  simp only [execTrgEdge, State.eventAt, lvl, beq_iff_eq, if_neg h]
  simp only [State.takeTrg, lvl]
  rfl

theorem State.bare_takeTrg (s : State) (tk : Nat) (pin : Fin 16) (rising fast : Bool) :
    ((s.advance tk).takeTrg pin rising fast).bare = (s.takeTrg pin rising fast).bare := by
  unfold State.advance
  split <;> rfl

section
variable (s : State) (pin : Fin 16) (rising fast : Bool)

theorem State.takeTrg_level (k : Fin 16) :
    bit (s.takeTrg pin rising fast).trgLvl k.1 = if k = pin then rising else bit s.trgLvl k.1 :=
  (bit_putLevel s.trgLvl rising pin.2 k.2).trans (if_congr Fin.ext_iff.symm rfl rfl)

theorem State.takeTrg_count : (s.takeTrg pin rising fast).trgCnt.get pin = trgCount (s.trgCnt.get pin) rising fast :=
  (vget_set ..).trans (if_pos rfl)

/-- Of another pin nothing moves. -/
theorem State.takeTrg_other {k : Fin 16} (h : k ≠ pin) :
    (s.takeTrg pin rising fast).trgCnt.get k = s.trgCnt.get k ∧ (s.takeTrg pin rising fast).trgCfg.get k = s.trgCfg.get k := by
  refine ⟨(vget_set ..).trans (if_neg h.symm), ?_⟩
  unfold State.takeTrg
  dsimp only
  split
  · exact (vget_set ..).trans (if_neg h.symm)
  · rfl

theorem State.takeTrg_kept (hf : fast = false) (hn : trgCount (s.trgCnt.get pin) rising fast ≠ 0xFFFFFFFF) :
    (s.takeTrg pin rising fast).trgCfg = s.trgCfg :=
  if_neg (by rw [hf] at hn ⊢; simpa using hn)

/-- OVERRANGE is bit 24 of the pin's configuration. -/
theorem State.takeTrg_overrange (hf : fast = true) : bit ((s.takeTrg pin rising fast).trgCfg.get pin) 24 = true := by
  have set : (s.takeTrg pin rising fast).trgCfg = s.trgCfg.set pin.1 (s.trgCfg.get pin ||| 0x1000000) pin.2 :=
    if_pos (by rw [hf, Bool.true_or])
  rw [set, vget_set, if_pos rfl]
  have ovr : (0x1000000 : Word).getLsbD 24 = true := by decide
  rw [bit, BitVec.getLsbD_or, ovr, Bool.or_true]

end

theorem State.trg_of_bare {s u : State} (h : u.bare = s.bare) : u.trgLvl = s.trgLvl ∧ u.trgCnt = s.trgCnt ∧ u.trgCfg = s.trgCfg := by
  have lvl := congrArg State.trgLvl h
  have cnt := congrArg State.trgCnt h
  have cfg := congrArg State.trgCfg h
  exact ⟨lvl, cnt, cfg⟩

theorem State.cl_of_bare {s u : State} (h : u.bare = s.bare) (n : Cl) : u.cl n = s.cl n := by
  rw [State.cl, State.clus_of_bare h, State.cl]

/-! ### Cluster timers (R259) -/

theorem State.modCl_congr (s : State) (n : Cl) {f g : Cluster → Cluster} (e : f (s.cl n) = g (s.cl n)) : s.modCl n f = s.modCl n g := by
  have e' : f (s.clus.get n) = g (s.clus.get n) := e
  simp only [State.modCl, e']

/-- What its timer j makes of cluster n at its expiry of tick t: it is set again by its period, or stops. -/
def State.expire (s : State) (n : Cl) (j : Fin 8) (t : Nat) (k : Cluster) : Cluster :=
  let o := 0x4080 + 8 * j.1
  let cfg := memWord (s.cl n).tmem o
  if bit cfg 30 then { k with tmr := k.tmr.set j.1 (some (t + s.tmrPer n j.1)) j.2 }
  else { k with tmr := k.tmr.set j.1 none j.2, tmem := memSetWord k.tmem o (cfg &&& 0x7FFFFFFF) }

theorem exec_clusterTimerExpiry {s : State} {n : Cl} {j : Fin 8} {t : Nat} (h : (s.cl n).tmr.get j = some t) :
    exec (.clusterTimerExpiry n j) s = .next ((s.advanceDie (dieOfCl n) t).modCl n (s.expire n j t)).settle := by
  have cl : (s.advanceDie (dieOfCl n) t).cl n = s.cl n := by simp [State.cl, State.advanceDie]
  have per : (s.advanceDie (dieOfCl n) t).tmrPer n j.1 = s.tmrPer n j.1 := by rw [State.tmrPer, cl, State.tmrPer]
  show execClusterTimerExpiry n j s = _
  simp only [execClusterTimerExpiry, h, State.dueAt, cl, per]
  split
  next periodic => exact congrArg (fun x => Host.Outcome.next (State.settle x)) (State.modCl_congr _ n (if_pos periodic).symm)
  next single => exact congrArg (fun x => Host.Outcome.next (State.settle x)) (State.modCl_congr _ n (if_neg single).symm)

/-! ### A line that moves (R215) -/

/-- Line i of the cluster takes a level. -/
def State.putLine (s : State) (n : Cl) (i : Fin 32) (level : Bool) : State :=
  s.modCl n fun k => { k with lines := putLevel k.lines i.1 level }

/-- A line that moves moves no thread. -/
theorem State.putLine_th (s : State) (n : Cl) (i : Fin 32) (level : Bool) (t : Thr) : (s.putLine n i level).th t = s.th t := by
  unfold State.putLine State.th
  by_cases e : t.cl = n
  · subst e
    rw [State.cl_modCl_self]
  · rw [State.cl_modCl_ne _ _ e]

/-- The edge meets every block of the channels, every thread and the Pack bus (R217). -/
def State.meetEdge (s : State) (n : Cl) (i : Fin 32) (te : Nat) : State :=
  ((s.each (chsOfCl n) fun c s => s.edgeCh c i.1 te).each (thrsOf n) fun t s => s.edgeThread t i.1).edgePack n i.1 te

theorem exec_triggerLineEdge {s : State} {tk : Nat} {n : Cl} {i : Fin 32} {level : Bool} {te : Nat}
    (hr : (s.rg (rgOfCl n)).on = true) (hd : s.lineDriven n i.1 = true) (hl : bit (s.cl n).lines i.1 ≠ level) : ∃ te',
    exec (.triggerLineEdge tk n i level te) s = .next (if senseTakes (s.tline n i.1) level
      then ((s.advance tk).putLine n i level).meetEdge n i te' else (s.advance tk).putLine n i level).settle := by
  have cl : (s.advance tk).cl n = s.cl n := by simp [State.cl]
  have driven : (s.advance tk).lineDriven n i.1 = true := by
    rw [← hd]
    unfold State.advance
    split <;> rfl
  have tline : ((s.advance tk).putLine n i level).tline n i.1 = s.tline n i.1 := by
    rw [State.tline, State.putLine, State.cl_modCl_self, cl, State.tline]
  refine ⟨min te ((s.advance tk).dt (dieOfCl n)), ?_⟩
  show execTriggerLineEdge tk n i level te s = _
  simp only [execTriggerLineEdge, State.eventAt, State.rg_advance, hr, driven, cl, Bool.not_true, Bool.false_or, beq_iff_eq, hl,
    if_false]
  show Host.Outcome.next (State.settle (if (!senseTakes (((s.advance tk).putLine n i level).tline n i.1) level) = true
    then (s.advance tk).putLine n i level else ((s.advance tk).putLine n i level).meetEdge n i _)) = _
  rw [tline]
  cases senseTakes (s.tline n i.1) level <;> rfl

/-! ### The threads -/

section
variable (s : State) (t : Thr) (i : Nat)

theorem State.edgeThread_ne {u : Thr} (h : u ≠ t) : (s.edgeThread t i).th u = s.th u := State.th_modTh_ne _ _ h

/-- A wait that has its condition keeps it. -/
theorem State.edgeThread_keeps {u : Thr} {w : Wait} (hw : (s.th u).wait = some w) (hh : w.hit.isSome = true) :
    ((s.edgeThread t i).th u).wait = some w := by
  by_cases e : u = t
  · subst e
    rw [State.edgeThread, State.th_modTh_self]
    have taken : w.hit.isNone = false := by simpa using hh
    simp only [hw, taken, Bool.and_false, Bool.false_eq_true, if_false]
    split <;> exact hw
  · rw [State.edgeThread_ne s t i e, hw]

/-- A WAIT.TRIG on the line has its condition, one tick after the arrival (R264). -/
theorem State.edgeThread_hits {w : Wait} {l : BitVec 5} {rd : BitVec 4} (hw : (s.th t).wait = some w) (hk : w.kind = .trig l rd)
    (hl : l.toNat = i) (hh : w.hit = none) :
    ((s.edgeThread t i).th t).wait = some { w with hit := some (s.thNow t + 1) } := by
  rw [State.edgeThread, State.th_modTh_self]
  simp [hw, hk, hl, hh]

theorem State.edgeThread_lines (n : Cl) : ((s.edgeThread t i).cl n).lines = (s.cl n).lines := by
  unfold State.edgeThread State.modTh
  by_cases e : n = t.cl
  · subst e
    rw [State.cl_modCl_self]
  · rw [State.cl_modCl_ne _ _ e]

end

theorem State.each_edgeThread_keeps (l : List Thr) (i : Nat) {s : State} {t : Thr} {w : Wait} (hw : (s.th t).wait = some w)
    (hh : w.hit.isSome = true) : ((s.each l fun t s => s.edgeThread t i).th t).wait = some w := by
  induction l generalizing s with
  | nil => exact hw
  | cons u l ih => exact ih (State.edgeThread_keeps s u i hw hh)

/-- Among the threads of a list, each is met. -/
theorem State.each_edgeThread_hits (l : List Thr) (i : Nat) {s : State} {t : Thr} {w : Wait} {a : BitVec 5} {rd : BitVec 4} (ht : t ∈ l)
    (hw : (s.th t).wait = some w) (hk : w.kind = .trig a rd) (ha : a.toNat = i) (hh : w.hit = none) :
    ((s.each l fun t s => s.edgeThread t i).th t).wait = some { w with hit := some (s.thNow t + 1) } := by
  induction l generalizing s with
  | nil => exact absurd ht List.not_mem_nil
  | cons u l ih =>
    show (((s.edgeThread u i).each l fun t s => s.edgeThread t i).th t).wait = _
    by_cases e : t = u
    · subst e
      exact State.each_edgeThread_keeps l i (State.edgeThread_hits s t i hw hk ha hh) rfl
    · exact ih (s := s.edgeThread u i) ((List.mem_cons.1 ht).resolve_left e) (by rwa [State.edgeThread_ne s u i e])

theorem State.edgePack_cl (s : State) (n : Cl) (i te : Nat) (m : Cl) : (s.edgePack n i te).cl m = s.cl m := rfl

theorem State.edgePack_th (s : State) (n : Cl) (i te : Nat) (t : Thr) : (s.edgePack n i te).th t = s.th t := rfl

/-- An edge that is met moves no line. -/
theorem State.meetEdge_lines (s : State) (n : Cl) (i : Fin 32) (te : Nat) (m : Cl) : ((s.meetEdge n i te).cl m).lines = (s.cl m).lines := by
  obtain ⟨-, lines, -⟩ := State.fields_of_watch (State.each_watch (chsOfCl n) (fun c s => State.edgeCh_watch s c i.1 te) s)
  rw [State.meetEdge, State.edgePack_cl]
  exact (State.each_frame (fun s => (s.cl m).lines) (thrsOf n) (fun t s => State.edgeThread_lines s t i.1 m) _).trans (lines m)

theorem State.meetEdge_hits {s : State} {n : Cl} {i : Fin 32} (te : Nat) {t : Thr} {w : Wait} {l : BitVec 5} {rd : BitVec 4} (ht : t.cl = n)
    (hw : (s.th t).wait = some w) (hk : w.kind = .trig l rd) (hl : l.toNat = i.1) (hh : w.hit = none) :
    ((s.meetEdge n i te).th t).wait = some { w with hit := some (s.thNow t + 1) } := by
  subst ht
  obtain ⟨now, -, waits⟩ := State.fields_of_watch (State.each_watch (chsOfCl t.cl) (fun c s => State.edgeCh_watch s c i.1 te) s)
  rw [← now t, State.meetEdge, State.edgePack_th]
  exact State.each_edgeThread_hits (thrsOf t.cl) i.1 (mem_thrsOf t) (waits t w hw (by rw [hk]; rfl)) hk hl hh

/-! ### The rows -/

/-- Settles O37: a marker and a pin by the bit that they move (`bit_putLevel`), a timer by its expiry, a line by the edge that the threads
of its cluster meet (`State.meetEdge_lines`, `State.meetEdge_hits`). -/
theorem lineRows : Obligations.LineRows := by
  unfold Obligations.LineRows
  intro s tk c n i j pin m1 level fast te
  dsimp only
  refine ⟨fun t hp ht => ?marker, fun hl => ?pin, fun t ht => ?timer, fun hr hd hl => ?line⟩
  case marker =>
    refine ⟨_, exec_markerEdge hp ht, State.onlyCh_event .., ?_⟩
    obtain ⟨lt, lt', ne⟩ := b1_other m1
    rw [State.ch_settle, State.modGen_gen, State.ch_advance]
    exact ⟨(bit_putLevel _ level lt lt).trans (if_pos rfl), (bit_putLevel _ level lt lt').trans (if_neg ne), eraseFirst_length hp⟩
  case pin =>
    have bare := (State.bare_settle ((s.advance tk).takeTrg pin level fast)).trans (State.bare_takeTrg s tk pin level fast)
    obtain ⟨lvl, cnt, cfg⟩ := State.trg_of_bare bare
    refine State.ends_of (exec_trgEdge hl) ?_
    rw [lvl, cnt, cfg]
    refine ⟨bare, State.takeTrg_level s pin level fast, fun k hk => State.takeTrg_other s pin level fast hk, fun hf => ?count,
      fun hf hn => ?kept, State.takeTrg_overrange s pin level fast⟩
    case count =>
      rw [State.takeTrg_count, hf]
      rfl
    case kept =>
      rw [State.takeTrg_kept s pin level fast hf]
      subst hf
      cases level <;> simp [trgCount, satAdd] <;> omega
  case timer =>
    refine State.ends_of (exec_clusterTimerExpiry ht) ?_
    rw [State.bare_settle, State.bare_modCl, State.bare_advanceDie, ← State.bare_modCl]
    rfl
  case line =>
    obtain ⟨te', he⟩ := exec_triggerLineEdge (tk := tk) (te := te) hr hd hl
    have put : bit (((s.advance tk).putLine n i level).cl n).lines i.1 = level := by
      rw [State.putLine, State.cl_modCl_self]
      exact (bit_putLevel _ level i.2 i.2).trans (if_pos rfl)
    refine ⟨_, he, ?_⟩
    cases senseTakes (s.tline n i.1) level with
    | false =>
      rw [if_neg Bool.false_ne_true, State.cl_of_bare (State.bare_settle _)]
      refine ⟨put, fun _ => ?_, fun h => absurd h Bool.false_ne_true⟩
      rw [State.bare_settle, State.putLine, State.bare_modCl, State.bare_advance, ← State.bare_modCl, State.cl_modCl_self]
      exact congrArg State.bare (State.modCl_congr s n (by simp [State.cl]))
    | true =>
      rw [if_pos rfl, State.cl_of_bare (State.bare_settle _)]
      refine ⟨by rw [State.meetEdge_lines, put], fun h => absurd h.symm Bool.false_ne_true, fun _ t w rd l ht hw hk hl hh => ?_⟩
      rw [State.th_of_bare (State.bare_settle _)]
      have wait : (((s.advance tk).putLine n i level).th t).wait = some w := by
        rw [State.putLine_th, ← hw]
        simp [State.th, State.cl]
      exact State.meetEdge_hits te' ht wait hk hl hh

end Sys2Proof.Machine
end

section
/-! PROOFS. The acquisition instructions (8.4, 10.9, Table 8-7): ARM, REC and STRM by what their operation answers outside Off. -/

namespace Sys2Proof.Machine

theorem State.modCap_cap (s : State) (c : Ch) (f : CapSt → CapSt) : ((s.modCap c f).ch c).cap = f (s.ch c).cap :=
  congrArg Channel.cap (State.ch_modCh_self ..)

/-! ### ARM -/

/-- ARM outside Off: Parked refuses, then a mode without CAPT; else the unit is armed with its counts anew, and with neither a record nor a
mark open the fill starts at the next boundary (R224 to R226). -/
theorem cmdArm_on {line : BitVec 5} {c : Ch} {s : State} (ho : ((s.tripFirst c).ch c).st ≠ .off) : let u := s.tripFirst c
    let h := u.ch c
    ∃ x, cmdArm line c s = (if h.st = .parked then (u, 0x20) else if mCAPT h.mode = false then (u, 0x21) else (x, 0))
      ∧ let k := (x.ch c).cap
        k.armed = true ∧ k.line = line ∧ k.opened = 0 ∧ k.accSince = false
        ∧ (h.cap.cur = none → h.cap.marks = [] → k.fill = u.bnd c) ∧ k.cur = h.cap.cur := by
  refine ⟨_, (if_neg ho).trans (if_congr Iff.rfl rfl (if_congr (iff_of_eq (Bool.not_eq_true' _)) rfl rfl)), ?_⟩
  rw [State.modCap_cap]
  refine ⟨rfl, rfl, rfl, rfl, fun hc hm => if_neg ?_, rfl⟩
  simp [hc, hm]

/-! ### REC and STRM -/

theorem len32_pos (v : Word) : 0 < len32 v := by
  unfold len32
  split
  · decide
  next h => bv_omega

/-- REC outside Off, in the order in which it judges (R224, R303). -/
theorem cmdRec_on {p l n : Word} {c : Ch} {s : State} (ho : ((s.tripFirst c).ch c).st ≠ .off) : let u := s.tripFirst c
    cmdRec p l n c s = if len32 l ≤ p.toNat ∨ (u.dring c).2 < maxArea (len32 l) then (u, 0x22)
      else if (u.ch c).cap.armed = true then (u, 0x23)
      else (u.modCap c fun k => { k with pre := p.toNat, lenm1 := len32 l - 1, count := n.toNat }, 0) := by
  have long : len32 l - 1 < p.toNat ↔ len32 l ≤ p.toNat := by
    have := len32_pos l
    omega
  exact (if_neg ho).trans (if_congr (or_congr_left long) rfl rfl)

/-- STRM outside Off. -/
theorem cmdStrm_on {v : Word} {c : Ch} {s : State} (ho : ((s.tripFirst c).ch c).st ≠ .off) : let u := s.tripFirst c
    cmdStrm v c s = if (u.ch c).cap.streaming = true then (u, 0x23)
      else if (u.dring c).2 < maxArea (len32 v) then (u, 0x22)
      else (u.modCap c fun k => { k with chunkm1 := len32 v - 1 }, 0) :=
  if_neg ho

/-! ### The rows -/

/-- Settles O22: each instruction by what its operation answers outside Off (`cmdArm_on`, `cmdRec_on`, `cmdStrm_on`). -/
theorem acquisitionRows : Obligations.AcquisitionRows := by
  unfold Obligations.AcquisitionRows
  intro s t w c hc
  dsimp only
  refine ⟨fun hi ho => ?arm, fun hi ho => ?armOff, fun hi ho => ?record, fun hi ho => ?stream⟩
  case arm =>
    obtain ⟨x, eq, armed, line, opened, acc, fill, cur⟩ := cmdArm_on (line := (f17 w).extractLsb' 0 5) ho
    have row {y : State} {n : Nat} (h : cmdArm ((f17 w).extractLsb' 0 5) c (s.atIssue t w) = (y, n)) :
        s.chRow (.arm t w) t w (BitVec.ofNat 8 n) fun _ => y :=
      State.chRow_of_issueCh (f := fun c s => cmdArm ((f17 w).extractLsb' 0 5) c s) hi hc rfl h
    refine ⟨fun hp => row (eq.trans (if_pos hp)), fun hp hm => row (eq.trans ((if_neg hp).trans (if_pos hm))), fun hp hm => ?_⟩
    refine State.ends_of_chRow (row (eq.trans ((if_neg hp).trans (if_neg (ne_false_of_eq_true hm))))) fun u hu hl => ?_
    rw [State.ch_of_chan hu, line]
    exact ⟨hl, armed, BitVec.extractLsb'_toNat .., opened, acc, fill, cur⟩
  case armOff =>
    have row := State.chRow_of_issueCh (f := fun c s => cmdArmOff c s) hi hc rfl (if_neg ho)
    refine State.ends_of_chRow row fun u hu hl => ?_
    rw [State.ch_of_chan hu, State.disarm, State.modCap_cap]
    exact ⟨hl, rfl, rfl⟩
  case record =>
    have eq := cmdRec_on (p := s.g t w.ra) (l := s.g t (w.ra + 1)) (n := s.g t (w.ra + 2)) ho
    have row {y : State} {n : Nat}
        (h : cmdRec (s.g t w.ra) (s.g t (w.ra + 1)) (s.g t (w.ra + 2)) c (s.atIssue t w) = (y, n)) :
        s.chRow (.recSet t w) t w (BitVec.ofNat 8 n) fun _ => y :=
      State.chRow_of_issueCh (f := fun c s => cmdRec (s.g t w.ra) (s.g t (w.ra + 1)) (s.g t (w.ra + 2)) c s) hi hc rfl
        (by simpa only [State.g_atIssue] using h)
    refine ⟨fun hb => row (eq.trans (if_pos hb)), fun hp hr ha => ?armed, fun hp hr ha => ?taken⟩
    case armed => exact row (eq.trans ((if_neg (not_or.2 ⟨not_le.2 hp, not_lt.2 hr⟩)).trans (if_pos ha)))
    case taken =>
      exact row (eq.trans ((if_neg (not_or.2 ⟨not_le.2 hp, not_lt.2 hr⟩)).trans (if_neg (ne_true_of_eq_false ha))))
  case stream =>
    have eq := cmdStrm_on (v := s.opV t w) ho
    have row {y : State} {n : Nat} (h : cmdStrm (s.opV t w) c (s.atIssue t w) = (y, n)) :
        s.chRow (.strm t w) t w (BitVec.ofNat 8 n) fun _ => y :=
      State.chRow_of_issueCh (f := fun c s => cmdStrm (s.opV t w) c s) hi hc rfl (by rwa [State.opV_atIssue])
    refine ⟨fun hs => row (eq.trans (if_pos hs)), fun hs hr => ?short, fun hs hr => ?taken⟩
    case short => exact row (eq.trans ((if_neg (ne_true_of_eq_false hs)).trans (if_pos hr)))
    case taken => exact row (eq.trans ((if_neg (ne_true_of_eq_false hs)).trans (if_neg (not_lt.2 hr))))

end Sys2Proof.Machine
end

section
/-! PROOFS. What acquisition memory, side items and lanes leave of a capture unit (8.4 to 8.7): its stream, its marks and the records that
wait for their final headers. -/

namespace Sys2Proof.Machine

/-! ### Records by their sequence numbers -/

/-- g reads of the records of a capture unit nothing but their sequence numbers. -/
def SeqOnly {β : Type} (g : CapSt → β) : Prop := ∀ k f, (∀ r : Rec, (f r).seq = r.seq) → g (k.mapRecs f) = g k

/-- How far a capture unit has come: the chunk of its stream, its marks, and by their sequence numbers the records that wait for their
final headers. -/
def CapSt.span (k : CapSt) : List Nat × CapSt :=
  (k.closing.map Rec.seq, { CapSt.reset with
    streaming := k.streaming, chunkNo := k.chunkNo, chunkLast := k.chunkLast, marks := k.marks, doneMark := k.doneMark })

/-- What two capture units that have come as far share. -/
theorem CapSt.fields_of_span {x y : CapSt} (h : x.span = y.span) : x.closing.map Rec.seq = y.closing.map Rec.seq ∧ x.streaming = y.streaming
    ∧ x.chunkNo = y.chunkNo ∧ x.chunkLast = y.chunkLast ∧ x.marks = y.marks ∧ x.doneMark = y.doneMark := by
  simp only [CapSt.span, Prod.mk.injEq, CapSt.mk.injEq] at h
  tauto

theorem seqOnly_span : SeqOnly CapSt.span := fun k f hf => by
  simp [CapSt.span, CapSt.mapRecs, Function.comp_def, hf]

/-- The write point of the side ring and the count of lost side items. -/
def CapSt.sideEnd (k : CapSt) : Nat × Nat := (k.swTot, k.sideLost)

theorem seqOnly_sideEnd : SeqOnly CapSt.sideEnd := fun _ _ _ => rfl

@[simp] theorem CapSt.mapRecs_span (k : CapSt) {f : Rec → Rec} (h : ∀ r, (f r).seq = r.seq) : (k.mapRecs f).span = k.span :=
  seqOnly_span k f h

@[simp] theorem Rec.takeSide_seq (r : Rec) (q : Nat) (bs : List Byte) (lost : Bool) : (r.takeSide q bs lost).seq = r.seq := by
  unfold Rec.takeSide
  (repeat' split) <;> rfl

@[simp] theorem Rec.push_seq (r : Rec) (b : Bool) (l : List (BitVec 16)) : (r.push b l).seq = r.seq := by cases b <;> rfl
@[simp] theorem Rec.setGap_seq (r : Rec) (b : Bool) (g : Option (Nat × Nat × Nat)) : (r.setGap b g).seq = r.seq := by cases b <;> rfl
@[simp] theorem Rec.setRng_seq (r : Rec) (b : Bool) (g : Option (Nat × BitVec 3)) : (r.setRng b g).seq = r.seq := by cases b <;> rfl

/-! ### Acquisition memory -/

section
variable {β : Type} {g : CapSt → β} (s : State) (c : Ch)

/-- An uncorrectable error marks records, and moves nothing else of a capture unit (R433). -/
theorem State.logUe_marks (finder lch b : Nat) : ∃ f : Rec → Rec, (∀ r, (f r).seq = r.seq)
    ∧ ((s.logUe finder lch b).ch c).cap = (s.ch c).cap.mapRecs f := by
  unfold State.logUe
  dsimp only
  rw [State.ch_of_bare (State.bare_raiseHub ..)]
  refine ⟨_, fun r => ?_, congrArg Channel.cap (Vector.get_ofFn ..)⟩
  split <;> rfl

theorem State.logUe_cap (hg : SeqOnly g) (finder lch b : Nat) : g ((s.logUe finder lch b).ch c).cap = g (s.ch c).cap := by
  obtain ⟨f, hf, eq⟩ := s.logUe_marks c finder lch b
  rw [eq, hg _ f hf]

theorem State.acqPut_cap (hg : SeqOnly g) (lch base size tot : Nat) (bs : List Byte) :
    g ((s.acqPut lch base size tot bs).ch c).cap = g (s.ch c).cap := by
  unfold State.acqPut
  dsimp only
  split
  · rfl
  · refine (State.each_frame (fun u : State => g (u.ch c).cap) _ (fun b u => ?_) _).trans rfl
    split
    · rfl
    · exact (State.logUe_cap _ c hg 6 lch b).trans rfl

/-! ### Side items -/

@[simp] theorem State.modCap_span {f : CapSt → CapSt} (h : ∀ k, (f k).span = k.span) :
    ((s.modCap c f).ch c).cap.span = (s.ch c).cap.span := by
  rw [State.modCap_cap, h]

@[simp] theorem State.ite_span (p : Prop) [Decidable p] (u : State) : ((if p then s else u).ch c).cap.span =
    if p then (s.ch c).cap.span else (u.ch c).cap.span := apply_ite (fun u : State => (u.ch c).cap.span) ..

@[simp] theorem State.acqPut_span (lch base size tot : Nat) (bs : List Byte) :
    ((s.acqPut lch base size tot bs).ch c).cap.span = (s.ch c).cap.span := State.acqPut_cap s c seqOnly_span ..

@[simp] theorem State.sideWrite_span (bs : List Byte) : ((s.sideWrite c bs).ch c).cap.span = (s.ch c).cap.span := by
  unfold State.sideWrite
  dsimp only
  rw [State.modCap_span, State.acqPut_span]
  exact fun _ => rfl

@[simp] theorem State.side_span (q : Nat) (bs : List Byte) : ((s.side c q bs).ch c).cap.span = (s.ch c).cap.span := by
  have lost (k : CapSt) (n : Nat) : ({ k with sideLost := n } : CapSt).span = k.span := rfl
  have missed (k : CapSt) (n b : Nat) : ({ k with sideLost := n }.stick b).span = k.span := rfl
  simp [State.side, lost, missed]

/-! ### Lanes and results -/

@[simp] theorem State.modRec_span (q : Nat) {f : Rec → Rec} (h : ∀ r, (f r).seq = r.seq) :
    ((s.modRec c q f).ch c).cap.span = (s.ch c).cap.span := by
  refine State.modCap_span s c fun k => k.mapRecs_span fun r => ?_
  split
  · exact h r
  · rfl

@[simp] theorem State.flushGap_span (q : Nat) (b : Bool) : ((s.flushGap c q b).ch c).cap.span = (s.ch c).cap.span := by
  unfold State.flushGap
  split <;> simp

@[simp] theorem State.flushRng_span (q : Nat) (b : Bool) (i : Nat) : ((s.flushRng c q b i).ch c).cap.span = (s.ch c).cap.span := by
  unfold State.flushRng
  split <;> simp

@[simp] theorem State.gapTo_span (q : Nat) (b : Bool) (i cause : Nat) : ((s.gapTo c q b i cause).ch c).cap.span = (s.ch c).cap.span := by
  unfold State.gapTo
  split
  · rfl
  · dsimp only
    split
    · rfl
    · refine (State.modRec_span _ c q fun r => ?_).trans (by rw [State.ite_span, State.flushGap_span, ite_self])
      rw [Rec.setGap_seq]
      split <;> exact Rec.push_seq ..

@[simp] theorem State.forwardRes_span : ((s.forwardRes c).ch c).cap.span = (s.ch c).cap.span := by
  unfold State.forwardRes
  refine (State.each_frame (fun u : State => (u.ch c).cap.span) _ (fun x u => ?_) _).trans (by rw [State.ch_modCh_self])
  dsimp only
  split
  · exact State.side_span ..
  · rfl

end

end Sys2Proof.Machine
end

section
/-! PROOFS. Records, chunks and marks that end, and the count of lost side items (8.4 to 8.7). -/

namespace Sys2Proof.Machine

/-! ### Sample boundaries of two states with the same clocks -/

theorem State.nextB_of_calm {s u : State} (h : u.calm = s.calm) (c : Ch) (t : Nat) : u.nextB c t = s.nextB c t := by
  have core := State.rg_of_env (State.env_of_calm h) (rgOf c)
  have p : (u.rg (rgOf c)).p = (s.rg (rgOf c)).p := by
    have e := congrArg Region.p core
    exact e
  have q : (u.rg (rgOf c)).q = (s.rg (rgOf c)).q := by
    have e := congrArg Region.q core
    exact e
  simp only [State.nextB, State.sTick, State.sIdx, p, q]

section
variable (s : State) (tk : Nat) (c : Ch)

@[simp] theorem State.lastDelivery_advance (last : Nat) (a b : ConvCfg) :
    (s.advance tk).lastDelivery c last a b = s.lastDelivery c last a b := by simp [State.lastDelivery]

@[simp] theorem State.mem_advance : (s.advance tk).mem = s.mem := by
  have e := congrArg State.mem (State.bare_advance s tk)
  exact e

@[simp] theorem State.owner_advance : (s.advance tk).owner = s.owner := by
  have e := congrArg State.owner (State.bare_advance s tk)
  exact e

@[simp] theorem State.ringOk_advance (r : Nat × Nat) : (s.advance tk).ringOk c r = s.ringOk c r := by
  have cap : (s.advance tk).memCap = s.memCap := by
    unfold State.memCap
    rw [State.mem_advance]
  have usable : (s.advance tk).usable = s.usable := congrArg (· - 2 ^ 26) cap
  unfold State.ringOk State.inWindow State.window
  rw [usable, State.mem_advance, State.owner_advance]

@[simp] theorem State.sring_advance : (s.advance tk).sring c = s.sring c := by simp [State.sring]

@[simp] theorem State.sideRoom_advance : (s.advance tk).sideRoom c = s.sideRoom c := by
  simp only [State.sideRoom, State.sring_advance, State.ringOk_advance, State.ch_advance]

/-! ### The end of a record or a chunk (R226, R231) -/

theorem State.endRec_record {s : State} {c : Ch} {r : Rec} (hr : (s.ch c).cap.cur = some r) (hs : r.stream = false) :
    s.endRec c = s.modCap c fun k =>
      { k with cur := none, closing := k.closing ++ [r], latest := some r.last, fill := s.nextB c r.last } := by
  unfold State.endRec State.modCap
  refine State.modCh_congr s c _ _ ?_
  simp [hr, hs]

@[simp] theorem State.sTick_endRec (k : Nat) : (s.endRec c).sTick c k = s.sTick c k := rfl

/-- What was open waits for its final header, and a stream goes on. -/
theorem State.endRec_cap : let k := (s.ch c).cap
    let x := ((s.endRec c).ch c).cap
    x.closing = k.closing ++ k.cur.toList ∧ x.streaming = k.streaming ∧ x.chunkNo = k.chunkNo ∧ x.chunkm1 = k.chunkm1 := by
  dsimp only
  rw [State.endRec, State.modCap_cap]
  cases hc : (s.ch c).cap.cur with
  | none => exact ⟨(List.append_nil _).symm, rfl, rfl, rfl⟩
  | some r =>
    dsimp only
    split <;> exact ⟨rfl, rfl, rfl, rfl⟩

/-! ### The next chunk (R237) -/

@[simp] theorem State.placeRec_span (r : Rec) : ((s.placeRec c r).ch c).cap.span = (s.ch c).cap.span := by
  unfold State.placeRec
  dsimp only
  rw [State.modCap_span, State.acqPut_span]
  · rfl
  · exact fun _ => rfl

/-- One chunk more is counted. -/
def CapSt.countChunk (k : CapSt) : CapSt := { k with chunkNo := k.chunkNo + 1 }

theorem CapSt.countChunk_span {x y : CapSt} (h : x.span = y.span) : x.countChunk.span = y.countChunk.span :=
  congrArg (fun z : List Nat × CapSt => (z.1, z.2.countChunk)) h

/-- Opened or skipped, the next chunk is counted and has its last boundary. -/
theorem State.openChunk_cap (k0 : Nat) : let k := (s.ch c).cap
    let x := ((s.openChunk c k0).ch c).cap
    x.closing.map Rec.seq = k.closing.map Rec.seq ∧ x.streaming = k.streaming ∧ x.chunkNo = k.chunkNo + 1
    ∧ x.chunkLast = s.sTick c (k0 + k.chunkm1) := by
  have span : ((s.openChunk c k0).ch c).cap.span =
      { (s.ch c).cap.countChunk with chunkLast := s.sTick c (k0 + (s.ch c).cap.chunkm1) }.span := by
    unfold State.openChunk
    dsimp only
    split
    · rw [State.modCap_span, State.ite_span, State.side_span, ite_self, State.modCap_cap]
      · refine (CapSt.countChunk_span (State.placeRec_span ..)).trans ?_
        rw [State.modCap_cap]
        rfl
      · exact fun _ => rfl
    · rw [State.modCap_cap, State.modCap_cap]
      rfl
  obtain ⟨seqs, streaming, no, last, -⟩ := CapSt.fields_of_span span
  exact ⟨seqs, streaming, no, last⟩

/-! ### The final header (R231) -/

theorem CapSt.rec?_seq (k : CapSt) (r : Rec) : ((k.rec? r.seq).getD r).seq = r.seq := by
  cases h : k.rec? r.seq with
  | none => rfl
  | some x =>
    have named := List.find?_some h
    simpa using named

/-- With its final header the oldest closing record leaves, and its entry waits for the Pedigree. -/
theorem State.finalize_queues {s : State} {c : Ch} {r : Rec} {rest : List Rec} (h : (s.ch c).cap.closing = r :: rest) :
    ∃ (u : State) (body : List Byte), s.finalize c = u.pedQueue 0x10 c.1 body (.record c r.seq) ∧ (u.ch c).cap.closing = rest := by
  unfold State.finalize
  rw [h]
  dsimp only
  rw [CapSt.rec?_seq]
  exact ⟨_, _, rfl, by rw [State.modCap_cap]⟩

/-! ### Side items -/

theorem State.sideWrite_sideEnd (bs : List Byte) : ((s.sideWrite c bs).ch c).cap.sideEnd =
    ((s.ch c).cap.swTot + bs.length, (s.ch c).cap.sideLost) := by
  unfold State.sideWrite
  dsimp only
  rw [State.modCap_cap]
  exact congrArg (fun e : Nat × Nat => (e.1 + bs.length, e.2)) (State.acqPut_cap s c seqOnly_sideEnd ..)

@[simp] theorem length_leBytes (n v : Nat) : (leBytes n v).length = n := by
  induction n generalizing v with
  | zero => rfl
  | succ n ih => rw [leBytes, List.length_cons, ih]

@[simp] theorem length_sideItem (a b x y : Nat) : (sideItem a b x y).length = 16 := by simp [sideItem]

/-- With room for it, the SIDE_LOST item of 16 bytes is written, and no loss is left (R233). -/
theorem State.side_lost {s : State} {c : Ch} (hl : 0 < (s.ch c).cap.sideLost) (hr : 16 ≤ s.sideRoom c) (q : Nat) :
    ((s.side c q []).ch c).cap.sideEnd = ((s.ch c).cap.swTot + 16, 0) := by
  have fits : 16 + ([] : List Byte).length ≤ s.sideRoom c := hr
  unfold State.side
  dsimp only
  rw [if_pos hl, if_pos fits, if_pos hl, State.modCap_cap, seqOnly_sideEnd _ _ (fun _ => Rec.takeSide_seq ..), State.sideWrite_sideEnd,
    State.modCap_cap]
  have item := s.sideWrite_sideEnd c (sideItem 0x0B q (s.ch c).cap.sideLost 0)
  rw [length_sideItem] at item
  exact congrArg (fun e : Nat × Nat => (e.1, 0)) item

end

/-! ### The rows -/

section
variable {s : State} {tk : Nat} {c : Ch}

theorem exec_recordFinalize {r : Rec} {rest : List Rec} (hc : (s.ch c).cap.closing = r :: rest)
    (hs : s.hubServes = true) (hh : s.hub.recovery = false)
    (ht : r.len = 0 ∨ s.lastDelivery c r.last r.cfgA r.cfgB ≤ (s.advance tk).now c) :
    exec (.recordFinalize tk c) s = .next (((s.advance tk).forwardRes c).finalize c).settle := by
  have hub : (s.advance tk).hub = s.hub := by
    unfold State.advance
    split <;> rfl
  have serves : (s.advance tk).hubServes = true := by rw [State.hubServes, hub]; exact hs
  show execRecordFinalize tk c s = _
  simp [execRecordFinalize, State.eventAt, hc, serves, hub, hh, ht]

theorem exec_chunkEnd (hs : (s.ch c).cap.streaming = true) (ht : (s.ch c).cap.chunkLast ≤ (s.advance tk).now c) :
    exec (.chunkEnd tk c) s =
      .next (((s.advance tk).endRec c).openChunk c (s.idxAt c (s.ch c).cap.chunkLast + 1)).settle := by
  show execChunkEnd tk c s = _
  simp [execChunkEnd, State.eventAt, hs, ht]

/-- The row of the oldest mark, whose samples have all come (R238): its side items, its end, and where it was the last, DONE. -/
theorem exec_markSpanClose {m : Mark} {rest : List Mark} (hm : (s.ch c).cap.marks = m :: rest)
    (ht : s.lastDelivery c m.last (s.ch c).convA.cfg (s.ch c).convB.cfg ≤ (s.advance tk).now c) : ∃ q bs,
    exec (.markSpanClose tk c) s = .next (
      let u := ((s.advance tk).side c q bs).modCap c fun k => { k with marks := rest, latest := some m.last, fill := s.nextB c m.last }
      if (s.ch c).cap.doneMark = m.no then
        (u.modCap c fun k => { k with doneMark := 0 }.stick 17).chEv c .capDone (wd (u.ch c).cap.recSeq)
      else u).settle := by
  have done (q : Nat) (bs : List Byte) : (((s.advance tk).side c q bs).ch c).cap.doneMark = (s.ch c).cap.doneMark := by
    obtain ⟨-, -, -, -, -, done⟩ := CapSt.fields_of_span (State.side_span (s.advance tk) c q bs)
    rwa [State.ch_advance] at done
  have fill (q : Nat) (bs : List Byte) : ((s.advance tk).side c q bs).nextB c m.last = s.nextB c m.last :=
    State.nextB_of_calm (by simp) c _
  show ∃ q bs, execMarkSpanClose tk c s = _
  simp only [execMarkSpanClose, State.eventAt, State.ch_advance, hm, State.lastDelivery_advance, if_pos ht, State.modCap_cap, done, fill,
    beq_iff_eq]
  exact ⟨_, _, rfl⟩

theorem exec_sideRoomReturn (hl : 0 < (s.ch c).cap.sideLost) (hr : 16 ≤ s.sideRoom c) :
    exec (.sideRoomReturn tk c) s = .next ((s.advance tk).side c (((s.ch c).cap.cur.map (·.seq)).getD 0) []).settle := by
  show execSideRoomReturn tk c s = _
  simp [execSideRoomReturn, State.eventAt, hl, hr]

end

/-- Settles O36: a record that ends is one change of its capture unit, and each other row is read off what its operations leave of it:
`State.finalize_queues`, `State.openChunk_cap`, `exec_markSpanClose` and `State.side_lost`. -/
theorem captureEnds : Obligations.CaptureEnds := by
  unfold Obligations.CaptureEnds
  intro s tk c
  dsimp only
  refine ⟨fun r hr hs ht => ?record, fun r rest hc hs hh ht => ?final, fun hs ht => ?chunk, fun m rest hm ht => ?mark,
    fun hl hr => ?side⟩
  case record =>
    refine State.turns_of rfl ?_
    simp only [State.ch_advance, hr]
    rw [hs, State.endRec_record (by rwa [State.ch_advance]) hs, State.nextB_advance]
    simp [ht]
  case final =>
    refine State.ends_of (exec_recordFinalize hc hs hh ht) ?_
    obtain ⟨seqs, -⟩ := CapSt.fields_of_span (State.forwardRes_span (s.advance tk) c)
    rw [State.ch_advance, hc] at seqs
    obtain ⟨q, l, hq, heads, tails⟩ := List.map_eq_cons_iff.1 seqs
    obtain ⟨u, body, eq, closing⟩ := State.finalize_queues hq
    rw [State.ch_settle, State.ped_of_bare (State.bare_settle _), eq]
    refine ⟨?_, _, (mem_pedInsert ..).2 (.inl rfl), rfl, rfl, ?_⟩
    · exact (congrArg (List.map Rec.seq) closing).trans tails
    · exact congrArg (PedAfter.record c) heads
  case chunk =>
    refine State.ends_of (exec_chunkEnd hs ht) ?_
    obtain ⟨closing, streaming, no, len⟩ := State.endRec_cap (s.advance tk) c
    obtain ⟨seqs, streaming', no', last⟩ := State.openChunk_cap ((s.advance tk).endRec c) c (s.idxAt c (s.ch c).cap.chunkLast + 1)
    rw [State.ch_advance] at closing streaming no len
    rw [closing, List.map_append] at seqs
    rw [len, State.sTick_endRec, State.sTick_advance] at last
    rw [State.ch_settle]
    exact ⟨streaming'.trans (streaming.trans hs), no'.trans (congrArg (· + 1) no), last, seqs⟩
  case mark =>
    obtain ⟨q, bs, eq⟩ := exec_markSpanClose hm ht
    refine State.ends_of eq ?_
    rw [State.ch_settle]
    dsimp only
    split
    next hd =>
      rw [State.chEv, State.ch_of_chan (State.chan_chEvAt ..), State.modCap_cap, State.modCap_cap]
      exact ⟨rfl, rfl, rfl, fun _ => bit_or_pow (by decide) _⟩
    next hd =>
      rw [State.modCap_cap]
      exact ⟨rfl, rfl, rfl, fun h => absurd h hd⟩
  case side =>
    refine State.ends_of (exec_sideRoomReturn hl hr) ?_
    have ends := State.side_lost (s := s.advance tk) (c := c) (by rwa [State.ch_advance]) (by rwa [State.sideRoom_advance])
      (((s.ch c).cap.cur.map (·.seq)).getD 0)
    rw [State.ch_settle]
    rw [State.ch_advance] at ends
    exact ⟨congrArg Prod.snd ends, congrArg Prod.fst ends⟩

end Sys2Proof.Machine
end

section
/-! PROOFS. The canonical form of the memories (log 4). Most operations of the model write no memory: after them the memories stand in
canonical form just where they did before. The others write single bytes, clear a range or start anew, and keep the form. -/

namespace Sys2Proof.Machine

/-! ### Sparse maps -/

theorem serase_sublist {α : Type} (m : List (Nat × α)) (k : Nat) : (serase m k).Sublist m := by
  induction m with
  | nil => exact .slnil
  | cons q m ih =>
    unfold serase
    split
    · exact ih.cons q
    · exact ih.cons_cons q

theorem swf_of_sublist {α : Type} [DecidableEq α] {d : α} {lo : Nat} {l m : List (Nat × α)} (h : l.Sublist m)
    (hm : swfFrom d lo m = true) : swfFrom d lo l = true := by
  obtain ⟨rising, listed⟩ := (swfFrom_iff ..).mp hm
  exact (swfFrom_iff ..).mpr ⟨rising.sublist h, fun p hp => listed p (h.subset hp)⟩

theorem swfFrom_sput {α : Type} [DecidableEq α] {d v : α} (hv : v ≠ d) {lo k : Nat} {m : List (Nat × α)} (hk : lo ≤ k)
    (hm : swfFrom d lo m = true) : swfFrom d lo (sput m k v) = true := by
  induction m generalizing lo with
  | nil => simp [sput, swfFrom, hk, hv]
  | cons q m ih =>
    obtain ⟨a, u⟩ := q
    simp only [swfFrom, Bool.and_eq_true, decide_eq_true_eq] at hm
    obtain ⟨⟨ha, hu⟩, hm⟩ := hm
    unfold sput
    split
    next hlt => simp [swfFrom, hk, hv, hu, hm, Nat.succ_le_of_lt hlt]
    next hge =>
      split
      next e => subst e; simp [swfFrom, hk, hv, hm]
      next hne => simp [swfFrom, ha, hu, ih (by omega) hm]

theorem swf_sset {α : Type} [DecidableEq α] {d : α} {m : List (Nat × α)} (k : Nat) (v : α) (h : swf d m = true) :
    swf d (sset d m k v) = true := by
  unfold sset
  split
  · exact swf_of_sublist (serase_sublist m k) h
  next hv => exact swfFrom_sput hv (Nat.zero_le k) h

/-! ### Memories -/

theorem Memory.wf_setByte {m : Memory} (a : Nat) (v : Byte) (h : m.wf = true) : Memory.wf (memSetByte m a v) = true := swf_sset a v h

theorem Memory.wf_setWord {m : Memory} (a : Nat) (w : Word) (h : m.wf = true) : Memory.wf (memSetWord m a w) = true :=
  Memory.wf_setByte _ _ <| Memory.wf_setByte _ _ <| Memory.wf_setByte _ _ <| Memory.wf_setByte _ _ h

theorem Memory.wf_setBytes {m : Memory} (a : Nat) (l : List Byte) (h : m.wf = true) : Memory.wf (memSetBytes m a l) = true := by
  induction l generalizing m a with
  | nil => exact h
  | cons b l ih => exact ih (a + 1) (Memory.wf_setByte a b h)

theorem Memory.wf_clear {m : Memory} (lo hi : Nat) (h : m.wf = true) : Memory.wf (memClear m lo hi) = true :=
  swf_of_sublist List.filter_sublist h

theorem Memory.wf_ringPut {m : Memory} (base size tot : Nat) (l : List Byte) (h : m.wf = true) :
    Memory.wf (ringPut m base size tot l) = true := by
  induction l generalizing m tot with
  | nil => exact h
  | cons b l ih => exact ih (tot + 1) (Memory.wf_setByte _ b h)

/-- A fold of operations on a memory, each of which keeps the canonical form. -/
theorem Memory.wf_foldl {α : Type} {f : Memory → α → Memory} (hf : ∀ m a, Memory.wf m = true → Memory.wf (f m a) = true) (l : List α)
    {m : Memory} (h : m.wf = true) : Memory.wf (l.foldl f m) = true :=
  List.foldlRecOn l f (motive := fun m => Memory.wf m = true) h fun m hm a _ => hf m a hm

theorem Memory.wf_ctlReset {m : Memory} (k : Nat) (h : m.wf = true) : Memory.wf (ctlReset k m) = true :=
  Memory.wf_foldl (fun _ _ => Memory.wf_setWord _ _) _
    (Memory.wf_foldl (fun _ _ hm => Memory.wf_setWord _ _ (Memory.wf_setWord _ _ hm)) _ h)

theorem Memory.wf_tmemReset {m : Memory} (h : m.wf = true) : Memory.wf (tmemReset m) = true :=
  Memory.wf_foldl (fun _ k => Memory.wf_ctlReset k) _ (Memory.wf_clear 0 0x4400 h)

/-! ### The memories of a state -/

/-- The three SRAMs of a cluster are in canonical form. -/
def Cluster.sramOk (k : Cluster) : Prop := Memory.wf k.imem = true ∧ Memory.wf k.dmem = true ∧ Memory.wf k.tmem = true

/-- Acquisition memory, the MSI-X Table, both firmware slots and the SRAMs of the clusters are in canonical form. -/
def MemsOk (acq msix imgA imgB : Memory) (clus : Vector Cluster 12) : Prop :=
  Memory.wf acq = true ∧ Memory.wf msix = true ∧ Memory.wf imgA = true ∧ Memory.wf imgB = true ∧ ∀ n, (clus.get n).sramOk

/-- `memOk` as a statement about the fields that hold memories: an update of other fields leaves it as it is by computation. -/
@[simp, reducible] def State.kept (s : State) : Prop := MemsOk s.acq s.msixTbl s.fw.imgA s.fw.imgB s.clus

theorem State.memOk_iff (s : State) : s.memOk ↔ s.kept := Iff.rfl

/-- `kept` under a name that does not unfold by itself: the premise of an operation that writes a memory. -/
def State.sound (s : State) : Prop := s.kept

@[simp] theorem State.sound_iff (s : State) : s.sound ↔ s.kept := Iff.rfl

theorem State.sound.kept {s : State} (h : s.sound) : s.kept := h

/-- A state under a name of its own: the kernel compares fields of a variable and does not run the operation that made the state. -/
theorem State.hide (x : State) : ∃ u, x = u := ⟨x, rfl⟩

/-- A state whose memories are in canonical form. -/
abbrev Sound := { s : State // s.sound }

@[simp] theorem Sound.kept (s : Sound) : s.1.kept := s.2

@[simp] theorem State.ite_kept (p : Prop) [Decidable p] (s u : State) : (if p then s else u).kept ↔ if p then s.kept else u.kept := by
  split <;> rfl

theorem State.kept_ite {p q : Prop} [Decidable p] {s u : State} (hs : s.kept ↔ q) (hu : u.kept ↔ q) :
    (if p then s else u).kept ↔ q := by
  split <;> assumption

@[simp] theorem State.each_kept {α : Type} (l : List α) {f : α → State → State} (h : ∀ a s, (f a s).kept ↔ s.kept) (s : State) :
    (s.each l f).kept ↔ s.kept := by
  induction l generalizing s with
  | nil => rfl
  | cons a l ih => exact (ih (f a s)).trans (h a s)

@[simp] theorem State.each_kept_of {α : Type} (l : List α) {f : α → State → State} (h : ∀ a (s : Sound), (f a s.1).kept) {s : State}
    (hs : s.sound) : (s.each l f).kept := by
  induction l generalizing s with
  | nil => exact hs
  | cons a l ih => exact ih (h a ⟨s, hs⟩)

@[simp] theorem State.acq_advance (s : State) (t : Nat) : (s.advance t).acq = s.acq := by unfold State.advance; split <;> rfl
@[simp] theorem State.msixTbl_advance (s : State) (t : Nat) : (s.advance t).msixTbl = s.msixTbl := by
  unfold State.advance; split <;> rfl
@[simp] theorem State.fw_advance (s : State) (t : Nat) : (s.advance t).fw = s.fw := by unfold State.advance; split <;> rfl

section
variable {a m x y : Memory} {s : State}

theorem MemsOk.acq {b : Memory} {c : Vector Cluster 12} (h : MemsOk a m x y c) (hb : Memory.wf a = true → Memory.wf b = true) :
    MemsOk b m x y c := ⟨hb h.1, h.2⟩

theorem MemsOk.modCl {n : Cl} {f : Cluster → Cluster} (hf : (s.cl n).sramOk → (f (s.cl n)).sramOk) (h : MemsOk a m x y s.clus) :
    MemsOk a m x y (s.modCl n f).clus := by
  obtain ⟨ha, hm, hx, hy, hc⟩ := h
  refine ⟨ha, hm, hx, hy, fun d => ?_⟩
  rw [State.modCl, vget_set]
  split
  · exact hf (hc n)
  · exact hc d

/-- A change of a cluster outside its SRAMs. -/
@[simp] theorem MemsOk.modCl_iff (n : Cl) (f : Cluster → Cluster)
    (hf : (f (s.cl n)).imem = (s.cl n).imem ∧ (f (s.cl n)).dmem = (s.cl n).dmem ∧ (f (s.cl n)).tmem = (s.cl n).tmem) :
    MemsOk a m x y (s.modCl n f).clus ↔ MemsOk a m x y s.clus := by
  have same : (f (s.cl n)).sramOk ↔ (s.cl n).sramOk := by
    unfold Cluster.sramOk
    rw [hf.1, hf.2.1, hf.2.2]
  refine ⟨fun h => ?_, MemsOk.modCl same.mpr⟩
  have back : (s.modCl n f).modCl n (fun _ => s.cl n) = s := by
    simp only [State.modCl, Vector.set_set]
    exact congrArg (fun v => { s with clus := v }) (vset_get s.clus n)
  rw [← back]
  exact h.modCl fun hk => same.mp (by simpa using hk)

theorem MemsOk.map_iff {c : Vector Cluster 12} (f : Cluster → Cluster)
    (hf : ∀ k, (f k).imem = k.imem ∧ (f k).dmem = k.dmem ∧ (f k).tmem = k.tmem) :
    MemsOk a m x y (c.map f) ↔ MemsOk a m x y c := by
  have same (n : Fin 12) : ((c.map f).get n).sramOk ↔ (c.get n).sramOk := by
    rw [Vector.get_map]
    unfold Cluster.sramOk
    rw [(hf _).1, (hf _).2.1, (hf _).2.2]
  simp only [MemsOk, same]

theorem State.setTmem_kept (n : Cl) (o : Nat) (v : Word) (h : s.sound) :
    (s.modCl n fun k => { k with tmem := memSetWord k.tmem o v }).kept :=
  MemsOk.modCl (fun ⟨hi, hd, ht⟩ => ⟨hi, hd, Memory.wf_setWord _ _ ht⟩) h

@[simp] theorem MemsOk.modTh_iff (t : Thr) (f : Thread → Thread) : MemsOk a m x y (s.modTh t f).clus ↔ MemsOk a m x y s.clus :=
  MemsOk.modCl_iff t.cl _ ⟨rfl, rfl, rfl⟩
end

end Sys2Proof.Machine
end

section
/-! PROOFS. What each operation of the model does to the canonical form of the memories: the rule of each operation, in the order of
their definitions. An operation that writes no memory has an equivalence; one that writes keeps the form. -/

namespace Sys2Proof.Machine

section
variable (s : State) (c : Ch) (t tk b : Nat) (p : Pkt) (k : Ctx) (n : Cl) (r : Rg) (d : Die) (v : Conv) (w : Word)

/-! ### Ops -/

@[simp] theorem State.modRing_kept (r : RingNo) (f : Ring → Ring) : (s.modRing k r f).kept ↔ s.kept := .rfl
@[simp] theorem State.touchCache_kept (r : RingNo) : (s.touchCache k r).kept ↔ s.kept := by simp [State.touchCache]
@[simp] theorem State.advance_kept : (s.advance t).kept ↔ s.kept := by simp [State.advance]
@[simp] theorem State.advanceDie_kept : (s.advanceDie d t).kept ↔ s.kept := by simp [State.advanceDie]
@[simp] theorem State.setCtl_kept (o : Nat) (h : s.sound) : (s.setCtl c o w).kept :=
  State.setTmem_kept _ _ _ h
@[simp] theorem State.used_kept : s.used.kept ↔ s.kept := .rfl

/-! ### HostOut -/

@[simp] theorem State.msix_kept (v : Nat) : (s.msix v).kept ↔ s.kept := by simp [State.msix]
@[simp] theorem State.unjournal_kept (o : OutPkt) : (s.unjournal o).kept ↔ s.kept := by simp [State.unjournal]
@[simp] theorem State.writeOut_kept (o : OutPkt) : (s.writeOut o).kept ↔ s.kept := by simp [State.writeOut]
@[simp] theorem State.post_kept (o : OutPkt) : (s.post o).kept ↔ s.kept := by simp [State.post]
@[simp] theorem State.mark_kept (n : Fin 3) : (s.mark p n).kept ↔ s.kept := .rfl
@[simp] theorem State.drainN_kept (m : Nat) (s : State) (k : Ctx) (r : RingNo) : (s.drainN m k r).kept ↔ s.kept := by
  induction m generalizing s k r with
  | zero => rfl
  | succ m ih => simp [State.drainN, ih]
@[simp] theorem State.drainRing_kept (r : RingNo) : (s.drainRing k r).kept ↔ s.kept := by simp [State.drainRing]
@[simp] theorem State.disableRings_kept (s : State) (k : Ctx) : (s.disableRings k).kept ↔ s.kept := by
  unfold State.disableRings
  rw [State.each_kept _ (by simp), State.each_kept]
  intro g s
  dsimp only
  split <;> simp
@[simp] theorem State.complete_kept (status code : Byte) (res0 : Word) (res1 : DWord) (pay : List Byte) :
    (s.complete p status code res0 res1 pay).kept ↔ s.kept := by
  simp [State.complete]
@[simp] theorem State.ok_kept : (s.ok p).kept ↔ s.kept := by simp [State.ok]
@[simp] theorem State.failed_kept (code : Byte) : (s.failed p code).kept ↔ s.kept := by simp [State.failed]

/-! ### Events -/

@[simp] theorem State.writeEv_kept (n : Src) (h : HeldEv) : (s.writeEv n h).kept ↔ s.kept := by simp [State.writeEv]
@[simp] theorem State.sendEv_kept (n : Src) (f : Fold) (coal msi : Bool) : (s.sendEv n f coal msi).kept ↔ s.kept := by simp [State.sendEv]
@[simp] theorem State.endWindow_kept (n : Src) : (s.endWindow n).kept ↔ s.kept := by
  simp only [State.endWindow]
  (repeat' split) <;> simp
@[simp] theorem State.foldHeld_kept (n : Src) (x : Ev) : (s.foldHeld n x).kept ↔ s.kept := .rfl
@[simp] theorem State.packEv_kept (n : Src) (x : Ev) (msi : Bool) : (s.packEv n x msi).kept ↔ s.kept := by
  simp only [State.packEv]
  (repeat' split) <;> simp
@[simp] theorem State.deliver_kept (n : Src) (x : Ev) : (s.deliver n x).kept ↔ s.kept := by simp [State.deliver]
@[simp] theorem State.raiseAt_kept (n : Src) (code : Nat) (detail : Word) : (s.raiseAt n code detail t).kept ↔ s.kept := by
  simp [State.raiseAt]
@[simp] theorem State.raise_kept (n : Src) (code : Nat) (detail : Word) : (s.raise n code detail).kept ↔ s.kept := by simp [State.raise]
@[simp] theorem State.deliverGroup_kept (n : Src) : (s.deliverGroup n).kept ↔ s.kept := by
  unfold State.deliverGroup
  split <;> simp
@[simp] theorem State.raiseHub_kept (h : Fin 112) (detail : Word) : (s.raiseHub h detail).kept ↔ s.kept := by simp [State.raiseHub]
@[simp] theorem State.latchEvtAt_kept (t : Thr) (now : Nat) : (s.latchEvtAt t b now).kept ↔ s.kept := by simp [State.latchEvtAt]
@[simp] theorem State.latchEvt_kept (t : Thr) : (s.latchEvt t b).kept ↔ s.kept := by simp [State.latchEvt]
@[simp] theorem State.latchAll_kept : (s.latchAll b).kept ↔ s.kept := by simp [State.latchAll]
@[simp] theorem State.latchRg_kept : (s.latchRg r b).kept ↔ s.kept := by simp [State.latchRg]
@[simp] theorem State.chEvAt_kept (e : ChEv) (detail : Word) : (s.chEvAt c e detail t).kept ↔ s.kept := by
  unfold State.chEvAt
  split <;> simp
@[simp] theorem State.chEv_kept (e : ChEv) (detail : Word) : (s.chEv c e detail).kept ↔ s.kept := by simp [State.chEv]
@[simp] theorem State.logViol_kept (k : Option Ctx) (r : RingNo) (cause : Byte) (value detail : Word) :
    (s.logViol k r cause value detail).kept ↔ s.kept := by
  unfold State.logViol
  split <;> simp
@[simp] theorem State.violPkt_kept (r : RingNo) (h : Hdr) (seen : Bool) (cause : Byte) (res0 res1 : Word) :
    (s.violPkt k r h seen cause res0 res1).kept ↔ s.kept := by
  simp [State.violPkt]
@[simp] theorem State.violBell_kept (r : RingNo) (cause : Byte) (res0 res1 : Word) : (s.violBell k r cause res0 res1).kept ↔ s.kept := by
  simp [State.violBell]

/-! ### Pedigree -/

@[simp] theorem State.pedQueueAt_kept (kind : Byte) (lch : Nat) (body : List Byte) (after : PedAfter) :
    (s.pedQueueAt kind lch body after t).kept ↔ s.kept := .rfl
@[simp] theorem State.pedQueue_kept (kind : Byte) (lch : Nat) (body : List Byte) (after : PedAfter) :
    (s.pedQueue kind lch body after).kept ↔ s.kept := .rfl

/-! ### MemOps -/

@[simp] theorem State.logUe_kept (finder lch : Nat) : (s.logUe finder lch b).kept ↔ s.kept := by simp [State.logUe]
@[simp] theorem State.acqPut_kept (lch base size tot : Nat) (bs : List Byte) (h : s.sound) : (s.acqPut lch base size tot bs).kept := by
  have put : MemsOk (ringPut s.acq base size tot bs) s.msixTbl s.fw.imgA s.fw.imgB s.clus := h.acq (Memory.wf_ringPut _ _ _ _)
  simp only [State.acqPut]
  split
  · exact put
  · refine State.each_kept_of _ (fun b u => ?_) put
    split
    · exact u.2
    · exact (State.logUe_kept ..).mpr <| MemsOk.acq u.2 (Memory.wf_foldl (fun _ _ => Memory.wf_setByte _ _) _)
@[simp] theorem State.acqWrite_kept (lch a : Nat) (bs : List Byte) (h : s.sound) : (s.acqWrite lch a bs).kept := by
  simp [State.acqWrite, h.kept]
@[simp] theorem State.touchMem_kept : s.touchMem.kept ↔ s.kept := by simp [State.touchMem]

/-! ### Modes -/

@[simp] theorem State.setSt_kept (x : ChSt) : (s.setSt c x t).kept ↔ s.kept := by simp [State.setSt]

/-! ### Cap -/

@[simp] theorem State.modCap_kept (f : CapSt → CapSt) : (s.modCap c f).kept ↔ s.kept := .rfl
@[simp] theorem State.sideWrite_kept (bs : List Byte) (h : s.sound) : (s.sideWrite c bs).kept := by simp [State.sideWrite, h.kept]
@[simp] theorem State.side_kept (q : Nat) (bs : List Byte) (h : s.sound) : (s.side c q bs).kept := by
  simp only [State.side]
  (repeat' split) <;> simp [h.kept]
@[simp] theorem State.modRec_kept (q : Nat) (f : Rec → Rec) : (s.modRec c q f).kept ↔ s.kept := .rfl
@[simp] theorem State.flushGap_kept (q : Nat) (b : Bool) (h : s.sound) : (s.flushGap c q b).kept := by
  unfold State.flushGap
  split <;> simp [h.kept]
@[simp] theorem State.flushRng_kept (q : Nat) (b : Bool) (i : Nat) (h : s.sound) : (s.flushRng c q b i).kept := by
  unfold State.flushRng
  split <;> simp [h.kept]
@[simp] theorem State.gapTo_kept (q : Nat) (b : Bool) (i cause : Nat) (h : s.sound) : (s.gapTo c q b i cause).kept := by
  unfold State.gapTo
  split <;> simp [h.kept]
@[simp] theorem State.recSample_kept (q : Nat) (p : Samp) (h : s.sound) : (s.recSample c q p).kept := by
  unfold State.recSample
  split <;> simp [h.kept]
@[simp] theorem State.capSample_kept (p : Samp) (h : s.sound) : (s.capSample c p).kept := by simp [h.kept, State.capSample]
@[simp] theorem State.placeRec_kept (r : Rec) (h : s.sound) : (s.placeRec c r).kept := by
  have hm (m : MemCtl) : { s with mem := m }.kept := h
  simp [State.placeRec, hm]
@[simp] theorem State.takeHist_kept (h : s.sound) : (s.takeHist c).kept := by
  unfold State.takeHist
  split <;> simp [h.kept]
@[simp] theorem State.endRec_kept : (s.endRec c).kept ↔ s.kept := .rfl
@[simp] theorem State.cutRec_kept (fl : Word) : (s.cutRec c b fl).kept ↔ s.kept := by
  unfold State.cutRec
  split <;> simp
@[simp] theorem State.closeStream_kept (h : s.sound) : (s.closeStream c b).kept := by
  have marks {l : List Mark} {f : Mark → List Byte} (q : Nat) : (s.each l fun m s => s.side c q (f m)).kept :=
    State.each_kept_of l (by simp) h
  simp only [State.closeStream]
  split
  · exact h
  · refine (State.modCap_kept ..).mpr <| (State.cutRec_kept ..).mpr <| State.side_kept _ _ _ _ ?_
    split
    · exact State.side_kept _ _ _ _ (marks _)
    · exact marks _
@[simp] theorem State.truncRec_kept : (s.truncRec c b).kept ↔ s.kept := by simp [State.truncRec]
@[simp] theorem State.disarm_kept : (s.disarm c).kept ↔ s.kept := .rfl
@[simp] theorem State.capPark_kept (h : s.sound) : (s.capPark c b).kept := by simp [h.kept, State.capPark]
@[simp] theorem State.openChunk_kept (k0 : Nat) (h : s.sound) : (s.openChunk c k0).kept := by
  simp only [State.openChunk]
  (repeat' split) <;> simp [h.kept]
@[simp] theorem State.streamCheck_kept (h : s.sound) : (s.streamCheck c).kept := by simp [h.kept, State.streamCheck]
@[simp] theorem State.finalize_kept (h : s.sound) : (s.finalize c).kept := by
  unfold State.finalize
  split
  · exact h
  · lift_lets
    intro q la s1 s2 s3 s4 r d hd lanes m1 m2 m3 s5
    have h1 : s1.kept := State.gapTo_kept _ _ _ _ _ _ h
    have h2 : s2.kept := by
      unfold s2
      split
      · exact h1
      · exact State.gapTo_kept _ _ _ _ _ _ h1
    have h4 : s4.kept := State.flushRng_kept _ _ _ _ _ <| State.flushRng_kept _ _ _ _ _ <| State.flushGap_kept _ _ _ _ <|
      State.flushGap_kept _ _ _ _ h2
    clear_value s4
    have put : MemsOk m3 s4.msixTbl s4.fw.imgA s4.fw.imgB s4.clus := h4.acq fun hw => by
      have w2 : Memory.wf m2 = true := Memory.wf_ringPut _ _ _ _ (Memory.wf_ringPut _ _ _ _ hw)
      unfold m3
      split
      · exact w2
      · exact Memory.wf_ringPut _ _ _ _ w2
    exact (State.pedQueue_kept ..).mpr put

/-! ### CalOps -/

@[simp] theorem State.stepOff_kept : (s.stepOff r).kept ↔ s.kept := by simp [State.stepOff]
@[simp] theorem State.stepDiscard_kept : (s.stepDiscard r).kept ↔ s.kept := by simp [State.stepDiscard]
@[simp] theorem State.stepUrgent_kept : (s.stepUrgent c v).kept ↔ s.kept := by simp [State.stepUrgent]
@[simp] theorem State.stepDisturb_kept : (s.stepDisturb c).kept ↔ s.kept := by simp [State.stepDisturb]

/-! ### Force -/

@[simp] theorem State.refreshGates_kept : (s.refreshGates c).kept ↔ s.kept := .rfl
@[simp] theorem State.modTrip_kept (f : TripSt → TripSt) : (s.modTrip c f).kept ↔ s.kept := .rfl
@[simp] theorem State.latchTrip_kept (m : Cmp) : (s.latchTrip c m t).kept ↔ s.kept := by simp [State.latchTrip]
@[simp] theorem State.evalCmp_kept (m : Cmp) : (s.evalCmp c m t).kept ↔ s.kept := by simp [State.evalCmp]
@[simp] theorem State.evalTrip_kept : (s.evalTrip c t).kept ↔ s.kept := by simp [State.evalTrip]
@[simp] theorem State.openWin_kept (i : Fin 5) (len : Nat) (mask : BitVec 4) : (s.openWin c i t len mask).kept ↔ s.kept := by
  simp [State.openWin]
@[simp] theorem State.gateWin_kept : (s.gateWin c t).kept ↔ s.kept := by simp [State.gateWin]
@[simp] theorem State.recalcThr_kept (e : RangeEntry) : (s.recalcThr c e).kept ↔ s.kept := .rfl
@[simp] theorem State.putDac_kept (v : Code) : (s.putDac c v t).kept ↔ s.kept := by simp [State.putDac]
@[simp] theorem State.showDac_kept : (s.showDac c t).kept ↔ s.kept := by
  unfold State.showDac
  split <;> simp
@[simp] theorem State.flushDac_kept : (s.flushDac c).kept ↔ s.kept := .rfl
@[simp] theorem State.firstWrite_kept : (s.firstWrite c).kept ↔ s.kept := .rfl
@[simp] theorem State.pulseEdgeFx_kept (act : Bool) : (s.pulseEdgeFx c act t).kept ↔ s.kept := by simp [State.pulseEdgeFx]
@[simp] theorem State.pulseStart_kept : (s.pulseStart c t).kept ↔ s.kept := by simp [State.pulseStart]
@[simp] theorem State.pulseStop_kept : (s.pulseStop c t).kept ↔ s.kept := by simp [State.pulseStop]
@[simp] theorem State.pulseCheck_kept : (s.pulseCheck c t).kept ↔ s.kept := by simp [State.pulseCheck]
@[simp] theorem State.pulseTrigger_kept (kind : BitVec 2) : (s.pulseTrigger c kind t).kept ↔ s.kept := by simp [State.pulseTrigger]

/-! ### Gen -/

@[simp] theorem State.modGen_kept (f : GenSt → GenSt) : (s.modGen c f).kept ↔ s.kept := .rfl
@[simp] theorem State.genArm_kept : (s.genArm c t).kept ↔ s.kept := .rfl
@[simp] theorem State.genStop_kept : (s.genStop c t).kept ↔ s.kept := by simp [State.genStop]
@[simp] theorem State.genBegin_kept (e : Nat) (back : Bool) : (s.genBegin c e back t).kept ↔ s.kept := by simp [State.genBegin]
@[simp] theorem State.genCommit_kept : (s.genCommit c t).kept ↔ s.kept := by simp [State.genCommit]
@[simp] theorem State.genPassEnd_kept : (s.genPassEnd c t).kept ↔ s.kept := by
  simp only [State.genPassEnd]
  (repeat' split) <;> simp
@[simp] theorem State.genSample_kept : (s.genSample c t).kept ↔ s.kept := by
  simp only [State.genSample]
  (repeat' split) <;> simp
@[simp] theorem State.genAfter_kept : (s.genAfter c t).kept ↔ s.kept := .rfl

/-! ### Chan -/

@[simp] theorem State.modLoop_kept (f : LoopSt → LoopSt) : (s.modLoop c f).kept ↔ s.kept := .rfl
@[simp] theorem State.openEng_kept : (s.openEng c).kept ↔ s.kept := .rfl
@[simp] theorem State.closeEng_kept : (s.closeEng c t).kept ↔ s.kept := by
  unfold State.closeEng
  split <;> simp
@[simp] theorem State.stimFollow_kept : (s.stimFollow c t).kept ↔ s.kept := by simp [State.stimFollow]
@[simp] theorem State.stimStop_kept : (s.stimStop c t).kept ↔ s.kept := by simp [State.stimStop]
@[simp] theorem State.defCancel_kept : (s.defCancel c t).kept ↔ s.kept := by simp [State.defCancel]
@[simp] theorem State.rangeCut_kept : (s.rangeCut c t).kept ↔ s.kept := by
  unfold State.rangeCut
  split <;> simp
@[simp] theorem State.toHeld_kept : (s.toHeld c t).kept ↔ s.kept := by simp [State.toHeld]
@[simp] theorem State.toRun_kept : (s.toRun c t).kept ↔ s.kept := by simp [State.toRun]
@[simp] theorem State.toHeel_kept : (s.toHeel c t).kept ↔ s.kept := by simp [State.toHeel]
@[simp] theorem State.toDraining_kept : (s.toDraining c t).kept ↔ s.kept := by simp [State.toDraining]
@[simp] theorem State.toParked_kept (h : s.sound) : (s.toParked c t).kept := by simp [h.kept, State.toParked]
@[simp] theorem State.toOff_kept (h : s.sound) : (s.toOff c t).kept := by simp [h.kept, State.toOff]
@[simp] theorem State.toTripped_kept (h : s.sound) : (s.toTripped c t).kept := by simp [h.kept, State.toTripped]
@[simp] theorem State.tripAt_kept (h : s.sound) : (s.tripAt c b).kept := by simp [h.kept, State.tripAt]
@[simp] theorem State.hostPark_kept : (s.hostPark c t).kept ↔ s.kept := by
  unfold State.hostPark
  split <;> simp
@[simp] theorem State.toHeldClock_kept : (s.toHeldClock c t).kept ↔ s.kept := by
  unfold State.toHeldClock
  split <;> simp
@[simp] theorem State.applyMode_kept (w : BitVec 8) (h : s.sound) : (s.applyMode c w t).kept := by simp [h.kept, State.applyMode]
@[simp] theorem State.freezeAt_kept (h : s.sound) : (s.freezeAt c t).kept := by simp [h.kept, State.freezeAt]
@[simp] theorem State.freeze_kept (h : s.sound) : (s.freeze c).kept := by simp [h.kept, State.freeze]
@[simp] theorem State.unfreeze_kept : (s.unfreeze c).kept ↔ s.kept := by simp [State.unfreeze]
@[simp] theorem State.chanReset_kept (h : s.sound) : (s.chanReset c t).kept := by simp [h.kept, State.chanReset]

/-! ### Settle -/

@[simp] theorem State.setPState_kept (p : PState) : (s.setPState p).kept ↔ s.kept := by simp [State.setPState]
@[simp] theorem State.settle_kept : s.settle.kept ↔ s.kept := by
  unfold State.settle
  split <;> simp
@[simp] theorem State.eventAt_kept {f : State → State} (h : ∀ s : Sound, (f s.1).kept) {s : State} (hs : s.sound) (tk : Nat) :
    (s.eventAt tk f).kept := by
  have ha : (s.advance tk).kept := (State.advance_kept ..).mpr hs
  exact (State.settle_kept _).mpr (h ⟨_, ha⟩)
@[simp] theorem State.dueAt_kept {f : State → State} (h : ∀ s : Sound, (f s.1).kept) {s : State} (hs : s.sound) (d : Die) (t : Nat) :
    (s.dueAt d t f).kept := by
  have ha : (s.advanceDie d t).kept := (State.advanceDie_kept ..).mpr hs
  exact (State.settle_kept _).mpr (h ⟨_, ha⟩)

/-! ### Thread -/

@[simp] theorem State.setG_kept (t : Thr) (r : BitVec 4) (v : Word) : (s.setG t r v).kept ↔ s.kept := by simp [State.setG]
@[simp] theorem State.setLast_kept (t : Thr) (c : Nat) : (s.setLast t c).kept ↔ s.kept := by simp [State.setLast]
@[simp] theorem State.modBar_kept (b : BarRef) (f : Barrier → Barrier) : (s.modBar b f).kept ↔ s.kept := by
  unfold State.modBar
  split <;> simp
@[simp] theorem State.withdraw_kept (t : Thr) (b : BarRef) : (s.withdraw t b).kept ↔ s.kept := by simp [State.withdraw]
@[simp] theorem State.dropWait_kept (t : Thr) : (s.dropWait t).kept ↔ s.kept := by
  unfold State.dropWait
  (repeat' split) <;> simp
@[simp] theorem State.halt_kept (t : Thr) (cause : Byte) (tf : Nat) (h : s.sound) : (s.halt t cause tf).kept := by
  unfold State.halt
  split <;> simp [h.kept]
theorem State.haltBusy_kept (l : List Thr) (cause : Byte) {s : State} (h : s.sound) :
    (s.each l fun t s => if (s.th t).busy then s.halt t cause (s.issueTick t (s.thNow t)) else s).kept := by
  refine State.each_kept_of l (fun t u => ?_) h
  split
  · exact State.halt_kept _ _ _ _ u.2
  · exact u.2
@[simp] theorem State.threadFault_kept (t : Thr) (cause : Byte) (h : s.sound) : (s.threadFault t cause).kept := by
  unfold State.threadFault
  split <;> simp [h.kept]
theorem State.issue_kept {f : State → Except Byte State} (h : ∀ s u, s.sound → f s = .ok u → u.kept) {s : State}
    (hs : s.sound) (t : Thr) (w : ZWord) (legal tk : Bool) : (s.issue t w legal tk f).kept := by
  have ha : (s.advanceDie (dieOfCl t.cl) (s.nextIssue t)).sound := (State.advanceDie_kept ..).mpr hs
  unfold State.issue
  split
  · exact hs
  · generalize s.advanceDie (dieOfCl t.cl) (s.nextIssue t) = v at ha ⊢
    dsimp only
    rw [State.settle_kept]
    split
    next u hu =>
      split_ifs at hu
      exact h _ u ((MemsOk.modTh_iff ..).mpr ha) hu
    next => exact State.threadFault_kept _ _ _ ha
@[simp] theorem State.issueOk_kept {f : State → State} (h : ∀ s : Sound, (f s.1).kept) {s : State} (hs : s.sound) (t : Thr) (w : ZWord)
    (legal : Bool) : (s.issueOk t w legal f).kept :=
  State.issue_kept (fun s _ hs hu => by cases hu; exact h ⟨s, hs⟩) hs ..
@[simp] theorem State.issueCh_kept {f : Ch → State → State × Nat} (h : ∀ c (s : Sound), (f c s.1).1.kept) {s : State} (hs : s.sound)
    (t : Thr) (w : ZWord) (legal : Bool) : (s.issueCh t w legal f).kept := by
  refine State.issue_kept (fun s u hs hu => ?_) hs ..
  split at hu
  next c _ =>
    cases hu
    exact (State.setLast_kept ..).mpr (h c ⟨s, hs⟩)
  · cases hu
@[simp] theorem State.beginWait_kept (t : Thr) (k : WaitKind) (timeout hit : Option Nat) :
    (s.beginWait t k timeout hit).kept ↔ s.kept := by
  simp [State.beginWait]
@[simp] theorem State.endWait_kept (t : Thr) (w : Wait) (c : Nat) : (s.endWait t w c).kept ↔ s.kept := by simp [State.endWait]

/-! ### Flags -/

@[simp] theorem State.stickTh_kept (t : Thr) (on : Bool) : (s.stickTh t b on).kept ↔ s.kept := by simp [State.stickTh]
@[simp] theorem State.putAlu_kept (t : Thr) (w : ZWord) (v : Word) (ovf : Bool) : (s.putAlu t w v ovf).kept ↔ s.kept := by simp [State.putAlu]

/-! ### Words -/

@[simp] theorem State.writeSpec_kept (t : Thr) (sel : Nat) (v : Word) : (s.writeSpec t sel v).kept ↔ s.kept := by
  unfold State.writeSpec
  (repeat' split) <;> simp
@[simp] theorem State.checkRing_kept (side : Bool) : (s.checkRing c side).kept ↔ s.kept := by simp [State.checkRing]
@[simp] theorem State.ctlEffect_kept (o : Nat) (changed : Bool) : (s.ctlEffect c o t changed).kept ↔ s.kept := by simp [State.ctlEffect]
@[simp] theorem State.writeCtl_kept (o : Nat) (v : Word) (h : s.sound) : (s.writeCtl c o v).kept := by
  unfold State.writeCtl
  split <;> simp [h.kept]
@[simp] theorem State.syncLine_kept (i : Nat) : (s.syncLine n i).kept ↔ s.kept := by simp [State.syncLine]
@[simp] theorem State.tmrEn_kept (i : Fin 8) (en : Bool) : (s.tmrEn n i en t).kept ↔ s.kept := by simp [State.tmrEn]
@[simp] theorem State.writeBlk_kept (o : Nat) (v : Word) (h : s.sound) : (s.writeBlk n o v t).kept := by
  have put := State.setTmem_kept n (0x4000 + o) (v &&& blkMask o) h
  unfold State.writeBlk
  dsimp only
  (repeat' split)
  · exact h
  · exact (State.syncLine_kept ..).mpr put
  · exact (State.tmrEn_kept ..).mpr put
  · exact put
@[simp] theorem State.writeTable_kept (o : Nat) (v : Word) (h : s.sound) : (s.writeTable n o v t).kept := by
  unfold State.writeTable
  split
  · exact State.writeCtl_kept _ _ _ _ h
  · split
    · exact State.writeBlk_kept _ _ _ _ _ h
    · exact State.setTmem_kept n o v h

/-! ### ChanCmd -/

@[simp] theorem State.tripFirst_kept (h : s.sound) : (s.tripFirst c).kept := by simp [h.kept, State.tripFirst]
@[simp] theorem cmdMode_kept (v : Word) (h : s.sound) : (cmdMode v c s).1.kept := by
  simp only [cmdMode]
  (repeat' split) <;> simp [h.kept]
@[simp] theorem cmdSetpoint_kept (v : Word) (h : s.sound) : (cmdSetpoint v c s).1.kept := by
  simp only [cmdSetpoint]
  (repeat' split) <;> simp [h.kept]
@[simp] theorem cmdBase_kept (v : Word) (h : s.sound) : (cmdBase v c s).1.kept := by
  simp only [cmdBase]
  (repeat' split) <;> simp [h.kept]
@[simp] theorem cmdParkcode_kept (v : Word) (h : s.sound) : (cmdParkcode v c s).1.kept := by
  simp only [cmdParkcode]
  (repeat' split) <;> simp [h.kept]
@[simp] theorem cmdClearcode_kept (v : Word) (h : s.sound) : (cmdClearcode v c s).1.kept := by
  simp only [cmdClearcode]
  (repeat' split) <;> simp [h.kept]
@[simp] theorem cmdList_kept (v : Word) (h : s.sound) : (cmdList v c s).1.kept := by
  simp only [cmdList]
  (repeat' split) <;> simp [h.kept]
@[simp] theorem cmdLimit_kept (which : Nat) (v : Word) (h : s.sound) : (cmdLimit which v c s).1.kept := by
  simp only [cmdLimit]
  (repeat' split) <;> simp [h.kept]
@[simp] theorem State.rangeStart_kept (n : Fin 8) (e : RangeEntry) : (s.rangeStart c n e b).kept ↔ s.kept := by simp [State.rangeStart]
@[simp] theorem cmdRange_kept (e : Fin 8) (h : s.sound) : (cmdRange e c s).1.kept := by
  simp only [cmdRange]
  (repeat' split) <;> simp [h.kept]
@[simp] theorem State.param_kept (band : Bool) (i : Nat) (v : Word) (h : s.sound) : (s.param band i v c).1.kept := by
  simp only [State.param]
  (repeat' split) <;> simp [h.kept]
@[simp] theorem cmdLaw_kept (i : Nat) (v : Word) (h : s.sound) : (cmdLaw i v c s).1.kept := by simp [h.kept, cmdLaw]
@[simp] theorem cmdCoef_kept (i : Nat) (v : Word) (h : s.sound) : (cmdCoef i v c s).1.kept := by simp [h.kept, cmdCoef]
@[simp] theorem cmdOpen_kept (h : s.sound) : (cmdOpen c s).1.kept := by
  simp only [cmdOpen]
  (repeat' split) <;> simp [h.kept]
@[simp] theorem State.defer_kept (d : DefMove) : (s.defer c d).kept ↔ s.kept := by simp [State.defer]
@[simp] theorem State.closeParked_kept : (s.closeParked c t).1.kept ↔ s.kept := by
  unfold State.closeParked
  (repeat' split) <;> simp
@[simp] theorem cmdClose_kept (h : s.sound) : (cmdClose c s).1.kept := by
  simp only [cmdClose]
  (repeat' split) <;> simp [h.kept]
@[simp] theorem State.heelWrite_kept (x : Int) (slew : Nat) : (s.heelWrite c x slew).kept ↔ s.kept := .rfl
@[simp] theorem State.heelParked_kept (x : Int) (slew : Nat) : (s.heelParked c x slew t).1.kept ↔ s.kept := by
  unfold State.heelParked
  (repeat' split) <;> simp
@[simp] theorem cmdHeel_kept (v u : Word) (h : s.sound) : (cmdHeel v u c s).1.kept := by
  simp only [cmdHeel]
  (repeat' split) <;> simp [h.kept]
@[simp] theorem cmdPark_kept (slew : Option Nat) (h : s.sound) : (cmdPark slew c s).1.kept := by
  simp only [cmdPark]
  (repeat' split) <;> simp [h.kept]
@[simp] theorem cmdTripclr_kept (h : s.sound) : (cmdTripclr c s).1.kept := by
  simp only [cmdTripclr]
  (repeat' split) <;> simp [h.kept]
@[simp] theorem cmdBlank_kept (mask : BitVec 4) (v : Word) : (cmdBlank mask v c s).1.kept ↔ s.kept := by
  unfold cmdBlank
  split <;> simp

/-! ### AcqCmd -/

@[simp] theorem cmdArm_kept (line : BitVec 5) (h : s.sound) : (cmdArm line c s).1.kept := by
  simp only [cmdArm]
  (repeat' split) <;> simp [h.kept]
@[simp] theorem cmdArmOff_kept (h : s.sound) : (cmdArmOff c s).1.kept := by
  simp only [cmdArmOff]
  (repeat' split) <;> simp [h.kept]
@[simp] theorem cmdStay_kept (edges : Bool) (v : Word) (h : s.sound) : (cmdStay edges v c s).1.kept := by
  simp only [cmdStay]
  (repeat' split) <;> simp [h.kept]
@[simp] theorem cmdRec_kept (p l n : Word) (h : s.sound) : (cmdRec p l n c s).1.kept := by
  simp only [cmdRec]
  (repeat' split) <;> simp [h.kept]
@[simp] theorem cmdStrm_kept (v : Word) (h : s.sound) : (cmdStrm v c s).1.kept := by
  simp only [cmdStrm]
  (repeat' split) <;> simp [h.kept]

/-! ### Arith -/

@[simp] theorem State.alu_kept (t : Thr) (w : ZWord) (mask : BitVec 13) (f : Word → Word → Word × Bool) (h : s.sound) :
    (s.alu t w mask f).kept := by
  simp [State.alu, h.kept]

/-! ### CalCmd -/

@[simp] theorem State.modCal_kept (f : CalSt → CalSt) : (s.modCal c f).kept ↔ s.kept := .rfl
@[simp] theorem State.calDone_kept (code target : Nat) (skewRange : Bool) (resid : Nat) :
    (s.calDone c code target skewRange resid).kept ↔ s.kept := by
  simp [State.calDone]
@[simp] theorem State.trimRamp_kept : (s.trimRamp c t).kept ↔ s.kept := by
  unfold State.trimRamp
  (repeat' split) <;> simp
@[simp] theorem cmdCal_kept (target : Nat) (h : s.sound) : (cmdCal target c s).1.kept := by
  simp only [cmdCal]
  (repeat' split) <;> simp [h.kept]
@[simp] theorem cmdCalgap_kept (mask : Nat) (v : Word) (h : s.sound) : (cmdCalgap mask v c s).1.kept := by
  simp only [cmdCalgap]
  (repeat' split) <;> simp [h.kept]
@[simp] theorem State.sysMeas_kept (full b isI : Bool) (k : Nat) (f : Int) (h : s.sound) : (s.sysMeas full b isI k f c).1.kept := by
  simp only [State.sysMeas]
  (repeat' split) <;> simp [h.kept]
@[simp] theorem cmdSysZero_kept (b isI : Bool) (k : Nat) (h : s.sound) : (cmdSysZero b isI k c s).1.kept := by simp [h.kept, cmdSysZero]
@[simp] theorem cmdSysFull_kept (b isI : Bool) (k : Nat) (v : Word) (h : s.sound) : (cmdSysFull b isI k v c s).1.kept := by simp [h.kept, cmdSysFull]
@[simp] theorem cmdSysApply_kept (b isI : Bool) (h : s.sound) : (cmdSysApply b isI c s).1.kept := by
  simp only [cmdSysApply]
  (repeat' split) <;> simp [h.kept]

/-! ### MeasCmd -/

@[simp] theorem State.modConv_kept (f : ConvSt → ConvSt) : (s.modConv c v f).kept ↔ s.kept := .rfl
@[simp] theorem State.seqSchedule_kept (g : ConvCfg) (named joint : Bool) : (s.seqSchedule c v g named joint b).kept ↔ s.kept := .rfl
@[simp] theorem cmdSeq_kept (na nb : Bool) (h : s.sound) : (cmdSeq na nb c s).1.kept := by
  simp only [cmdSeq]
  (repeat' split) <;> simp [h.kept]
@[simp] theorem State.dropUrgent_kept : (s.dropUrgent c v).kept ↔ s.kept := by simp [State.dropUrgent]
@[simp] theorem State.acceptUrgent_kept : (s.acceptUrgent c v t).kept ↔ s.kept := by simp [State.acceptUrgent]
@[simp] theorem cmdInj_kept (h : s.sound) : (cmdInj v c s).1.kept := by
  simp only [cmdInj]
  (repeat' split) <;> simp [h.kept]
@[simp] theorem cmdAvg_kept (e : Fin 16) (k : Nat) (h : s.sound) : (cmdAvg v e k c s).1.kept := by
  simp only [cmdAvg]
  (repeat' split) <;> simp [h.kept]

/-! ### LoopEv -/

@[simp] theorem State.listBegin_kept (o i : Nat) : (s.listBegin c o i).kept ↔ s.kept := .rfl
@[simp] theorem State.listStep_kept : (s.listStep c t).kept ↔ s.kept := by
  simp only [State.listStep]
  (repeat' split) <;> simp
@[simp] theorem State.ddsStep_kept : (s.ddsStep c t).1.kept ↔ s.kept := by
  simp only [State.ddsStep]
  (repeat' split) <;> simp
@[simp] theorem State.combine_kept : (s.combine c t).1.kept ↔ s.kept := by
  simp only [State.combine]
  (repeat' split) <;> simp
@[simp] theorem State.modeBoundary_kept (h : s.sound) : (s.modeBoundary c t).kept := by
  simp only [State.modeBoundary]
  (repeat' split) <;> simp [h.kept]
@[simp] theorem State.deferredMove_kept (d : DefMove) : (s.deferredMove c d b).kept ↔ s.kept := by
  unfold State.deferredMove
  split <;> simp
@[simp] theorem State.drainEnd_kept (h : s.sound) : (s.drainEnd c b).kept := by
  have park := State.toParked_kept s c b h
  simp only [State.drainEnd]
  (repeat' split) <;> simp [park]
@[simp] theorem State.drainStep_kept (h : s.sound) : (s.drainStep c t).kept := by simp [h.kept, State.drainStep]
@[simp] theorem State.pushPeriod_kept (sp : Int) : (s.pushPeriod c t sp).kept ↔ s.kept := .rfl
@[simp] theorem State.loopBoundary_kept (h : s.sound) : (s.loopBoundary c t).kept := by
  have trip := State.tripAt_kept s c t h
  simp only [State.loopBoundary, State.trimRamp_kept, State.genArm_kept]
  refine State.streamCheck_kept _ _ <| (State.pushPeriod_kept ..).mpr <| (State.combine_kept ..).mpr <|
    State.drainStep_kept _ _ _ <| State.modeBoundary_kept _ _ _ ?_
  (repeat' split) <;> simp [trip]
@[simp] theorem State.computePeriod_kept (p : Period) (h : s.sound) : (s.computePeriod c p).kept := by simp [h.kept, State.computePeriod]

/-! ### RangeEv -/

@[simp] theorem State.dacStep_kept : (s.dacStep c t).kept ↔ s.kept := by
  simp only [State.dacStep]
  (repeat' split) <;> simp
@[simp] theorem State.changeOverEnd_kept : (s.changeOverEnd c t).kept ↔ s.kept := by simp [State.changeOverEnd]
@[simp] theorem State.rangeMake_kept : (s.rangeMake c).kept ↔ s.kept := .rfl
@[simp] theorem State.rangeBreak_kept : (s.rangeBreak c).kept ↔ s.kept := .rfl
@[simp] theorem State.rangeEnd_kept (h : s.sound) : (s.rangeEnd c t).kept := by
  simp only [State.rangeEnd]
  (repeat' split) <;> simp [h.kept]
@[simp] theorem State.pulseStep_kept (p : PulseRun) : (s.pulseStep c p t).kept ↔ s.kept := by simp [State.pulseStep]
@[simp] theorem State.clrChannel_kept : (s.clrChannel c).kept ↔ s.kept := by simp [State.clrChannel]

/-! ### SampleEv -/

@[simp] theorem State.forwardRes_kept (s : State) (c : Ch) (h : s.sound) : (s.forwardRes c).kept := by
  refine State.each_kept_of _ (fun x u => ?_) ?_
  · dsimp only
    split <;> simp
  · exact h
@[simp] theorem State.commitRes_kept (r : Fin 40) (ts : Nat) : (s.commitRes c r w ts).kept ↔ s.kept := by simp [State.commitRes]
@[simp] theorem State.modIv_kept (e : Fin 16) (f : Interval → Interval) : (s.modIv c v e f).kept ↔ s.kept := .rfl
@[simp] theorem State.closeIv_kept (e : Fin 16) (ranging : Bool) : (s.closeIv c v e ranging).kept ↔ s.kept := by simp [State.closeIv]
@[simp] theorem State.closeIvs_kept (ranging : Bool) : (s.closeIvs c v ranging).kept ↔ s.kept := by simp [State.closeIvs]
@[simp] theorem State.closeRanged_kept (ts : Nat) : (s.closeRanged c v ts).kept ↔ s.kept := by simp [State.closeRanged]
@[simp] theorem State.addIv_kept (e : Fin 16) (y : Int) (sat : Bool) (rc : BitVec 3) (ts : Nat) :
    (s.addIv c v e y sat rc ts).kept ↔ s.kept := by
  simp [State.addIv]
@[simp] theorem State.sampleTrig_kept (p : Samp) : (s.sampleTrig c p).kept ↔ s.kept := by simp [State.sampleTrig]
@[simp] theorem State.sysSample_kept (p : Samp) (x : Int) (inp : Nat) : (s.sysSample c p x inp).kept ↔ s.kept := by
  unfold State.sysSample
  split <;> simp
@[simp] theorem State.regularSample_kept (own : Conv) (e : Fin 16) (code : BitVec 16) (ts : Nat) (h : s.sound) :
    (s.regularSample c own v e code ts).kept := by
  simp [h.kept, State.regularSample]
@[simp] theorem State.injSample_kept (j : InjRun) (code : BitVec 16) (ts : Nat) (h : s.sound) : (s.injSample c v j code ts).kept := by
  simp only [State.injSample]
  (repeat' split) <;> simp [h.kept]
@[simp] theorem State.convOp_kept (o : ConvOp) : (s.convOp c v o).kept ↔ s.kept := by
  unfold State.convOp
  split <;> simp
@[simp] theorem State.convOps_kept (ts : Nat) : (s.convOps c v ts).kept ↔ s.kept := by simp [State.convOps]
@[simp] theorem State.sampleIn_kept (code : BitVec 16) (ts : Nat) (h : s.sound) : (s.sampleIn c v code ts).kept := by
  simp only [State.sampleIn]
  (repeat' split) <;> simp [h.kept]
@[simp] theorem State.injBegin_kept : (s.injBegin c v b).kept ↔ s.kept := .rfl
@[simp] theorem State.passStart_kept : (s.passStart c v t).kept ↔ s.kept := by simp [State.passStart]
@[simp] theorem State.takeSeq_kept : (s.takeSeq c v b).kept ↔ s.kept := by
  unfold State.takeSeq
  split <;> simp
@[simp] theorem State.seqCut_kept : (s.seqCut c b).kept ↔ s.kept := by simp [State.seqCut]
@[simp] theorem State.seqEffect_kept (h : s.sound) : (s.seqEffect c v b).kept := by simp [h.kept, State.seqEffect]

/-! ### PedOps -/

@[simp] theorem State.signNext_kept : s.signNext.kept ↔ s.kept := by
  unfold State.signNext
  split <;> simp
@[simp] theorem State.startCkpt_kept (cause : Nat) (w : List Pkt) : (s.startCkpt cause w).kept ↔ s.kept := by simp [State.startCkpt]
@[simp] theorem State.startQuote_kept : (s.startQuote p).kept ↔ s.kept := by simp [State.startQuote]
@[simp] theorem State.pedLow_kept : s.pedLow.kept ↔ s.kept := by simp [State.pedLow]
@[simp] theorem State.pedDone_kept (a : PedAfter) : (s.pedDone a).kept ↔ s.kept := by
  unfold State.pedDone
  split <;> simp
@[simp] theorem State.pedEntry_kept (p : PedEv) : (s.pedEntry p).kept ↔ s.kept := by simp [State.pedEntry]
@[simp] theorem State.pedAppend_kept : s.pedAppend.kept ↔ s.kept := by
  unfold State.pedAppend
  split <;> simp
@[simp] theorem State.secOk_kept (code : Nat) : (s.secOk p code).kept ↔ s.kept := by simp [State.secOk]

/-! ### Season -/

@[simp] theorem State.modPath_kept (path scope : Nat) (f : PathRec → PathRec) : (s.modPath path scope f).kept ↔ s.kept := .rfl
@[simp] theorem State.pathTake_kept (path scope : Nat) (v : Int) : (s.pathTake r path scope v).kept ↔ s.kept := .rfl
@[simp] theorem State.pathClose_kept (path scope : Nat) : (s.pathClose r path scope).kept ↔ s.kept := by simp [State.pathClose]
@[simp] theorem State.planner_kept (s : State) (r : Rg) (chs : List Ch) (entries : List Byte) :
    (s.planner r chs entries).kept ↔ s.kept := by
  have adopt (u : State) (v : Vector Phys 96) : { u with phys := v }.kept ↔ u.kept := .rfl
  have plan (u : State) (n : Nat) (m : MemCtl) (v : Vector Phys 96) : { u with planGen := n, mem := m, phys := v }.kept ↔ u.kept := .rfl
  have speed (u : State) (f : Region → Region) : (u.modRg r f).kept ↔ u.kept := .rfl
  unfold State.planner
  lift_lets
  intro new changed keep s1 g rung narrow step differs n put m s2 s3 words s4 s5
  have h1 : s1.kept ↔ s.kept := adopt s _
  clear_value s1
  have h3 : s3.kept ↔ s.kept := (speed s2 _).trans ((plan s1 ..).trans h1)
  clear_value s3
  have h5 : s5.kept ↔ s.kept := (State.raiseHub_kept ..).trans <| (State.pedQueue_kept ..).trans h3
  exact State.kept_ite h1 <| (State.each_kept _ (fun _ _ => State.latchEvtAt_kept ..) _).trans h5
@[simp] theorem State.cycleClose_kept (s : State) (r : Rg) : (s.cycleClose r).kept ↔ s.kept := by
  unfold State.cycleClose
  dsimp only
  rw [State.planner_kept]
  refine (State.each_kept _ (by simp) _).trans ?_
  rw [State.ite_kept, State.each_kept _ (by intros; rfl), ite_self]
@[simp] theorem State.cycleDrop_kept : (s.cycleDrop r).kept ↔ s.kept := by simp [State.cycleDrop]

/-! ### CalEv -/

@[simp] theorem State.engineFw_kept : (s.engineFw r).kept ↔ s.kept := .rfl
@[simp] theorem State.modReq_kept (slot : Nat) (szn : Bool) (f : EngReq → EngReq) : (s.modReq r slot szn f).kept ↔ s.kept := .rfl
@[simp] theorem State.dropReq_kept (slot : Nat) (szn : Bool) : (s.dropReq r slot szn).kept ↔ s.kept := .rfl
@[simp] theorem State.calCompute_kept (q : EngReq) : (s.calCompute r q).kept ↔ s.kept := by simp [State.calCompute]
@[simp] theorem State.sznTake_kept (q : EngReq) (m : StepMeas) : (s.sznTake r q m).kept ↔ s.kept := by
  unfold State.sznTake
  split <;> simp
@[simp] theorem State.stepDone_kept (m : StepMeas) : (s.stepDone r m).kept ↔ s.kept := by
  simp only [State.stepDone]
  (repeat' split) <;> simp

/-! ### Data -/

@[simp] theorem State.writeData_kept (a : Nat) (v : Word) (h : s.sound) : (s.writeData n a v t).kept := by
  unfold State.writeData
  split
  · exact MemsOk.modCl (fun ⟨hi, hd, ht⟩ => ⟨hi, Memory.wf_setWord _ _ hd, ht⟩) h
  · exact State.writeTable_kept _ _ _ _ _ h
@[simp] theorem State.sendEmit_kept (t : Thr) (ra : BitVec 4) (tag : BitVec 16) (tick : Nat) : (s.sendEmit t ra tag tick).kept ↔ s.kept := by
  unfold State.sendEmit
  split <;> simp

/-! ### RecordEv -/

@[simp] theorem State.openRec_kept (r : Rec) (te : Nat) (h : s.sound) : (s.openRec c r te).kept := by simp [h.kept, State.openRec]
@[simp] theorem State.openMark_kept (first last te : Nat) (h : s.sound) : (s.openMark c first last te).kept := by simp [h.kept, State.openMark]
@[simp] theorem State.judge_kept (te : Nat) (h : s.sound) : (s.judge c te).kept := by simp [h.kept, State.judge]
@[simp] theorem State.edgeUrgent_kept (line : Nat) : (s.edgeUrgent c v line).kept ↔ s.kept := by simp [State.edgeUrgent]
@[simp] theorem State.edgePass_kept (line : Nat) : (s.edgePass c v line).kept ↔ s.kept := by simp [State.edgePass]
@[simp] theorem State.edgeGen_kept (line : Nat) : (s.edgeGen c line).kept ↔ s.kept := .rfl
@[simp] theorem State.edgeCh_kept (i te : Nat) (h : s.sound) : (s.edgeCh c i te).kept := by simp [h.kept, State.edgeCh]
@[simp] theorem State.edgeThread_kept (t : Thr) (i : Nat) : (s.edgeThread t i).kept ↔ s.kept := by simp [State.edgeThread]
@[simp] theorem State.edgePack_kept (i te : Nat) : (s.edgePack n i te).kept ↔ s.kept := .rfl

/-! ### GenCmd -/

@[simp] theorem cmdSeg_kept (d : Fin 16) : (cmdSeg d c s).1.kept ↔ s.kept := by
  simp only [cmdSeg]
  (repeat' split) <;> simp
@[simp] theorem cmdJump_kept : (cmdJump c s).1.kept ↔ s.kept := by
  simp only [cmdJump]
  (repeat' split) <;> simp
@[simp] theorem cmdRate_kept (m n : Word) : (cmdRate m n c s).1.kept ↔ s.kept := by
  unfold cmdRate
  (repeat' split) <;> simp
@[simp] theorem cmdMark_kept (w : Bool) (v : Word) : (cmdMark w v c s).1.kept ↔ s.kept := by
  simp only [cmdMark]
  (repeat' split) <;> simp

/-! ### Packet -/

@[simp] theorem State.accept_kept : (s.accept p).kept ↔ s.kept := by
  unfold State.accept
  split <;> simp
@[simp] theorem State.begin_kept {f : State → State} (h : ∀ s : Sound, (f s.1).kept) (s : State) (p : Pkt) (hs : s.sound) :
    (s.begin_ p f).kept := by
  unfold State.begin_
  split
  · split
    · simpa using hs
    · exact h ⟨_, (State.mark_kept ..).mpr hs⟩
  · exact h ⟨_, (State.mark_kept ..).mpr hs⟩
@[simp] theorem State.runPkt_kept {f : State → State} (h : ∀ s : Sound, (f s.1).kept) (s : State) (p : Pkt) (hs : s.sound)
    (type : Byte) :
    (s.runPkt p type f).kept := by
  refine State.eventAt_kept (fun s => ?_) hs _
  dsimp only
  split
  · exact s.2
  · have ha : (if s.1.isItem p then s.1 else s.1.accept p).kept := by simp
    generalize (if s.1.isItem p then s.1 else s.1.accept p) = s at ha
    split
    · exact State.begin_kept h s p ha
    · exact ha
@[simp] theorem State.abortItems_kept (code : Byte) (f : Pkt → Bool) : (s.abortItems code f).kept ↔ s.kept := by simp [State.abortItems]

/-! ### HostPkt -/

@[simp] theorem State.loadTable_kept (s : State) (n : Cl) (o t : Nat) (l : List Byte) (h : s.sound) : (s.loadTable n o t l).kept := by
  induction s, o, l using State.loadTable.induct n t with
  | case1 s o b0 b1 b2 b3 l ih =>
    rw [State.loadTable]
    exact ih (State.writeTable_kept _ _ _ _ _ h)
  | case2 s o l hl =>
    rw [State.loadTable]
    · exact h
    · exact hl
@[simp] theorem State.takePlan_kept (t : Thr) : (s.takePlan t c).kept ↔ s.kept := by simp [State.takePlan]
@[simp] theorem State.startThread_kept (r0 : Nat) (t : Thr) : (s.startThread p r0 t).kept ↔ s.kept := by
  unfold State.startThread
  split <;> simp
@[simp] theorem chanOp_kept (i : Instr) (v u : Word) (h : s.sound) : (chanOp i v w u c s).1.kept := by
  simp only [chanOp]
  (repeat' split) <;> simp [h.kept]

/-! ### HubPkt -/

@[simp] theorem State.fwResume_kept : s.fwResume.kept ↔ s.kept := by simp [State.fwResume]

/-! ### SecPkt -/

@[simp] theorem State.moveChs_kept (s : State) (type : Byte) (j k : Ctx) (l : List Ch) : (s.moveChs type j k l).kept ↔ s.kept := by
  simp [State.moveChs]
@[simp] theorem State.provision_kept : (s.provision p).kept ↔ s.kept := by
  unfold State.provision
  split <;> simp

/-! ### Power -/

@[simp] theorem State.convLost_kept : (s.convLost c v t).kept ↔ s.kept := by simp [State.convLost]
@[simp] theorem State.convBack_kept : (s.convBack c v t).kept ↔ s.kept := by simp [State.convBack]
@[simp] theorem State.chLost_kept : (s.chLost c t).kept ↔ s.kept := by simp [State.chLost]
@[simp] theorem State.rgLost_kept : (s.rgLost r).kept ↔ s.kept := by simp [State.rgLost]
@[simp] theorem State.rgLostEvent_kept (power : Bool) : (s.rgLostEvent r power).kept ↔ s.kept := by simp [State.rgLostEvent]
@[simp] theorem State.freePhases_kept : (s.freePhases d).kept ↔ s.kept := by simp [State.freePhases]
@[simp] theorem State.dieStart_kept : (s.dieStart d).kept ↔ s.kept := by simp [State.dieStart]
@[simp] theorem State.closeWins_kept : (s.closeWins c).kept ↔ s.kept := by simp [State.closeWins]
@[simp] theorem State.pstateFollow_kept : s.pstateFollow.kept ↔ s.kept := by
  unfold State.pstateFollow
  split <;> simp
@[simp] theorem State.downCh_kept (h : s.sound) : (s.downCh c).kept := by
  simp only [State.downCh]
  (repeat' split) <;> simp [h.kept]
@[simp] theorem State.downStart_kept (h : s.sound) : (s.downStart r).kept := by simp [h.kept, State.downStart]
@[simp] theorem State.downEnd_kept (s : State) (r : Rg) : (s.downEnd r).kept ↔ s.kept := by simp [State.downEnd]
@[simp] theorem State.finalizeAll_kept (h : s.sound) : (s.finalizeAll c).kept :=
  State.each_kept_of _ (fun _ u => State.finalize_kept _ _ (State.forwardRes_kept u.1 c u.2)) h
@[simp] theorem State.upCh_kept (unres act : BitVec 4) (h : s.sound) : (s.upCh c unres act).kept := by
  have fin := State.finalizeAll_kept s c h
  simp [State.upCh, fin]
theorem Cluster.sramOk_powerUp {k : Cluster} (h : k.sramOk) : k.powerUp.sramOk := by
  obtain ⟨hi, hd, ht⟩ := h
  have imem : k.powerUp.imem = k.imem := by simp only [Cluster.powerUp]
  have dmem : k.powerUp.dmem = k.dmem := by simp only [Cluster.powerUp]
  rw [Cluster.sramOk, imem, dmem, Cluster.powerUp_tmem]
  exact ⟨hi, hd, Memory.wf_tmemReset ht⟩
@[simp] theorem State.upEnd_kept (s : State) (r : Rg) (unres act : BitVec 64) (h : s.sound) : (s.upEnd r unres act).kept := by
  have up (n : Cl) (u : Sound) : (u.1.modCl n Cluster.powerUp).kept := MemsOk.modCl Cluster.sramOk_powerUp u.2
  have phys (l : List Ch) (f : Phys → Phys) (u : State) :
      (u.each l fun p s => { s with phys := s.phys.set p.1 (f (s.phys.get p)) p.2 }).kept ↔ u.kept :=
    State.each_kept l (by intros; rfl) u
  unfold State.upEnd
  refine (State.pstateFollow_kept _).mpr <| (State.raiseHub_kept ..).mpr <|
    State.each_kept_of _ (by simp) <| (phys _ Phys.powerUp _).mpr <| State.each_kept_of _ up ?_
  simpa using h.kept
@[simp] theorem State.upNext_kept : s.upNext.kept ↔ s.kept := by simp [State.upNext]
@[simp] theorem State.upDone_kept : s.upDone.kept ↔ s.kept := by simp [State.upDone]
@[simp] theorem State.relockStart_kept (p q : Nat) (h : s.sound) : (s.relockStart r p q).kept := by simp [h.kept, State.relockStart]
@[simp] theorem State.relockEnd_kept (p q : Nat) : (s.relockEnd r p q).kept ↔ s.kept := by simp [State.relockEnd]

/-! ### PowerPkt -/

@[simp] theorem State.pwrState_kept (h : s.sound) : (s.pwrState p).kept := by
  unfold State.pwrState
  split <;> simp [h.kept]
@[simp] theorem State.regionPwr_kept (s : State) (p : Pkt) (h : s.sound) : (s.regionPwr p).kept := by
  have up (l : List Rg) (u : State) : (u.each l fun r s => s.modRg r fun g => { g with seqUp := true }).kept ↔ u.kept :=
    State.each_kept l (by intros; rfl) u
  simp [h.kept, State.regionPwr, up]
@[simp] theorem State.thermalDown_kept (h : s.sound) : (s.thermalDown r).kept :=
  State.downStart_kept _ _ (State.each_kept_of _ (fun _ u => State.haltBusy_kept _ _ u.2) h)

/-! ### DieEv -/

@[simp] theorem State.lateWait_kept (t : Thr) : (s.lateWait t).kept ↔ s.kept := by simp [State.lateWait]
@[simp] theorem State.realign_kept (s : State) (d : Die) : (s.realign d).kept ↔ s.kept := by
  have counted (u : State) (v : Vector Nat 2) : { u with dieTick := v }.kept ↔ u.kept := .rfl
  have clusters (u : State) (x : Int) : (u.each (clsOfDie d) fun n s => s.modCl n (Cluster.shift x)).kept ↔ u.kept :=
    State.each_kept _ (fun k _ => MemsOk.modCl_iff k _ ⟨rfl, rfl, rfl⟩) u
  have regions (u : State) (x : Int) : (u.each (rgsOfDie d) fun r s => s.modRg r (Region.shift x)).kept ↔ u.kept :=
    State.each_kept _ (by intros; rfl) u
  have channels (u : State) (f : State → Ch → Channel → Channel) : (u.each (chsOfDie d) fun c s => s.modCh c (f s c)).kept ↔ u.kept :=
    State.each_kept _ (by intros; rfl) u
  refine (State.each_kept _ (fun _ s => State.each_kept _ (fun t s => State.lateWait_kept s t) s) _).trans ?_
  refine (counted ..).trans <| (regions ..).trans <| (clusters ..).trans ?_
  exact channels s fun u c h => h.shift ((s.tick : Int) - s.dt d) fun k => u.idxAt c (sh ((s.tick : Int) - s.dt d) (u.sTick c k))
@[simp] theorem State.checkDie_kept : (s.checkDie d).kept ↔ s.kept := by
  unfold State.checkDie
  dsimp only
  rw [State.ite_kept, State.raiseHub_kept, State.latchAll_kept, State.pedQueue_kept, State.realign_kept, ite_self]
@[simp] theorem State.haltDie_kept (h : s.sound) : (s.haltDie d).kept :=
  State.each_kept_of _ (fun _ u => State.haltBusy_kept _ _ u.2) h
@[simp] theorem State.cutReceived_kept (h : s.sound) : (s.cutReceived c).kept := by simp [h.kept, State.cutReceived]
@[simp] theorem State.clusterFault_kept (cause : Byte) (h : s.sound) : (s.clusterFault n cause).kept := by
  have halted := State.haltBusy_kept (thrsOf n) causeClusterHalt
    (State.each_kept_of (chsOfCl n) (f := fun c s => s.freeze c) (fun c u => State.freeze_kept _ _ u.2) h)
  simp [State.clusterFault, halted]

/-! ### FabricEv -/

@[simp] theorem State.releaseHeld_kept (s : State) (n : Src) (l : List HeldEv) : (s.releaseHeld n l).kept ↔ s.kept := by
  induction l generalizing s with
  | nil => rfl
  | cons h l ih =>
    unfold State.releaseHeld
    split <;> simp [ih]
@[simp] theorem State.pendClear_kept (n : Src) : (s.pendClear n).kept ↔ s.kept := .rfl

/-! ### Flow -/

@[simp] theorem State.setPc_kept (t : Thr) (n : Nat) : (s.setPc t n).kept ↔ s.kept := by simp [State.setPc]

/-! ### GenEv -/

@[simp] theorem State.genStart_kept (t0 : Nat) (late : Bool) : (s.genStart c t0 late).kept ↔ s.kept := by simp [State.genStart]
@[simp] theorem State.startSize_kept : (s.startSize c).kept ↔ s.kept := .rfl
@[simp] theorem State.fetchBlock_kept (q : Seg) (next : Bool) (blk ab : Nat) (h : s.sound) : (s.fetchBlock c q next blk ab).kept := by
  have put (o : Nat) (l : List Byte) : (s.modCl (clOf c) fun k => { k with tmem := memSetBytes k.tmem o l }).kept :=
    MemsOk.modCl (fun ⟨hi, hd, ht⟩ => ⟨hi, hd, Memory.wf_setBytes _ _ ht⟩) h
  unfold State.fetchBlock
  dsimp only
  split
  · exact put _ _
  · exact (State.modGen_kept ..).mpr <| (State.logUe_kept ..).mpr <| (State.logUe_kept ..).mpr <| put _ _

/-! ### PackEv -/

@[simp] theorem State.packStick_kept : (s.packStick b).kept ↔ s.kept := .rfl
@[simp] theorem State.setRef_kept (on : Bool) : (s.setRef on).kept ↔ s.kept := by simp [State.setRef]
@[simp] theorem State.packProbe_kept : s.packProbe.kept ↔ s.kept := .rfl
@[simp] theorem State.packForm_kept : s.packForm.kept ↔ s.kept := by simp [State.packForm]
@[simp] theorem State.shiftHub_kept (d : Int) : (s.shiftHub d).kept ↔ s.kept := .rfl
@[simp] theorem State.loadTick_kept : (s.loadTick t).kept ↔ s.kept := by simp [State.loadTick]
@[simp] theorem State.alignLost_kept (cause : Nat) : (s.alignLost cause).kept ↔ s.kept := by simp [State.alignLost]

/-! ### MemEv -/

@[simp] theorem State.modMem_kept (f : MemCtl → MemCtl) : (s.modMem f).kept ↔ s.kept := .rfl
@[simp] theorem State.askRetrain_kept : s.askRetrain.kept ↔ s.kept := .rfl
@[simp] theorem State.countCe_kept (sub : Fin 4) : (s.countCe sub).kept ↔ s.kept := by simp [State.countCe]

/-! ### ResetOps -/

@[simp] theorem State.haltAll_kept (h : s.sound) : s.haltAll.kept :=
  State.each_kept_of _ (fun _ u => State.haltBusy_kept _ _ u.2) (State.each_kept_of _ (by simp) h)
@[simp] theorem State.packageFault_kept (h : s.sound) : s.packageFault.kept :=
  State.each_kept_of _ (by simp) (State.haltAll_kept _ (State.each_kept_of _ (by simp) h))
@[simp] theorem State.hubFault_kept (cause : Byte) (h : s.sound) : (s.hubFault cause).kept := by
  have fault : s.packageFault.sound := State.packageFault_kept s h
  unfold State.hubFault
  obtain ⟨u, e⟩ := s.packageFault.hide
  rw [e] at fault ⊢
  exact fault
@[simp] theorem State.pkgReset_kept (cause : Fin 5) (h : s.sound) : (s.pkgReset cause).kept := by
  have fault : s.packageFault.sound := State.packageFault_kept s h
  unfold State.pkgReset
  obtain ⟨u, e⟩ := s.packageFault.hide
  rw [e] at fault ⊢
  refine (MemsOk.map_iff _ ?_).mpr fault
  exact fun _ => ⟨rfl, rfl, rfl⟩
@[simp] theorem State.pinReset_kept (cause : Fin 5) (straps : BitVec 2) (test : Bool) (h : s.sound) :
    (s.pinReset cause straps test).kept := by
  have reset : (s.pkgReset cause).sound := State.pkgReset_kept s cause h
  unfold State.pinReset
  obtain ⟨u, e⟩ := (s.pkgReset cause).hide
  rw [e] at reset ⊢
  exact reset
@[simp] theorem State.resumeChain_kept : s.resumeChain.kept ↔ s.kept := .rfl
@[simp] theorem State.pedAppendN_kept (m : Nat) (s : State) : (State.pedAppendN m s).kept ↔ s.kept := by
  induction m generalizing s with
  | zero => rfl
  | succ m ih => simp [State.pedAppendN, ih]
@[simp] theorem Fw.setValid_imgA (f : Fw) (b v : Bool) : (f.setValid b v).imgA = f.imgA := by cases b <;> rfl
@[simp] theorem Fw.setValid_imgB (f : Fw) (b v : Bool) : (f.setValid b v).imgB = f.imgB := by cases b <;> rfl
@[simp] theorem State.boot_kept (s : State) : s.boot.kept ↔ s.kept := by
  unfold State.boot
  lift_lets
  intro _ s1 s2 hub fw sec
  have h2 : s2.kept ↔ s.kept := by simp [s2, s1]
  clear_value s2
  split
  next => simpa using h2
  next b _ =>
    lift_lets
    intro fell s3 fresh s4 s5 hub s6 s7 s8
    have h3 : s3.kept ↔ s.kept := by simpa [s3, fw] using h2
    clear_value s3
    have h4 : s4.kept ↔ s.kept := State.kept_ite ((State.resumeChain_kept s3).trans h3) h3
    clear_value s4
    have h6 : s6.kept ↔ s.kept := by simpa [s6, s5] using h4
    clear_value s6
    have h7 : s7.kept ↔ s.kept := (State.pedAppendN_kept ..).trans h6
    have h8 : s8.kept ↔ s.kept := State.kept_ite ((State.startCkpt_kept ..).trans <| (State.raiseHub_kept ..).trans h7) h7
    exact State.kept_ite ((State.raiseHub_kept ..).trans h8) h8

/-! ### Regs -/

@[simp] theorem State.capture_kept (x : Captured) : (s.capture x).kept ↔ s.kept := .rfl
@[simp] theorem State.linkUse_kept : s.linkUse.kept ↔ s.kept := .rfl
@[simp] theorem State.onPage_kept {f : State → State} (h : ∀ s : Sound, (f s.1).kept) {s : State} (hs : s.sound) (k : Ctx) :
    (s.onPage k f).kept := by
  have hl : s.linkUse.sound := hs
  unfold State.onPage
  dsimp only
  split
  · exact h ⟨_, hl⟩
  · exact (State.violBell_kept ..).mpr hl
@[simp] theorem State.judgeBell_kept (kind : Bool) (b : Bell) : (s.judgeBell k kind b).kept ↔ s.kept := by simp [State.judgeBell]
@[simp] theorem State.regDenied_kept (a : Nat) : (s.regDenied k a).kept ↔ s.kept := by simp [State.regDenied]
@[simp] theorem State.hubCtl_kept (h : s.sound) : (s.hubCtl k w).kept := by simp [h.kept, State.hubCtl]
@[simp] theorem State.packCtl_kept : (s.packCtl w).kept ↔ s.kept := by simp [State.packCtl]
@[simp] theorem State.checkWindow_kept : (s.checkWindow k).kept ↔ s.kept := by simp [State.checkWindow]
@[simp] theorem State.writeWindow_kept (high : Bool) : (s.writeWindow k high w).kept ↔ s.kept := by simp [State.writeWindow]
theorem State.regHub_kept (s : State) (k : Ctx) (a : Nat) (w : Word) (hs : s.sound) : ∀ u ∈ s.regHub k a w, u.kept := by
  have one (x : State) (h : x.kept) : ∀ u ∈ some x, u.kept := State.forall_mem_some h
  unfold State.regHub
  refine State.forall_mem_ite (one _ ?_) <| State.forall_mem_ite (one _ ?_) <| State.forall_mem_dite (fun _ => one _ ?_) <|
    State.forall_mem_ite (one _ ?_) <| State.forall_mem_ite (one _ ?_) <| State.forall_mem_ite (one _ ?_) <|
    State.forall_mem_ite (one _ ?_) <| State.forall_mem_ite (one _ ?_) <| State.forall_mem_dite (fun _ => one _ ?_) <|
    State.forall_mem_dite (fun _ => one _ ?_) <| State.forall_mem_ite (one _ ?_) <| State.forall_mem_ite (one _ ?_) <|
    State.forall_mem_ite (one _ ?_) <| State.forall_mem_dite (fun _ => one _ ?_) fun _ h => ?none
  case none => cases h
  all_goals simp [hs.kept]
theorem State.regRegion_getD_kept (s u : State) (r : Rg) (szn : Bool) (o : Nat) (w : Word) (h : s.sound) (hu : u.sound) :
    ((s.regRegion r szn o w).getD u).kept := by
  unfold State.regRegion
  split <;> simp [h.kept, hu.kept]
@[simp] theorem State.regWrite_kept (s : State) (k : Ctx) (a : Nat) (w : Word) (h : s.sound) : (s.regWrite k a w).kept := by
  have hub : ((s.regHub k a w).getD (s.regDenied k a)).kept := by
    cases e : s.regHub k a w with
    | none => simp [h.kept]
    | some u => exact State.regHub_kept s k a w h u e
  unfold State.regWrite
  dsimp only
  repeat' split
  all_goals simp [State.regRegion_getD_kept, hub, h.kept]
@[simp] theorem State.crBusy_kept (off : Nat) : (s.crBusy k off).kept ↔ s.kept := by simp [State.crBusy]
@[simp] theorem State.crWord_kept (n : Fin 4) (d : DWord) : (s.crWord k n d).kept ↔ s.kept := by simp [State.crWord]
@[simp] theorem State.writeRecap_kept (m : Nat) (s : State) (k : Ctx) (i r : RingNo) (l : List (Hdr × Nat)) (total left : Nat) :
    (State.writeRecap m s k i r l total left).kept ↔ s.kept := by
  induction m generalizing s l with
  | zero => rfl
  | succ m ih => simp [State.writeRecap, ih]
@[simp] theorem State.forget_kept (r : RingNo) : (s.forget k r).kept ↔ s.kept := .rfl
@[simp] theorem State.resumeRing_kept (r : RingNo) (posted : List Hdr) : (s.resumeRing k r posted).kept ↔ s.kept := by simp [State.resumeRing]
@[simp] theorem State.freshRing_kept (r : RingNo) (old : Ring) (l : List (Hdr × Nat)) : (s.freshRing k r old l).kept ↔ s.kept := by
  simp [State.freshRing]
@[simp] theorem State.enableCr_kept (s : State) (k : Ctx) (fresh : Bool) (posted : List (RingNo × Hdr)) :
    (s.enableCr k fresh posted).kept ↔ s.kept := by
  unfold State.enableCr
  dsimp only
  split
  · rw [State.each_kept _ (by simp)]
    exact State.each_kept _ (by intros; rfl) _
  · rw [State.each_kept _ (by simp), State.ite_kept]
    split <;> rfl
@[simp] theorem State.crEnable_kept (fresh : Bool) (posted : List (RingNo × Hdr)) : (s.crEnable k fresh posted).kept ↔ s.kept := by
  simp [State.crEnable]
@[simp] theorem State.pageWrite_kept (w : PageWrite) (h : s.sound) : (s.pageWrite k w).kept := by
  unfold State.pageWrite
  split <;> simp [h.kept]
@[simp] theorem State.judgeCaptured_kept (s : State) (h : s.sound) : s.judgeCaptured.kept := by
  unfold State.judgeCaptured
  refine State.each_kept_of _ (fun x s => ?_) h
  split <;> split <;> simp
@[simp] theorem State.bell_kept (kind : Bool) (b : Bell) (h : s.sound) : (s.bell k kind b).kept := by simp [h.kept, State.bell]
@[simp] theorem State.regwr_kept (a : Nat) (h : s.sound) : (s.regwr k a w).kept := by simp [h.kept, State.regwr]
@[simp] theorem State.otherWrite_kept (w : PageWrite) (h : s.sound) : (s.otherWrite k w).kept := by
  unfold State.otherWrite
  split <;> simp [h.kept]

/-! ### LinkEv -/

@[simp] theorem State.serveOne_kept (r : RingNo) (f : Fetched) : (s.serveOne k r f).1.kept ↔ s.kept := by
  simp only [State.serveOne]
  (repeat' split) <;> simp
@[simp] theorem State.serve_kept (s : State) (k : Ctx) (r : RingNo) (l : List Fetched) : (s.serve k r l).kept ↔ s.kept := by
  induction l generalizing s with
  | nil => rfl
  | cons f l ih => simp only [State.serve, State.ite_kept, ih, State.serveOne_kept, ite_self]
@[simp] theorem State.credit_kept (r : RingNo) : (s.credit k r).kept ↔ s.kept := by simp [State.credit]
@[simp] theorem State.descFault_kept (r : RingNo) : (s.descFault k r).kept ↔ s.kept := by simp [State.descFault]

/-! ### ResetEv -/

/-- The body of `hubDown` around any loop over any channels, so that the kernel has no list to run. -/
theorem State.hubDown_body_kept {u : State} (h : u.sound) (last : BitVec 3) (dies : Bool) (l : List Ch)
    {f : Ch → State → State} (hf : ∀ c (s : Sound), (f c s.1).kept) :
    (let s := { u with vlog := [], vlogHead := 0, vlogTotal := 0, cache := [], aon := { u.aon with lastReset := last } }
     if !dies then s
     else
      let s := s.each l f
      let s := { s with rgn := s.rgn.map Region.powerDown }
      let s := { s with die := s.die.map fun _ => { linkUp := true, clkOk := false, replay := false } }
      s.pstateFollow).kept := by
  simp [h.kept, hf]
@[simp] theorem State.hubDown_kept (s : State) (dies : Bool) (h : s.sound) : (s.hubDown dies).kept :=
  State.hubDown_body_kept (State.pkgReset_kept s 3 h) s.aon.lastReset dies allChs
    (f := fun c s => if (s.ch c).st == .off then s else s.toOff c (s.now c)) (by simp)
@[simp] theorem State.rgSupplyFall_kept (s : State) (b : Nat) : (s.rgSupplyFall b).kept ↔ s.kept := by
  unfold State.rgSupplyFall
  dsimp only
  rw [State.upDone_kept, State.upNext_kept, State.raiseHub_kept, State.each_kept _ fun r s => State.each_kept _ (by intros; rfl) s,
    State.each_kept _ (by simp)]
@[simp] theorem State.ddrFall_kept (h : s.sound) : s.ddrFall.kept := h.acq fun _ => Memory.wf_nil
@[simp] theorem State.flushOut_kept (m : Nat) (s : State) : (State.flushOut m s).kept ↔ s.kept := by
  induction m generalizing s with
  | zero => rfl
  | succ m ih =>
    unfold State.flushOut
    split <;> simp [ih]
@[simp] theorem State.wakeBy_kept (src : BitVec 3) : (s.wakeBy src).kept ↔ s.kept := by simp [State.wakeBy]

/-! ### Waits -/

@[simp] theorem State.waitNow_kept (t : Thr) (status : Nat) : (s.waitNow t status).kept ↔ s.kept := by simp [State.waitNow]
@[simp] theorem State.releaseBar_kept (s : State) (b : BarRef) (r : Nat) : (s.releaseBar b r).kept ↔ s.kept := by
  unfold State.releaseBar
  rw [State.each_kept, State.modBar_kept]
  intro t s
  (repeat' split) <;> simp
@[simp] theorem State.releaseDue_kept (b : BarRef) (now : Nat) : (s.releaseDue b now).kept ↔ s.kept := by
  unfold State.releaseDue
  split <;> simp
@[simp] theorem State.sync_kept (t : Thr) (w : ZWord) (b : BarRef) (mask : BitVec 12) : (s.sync t w b mask).kept ↔ s.kept := by
  simp [State.sync]

end

end Sys2Proof.Machine
end

section
/-! PROOFS. Every row of the machine, and with it every step, keeps the memories in canonical form (log 4). -/

namespace Sys2Proof.Machine

/-! ## The rows -/

/-- The state that an outcome answers, where it answers one, has its memories in canonical form. -/
def EndsKept (o : Host.Outcome State Fault Refusal) : Prop := ∀ u, o = .next u → u.kept

@[simp] theorem endsKept_next (u : State) : EndsKept (.next u) ↔ u.kept := by simp [EndsKept]

theorem EndsKept.eventAt {f : State → State} (h : ∀ s : Sound, (f s.1).kept) {s : State} (hs : s.sound) (tk : Nat) :
    EndsKept (.next (s.eventAt tk f)) := (endsKept_next _).mpr (State.eventAt_kept h hs tk)

theorem EndsKept.runPkt {f : State → State} (h : ∀ s : Sound, (f s.1).kept) {s : State} (hs : s.sound) (p : Pkt) (type : Byte) :
    EndsKept (.next (s.runPkt p type f)) := (endsKept_next _).mpr (State.runPkt_kept h s p hs type)

theorem EndsKept.issue {f : State → Except Byte State} (h : ∀ s u, s.sound → f s = .ok u → u.kept) {s : State} (hs : s.sound)
    (t : Thr) (w : ZWord) (legal tk : Bool) : EndsKept (.next (s.issue t w legal tk f)) :=
  (endsKept_next _).mpr (State.issue_kept h hs t w legal tk)

theorem EndsKept.issueOk {f : State → State} (h : ∀ s : Sound, (f s.1).kept) {s : State} (hs : s.sound) (t : Thr) (w : ZWord)
    (legal : Bool) : EndsKept (.next (s.issueOk t w legal f)) := (endsKept_next _).mpr (State.issueOk_kept h hs t w legal)

section
variable (s : State) (c : Ch) (t : Thr) (tk : Nat) (p : Pkt) (k : Ctx) (n : Cl) (r : Rg) (d : Die) (v : Conv) (w : ZWord)

/-! ### ChanCmd -/

@[simp] theorem execMode_kept (h : s.sound) : EndsKept (execMode t w s) := by simp [execMode, h.kept]
@[simp] theorem execForceSetpoint_kept (h : s.sound) : EndsKept (execForceSetpoint t w s) := by simp [execForceSetpoint, h.kept]
@[simp] theorem execForceBase_kept (h : s.sound) : EndsKept (execForceBase t w s) := by simp [execForceBase, h.kept]
@[simp] theorem execForceParkcode_kept (h : s.sound) : EndsKept (execForceParkcode t w s) := by simp [execForceParkcode, h.kept]
@[simp] theorem execForceClearcode_kept (h : s.sound) : EndsKept (execForceClearcode t w s) := by simp [execForceClearcode, h.kept]
@[simp] theorem execForceList_kept (h : s.sound) : EndsKept (execForceList t w s) := by simp [execForceList, h.kept]
@[simp] theorem execLimit_kept (h : s.sound) : EndsKept (execLimit t w s) := by simp [execLimit, h.kept]
@[simp] theorem execRange_kept (h : s.sound) : EndsKept (execRange t w s) := by simp [execRange, h.kept]
@[simp] theorem execLaw_kept (h : s.sound) : EndsKept (execLaw t w s) := by simp [execLaw, h.kept]
@[simp] theorem execCoef_kept (h : s.sound) : EndsKept (execCoef t w s) := by simp [execCoef, h.kept]
@[simp] theorem execOpenLoop_kept (h : s.sound) : EndsKept (execOpenLoop t w s) := by simp [execOpenLoop, h.kept]
@[simp] theorem execCloseLoop_kept (h : s.sound) : EndsKept (execCloseLoop t w s) := by simp [execCloseLoop, h.kept]
@[simp] theorem execHeel_kept (h : s.sound) : EndsKept (execHeel t w s) := by simp [execHeel, h.kept]
@[simp] theorem execPark_kept (h : s.sound) : EndsKept (execPark t w s) := by simp [execPark, h.kept]
@[simp] theorem execTripclr_kept (h : s.sound) : EndsKept (execTripclr t w s) := by simp [execTripclr, h.kept]
@[simp] theorem execBlank_kept (h : s.sound) : EndsKept (execBlank t w s) := by simp [execBlank, h.kept]

/-! ### AcqCmd -/

@[simp] theorem execArm_kept (h : s.sound) : EndsKept (execArm t w s) := by simp [execArm, h.kept]
@[simp] theorem execArmOff_kept (h : s.sound) : EndsKept (execArmOff t w s) := by simp [execArmOff, h.kept]
@[simp] theorem execStay_kept (h : s.sound) : EndsKept (execStay t w s) := by simp [execStay, h.kept]
@[simp] theorem execRecSet_kept (h : s.sound) : EndsKept (execRecSet t w s) := by simp [execRecSet, h.kept]
@[simp] theorem execStrm_kept (h : s.sound) : EndsKept (execStrm t w s) := by simp [execStrm, h.kept]

/-! ### Arith -/

@[simp] theorem execAdd_kept (h : s.sound) : EndsKept (execAdd t w s) := by simp [execAdd, h.kept]
@[simp] theorem execSub_kept (h : s.sound) : EndsKept (execSub t w s) := by simp [execSub, h.kept]
@[simp] theorem execMul_kept (h : s.sound) : EndsKept (execMul t w s) := by simp [execMul, h.kept]
@[simp] theorem execShl_kept (h : s.sound) : EndsKept (execShl t w s) := by simp [execShl, h.kept]
@[simp] theorem execShr_kept (h : s.sound) : EndsKept (execShr t w s) := by simp [execShr, h.kept]
@[simp] theorem execAnd_kept (h : s.sound) : EndsKept (execAnd t w s) := by simp [execAnd, h.kept]
@[simp] theorem execOr_kept (h : s.sound) : EndsKept (execOr t w s) := by simp [execOr, h.kept]
@[simp] theorem execXor_kept (h : s.sound) : EndsKept (execXor t w s) := by simp [execXor, h.kept]
@[simp] theorem execMin_kept (h : s.sound) : EndsKept (execMin t w s) := by simp [execMin, h.kept]
@[simp] theorem execMax_kept (h : s.sound) : EndsKept (execMax t w s) := by simp [execMax, h.kept]
@[simp] theorem execSat_kept (h : s.sound) : EndsKept (execSat t w s) := by simp [execSat, h.kept]
@[simp] theorem execMov_kept (h : s.sound) : EndsKept (execMov t w s) := by simp [execMov, h.kept]
@[simp] theorem execLdi_kept (h : s.sound) : EndsKept (execLdi t w s) := by simp [execLdi, h.kept]

/-! ### CalCmd -/

@[simp] theorem execCal_kept (h : s.sound) : EndsKept (execCal t w s) := by simp [execCal, h.kept]
@[simp] theorem execCalRes_kept (h : s.sound) : EndsKept (execCalRes t w s) := by
  refine EndsKept.issue (fun s u hs hu => ?_) h t w _ _
  split at hu <;> cases hu
  simp [hs.kept]
@[simp] theorem execCalgap_kept (h : s.sound) : EndsKept (execCalgap t w s) := by simp [execCalgap, h.kept]
@[simp] theorem execSyscalZero_kept (h : s.sound) : EndsKept (execSyscalZero t w s) := by simp [execSyscalZero, h.kept]
@[simp] theorem execSyscalFull_kept (h : s.sound) : EndsKept (execSyscalFull t w s) := by simp [execSyscalFull, h.kept]
@[simp] theorem execSyscalApply_kept (h : s.sound) : EndsKept (execSyscalApply t w s) := by simp [execSyscalApply, h.kept]
@[simp] theorem execSyscalTimeout_kept (h : s.sound) : EndsKept (execSyscalTimeout tk c s) := by
  refine EndsKept.eventAt (fun s => ?_) h _
  (repeat' split) <;> simp

/-! ### MeasCmd -/

@[simp] theorem execSeq_kept (h : s.sound) : EndsKept (execSeq t w s) := by simp [execSeq, h.kept]
@[simp] theorem execInj_kept (h : s.sound) : EndsKept (execInj t w s) := by simp [execInj, h.kept]
@[simp] theorem execAvg_kept (h : s.sound) : EndsKept (execAvg t w s) := by simp [execAvg, h.kept]
@[simp] theorem execRead_kept (h : s.sound) : EndsKept (execRead t w s) := by
  refine EndsKept.issue (fun s u hs hu => ?_) h t w _ _
  split at hu <;> cases hu
  simp [hs.kept]

/-! ### LoopEv -/

@[simp] theorem execLoopPeriodBoundary_kept (h : s.sound) : EndsKept (execLoopPeriodBoundary c s) := by simp [execLoopPeriodBoundary, h.kept]
@[simp] theorem execLoopCompute_kept (h : s.sound) : EndsKept (execLoopCompute c s) := by
  unfold execLoopCompute
  split <;> simp [h.kept]

/-! ### RangeEv -/

@[simp] theorem execDacUpdate_kept (h : s.sound) : EndsKept (execDacUpdate tk c s) := by simp [execDacUpdate, h.kept]
@[simp] theorem execDeglitchHoldEnd_kept (h : s.sound) : EndsKept (execDeglitchHoldEnd c s) := by
  unfold execDeglitchHoldEnd
  split
  · refine (endsKept_next _).mpr (State.dueAt_kept (fun s => ?_) h _ _)
    exact s.2
  · simp [h.kept]
@[simp] theorem execOutTypeChangeoverEnd_kept (h : s.sound) : EndsKept (execOutTypeChangeoverEnd c s) := by
  unfold execOutTypeChangeoverEnd
  split <;> simp [h.kept]
@[simp] theorem execRangeMake_kept (h : s.sound) : EndsKept (execRangeMake c s) := by
  unfold execRangeMake
  split <;> simp [h.kept]
@[simp] theorem execRangeBreak_kept (h : s.sound) : EndsKept (execRangeBreak c s) := by
  unfold execRangeBreak
  split <;> simp [h.kept]
@[simp] theorem execRangeRelease_kept (h : s.sound) : EndsKept (execRangeRelease c s) := by
  unfold execRangeRelease
  split <;> simp [h.kept]
@[simp] theorem execDrainComplete_kept (h : s.sound) : EndsKept (execDrainComplete c s) := by
  have ends (t : Nat) (u : Sound) : (if ((u.1.tripAt c t).ch c).st == .draining then (u.1.tripAt c t).drainEnd c t else u.1.tripAt c t).kept := by
    have ht : (u.1.tripAt c t).sound := by simp
    simp [ht.kept]
  unfold execDrainComplete
  split
  · exact (endsKept_next _).mpr (State.dueAt_kept (ends _) h _ _)
  · simp [h.kept]
@[simp] theorem execPulseEdge_kept (h : s.sound) : EndsKept (execPulseEdge tk c s) := by
  refine EndsKept.eventAt (fun s => ?_) h _
  (repeat' split) <;> simp
@[simp] theorem execComparatorActive_kept (m : Cmp) (h : s.sound) : EndsKept (execComparatorActive tk c m s) := by simp [execComparatorActive, h.kept]
@[simp] theorem execComparatorInactive_kept (m : Cmp) (h : s.sound) : EndsKept (execComparatorInactive tk c m s) := by
  simp [execComparatorInactive, h.kept]
@[simp] theorem execBlankingWindowEnd_kept (win : Fin 5) (h : s.sound) : EndsKept (execBlankingWindowEnd c win s) := by
  simp [execBlankingWindowEnd, h.kept]
@[simp] theorem execEnterTripped_kept (h : s.sound) : EndsKept (execEnterTripped tk c s) := by simp [execEnterTripped, h.kept]
@[simp] theorem execClrNFall_kept (ns : Nat) (h : s.sound) : EndsKept (execClrNFall tk ns s) := by simp [execClrNFall, h.kept]
@[simp] theorem execClrOverrideEnd_kept (h : s.sound) : EndsKept (execClrOverrideEnd tk c s) := by simp [execClrOverrideEnd, h.kept]

/-! ### SampleEv -/

@[simp] theorem execSampleDelivered_kept (ts : Nat) (code : BitVec 16) (h : s.sound) : EndsKept (execSampleDelivered ts c v code s) := by
  unfold execSampleDelivered
  split <;> simp [h.kept]
@[simp] theorem execInjSequenceBegin_kept (h : s.sound) : EndsKept (execInjSequenceBegin tk c v s) := by simp [execInjSequenceBegin, h.kept]
@[simp] theorem execSeqTakesEffect_kept (h : s.sound) : EndsKept (execSeqTakesEffect tk c v s) := by simp [execSeqTakesEffect, h.kept]
@[simp] theorem execQuietStartupEnd_kept (h : s.sound) : EndsKept (execQuietStartupEnd tk c v s) := by
  refine EndsKept.eventAt (fun s => ?_) h _
  dsimp only
  split <;> simp
@[simp] theorem execResultReadLow_kept (r : Fin 40) (h : s.sound) : EndsKept (execResultReadLow tk c r s) := by simp [execResultReadLow, h.kept]
@[simp] theorem execResultReadHigh_kept (r : Fin 40) (h : s.sound) : EndsKept (execResultReadHigh tk c r s) := by simp [execResultReadHigh, h.kept]

/-! ### PedOps -/

@[simp] theorem execPedigreeAppend_kept (h : s.sound) : EndsKept (execPedigreeAppend tk s) := by simp [execPedigreeAppend, h.kept]
@[simp] theorem execSigningComplete_kept (h : s.sound) : EndsKept (execSigningComplete tk s) := by
  refine EndsKept.eventAt (fun s => ?_) h _
  dsimp only
  (repeat' split) <;> simp

/-! ### Season -/

@[simp] theorem execSeasoningCycleStart_kept (h : s.sound) : EndsKept (execSeasoningCycleStart tk r s) := by simp [execSeasoningCycleStart, h.kept]
@[simp] theorem execSeasoningCycleEnd_kept (h : s.sound) : EndsKept (execSeasoningCycleEnd tk r s) := by simp [execSeasoningCycleEnd, h.kept]

/-! ### CalEv -/

@[simp] theorem execCalStepStart_kept (h : s.sound) : EndsKept (execCalStepStart tk r s) := by
  refine EndsKept.eventAt (fun s => ?_) h _
  dsimp only
  (repeat' split) <;> simp
@[simp] theorem execCalStepEnd_kept (m : StepMeas) (h : s.sound) : EndsKept (execCalStepEnd tk r m s) := by simp [execCalStepEnd, h.kept]
@[simp] theorem execCalAck_kept (h : s.sound) : EndsKept (execCalAck tk c s) := by
  refine EndsKept.eventAt (fun s => ?_) h _
  dsimp only
  (repeat' split) <;> simp
@[simp] theorem execCalTimeout_kept (h : s.sound) : EndsKept (execCalTimeout tk c s) := by
  refine EndsKept.eventAt (fun s => ?_) h _
  dsimp only
  split <;> simp

/-! ### Data -/

@[simp] theorem execLd_kept (t : Thr) (w : ZWord) (h : s.sound) : EndsKept (execLd t w s) := by
  refine EndsKept.issue (fun s u hs hu => ?_) h t w _ _
  dsimp only at hu
  split at hu <;> cases hu
  simp [hs.kept]
@[simp] theorem execSt_kept (t : Thr) (w : ZWord) (h : s.sound) : EndsKept (execSt t w s) := by
  refine EndsKept.issue (fun s u hs hu => ?_) h t w _ _
  dsimp only at hu
  repeat' split at hu
  all_goals cases hu
  simp [hs.kept]
@[simp] theorem execMovs_kept (h : s.sound) : EndsKept (execMovs t w s) := by simp [execMovs, h.kept]
@[simp] theorem execMovd_kept (h : s.sound) : EndsKept (execMovd t w s) := by simp [execMovd, h.kept]
@[simp] theorem execEvt_kept (h : s.sound) : EndsKept (execEvt t w s) := by
  unfold execEvt
  split <;> simp [h.kept]
@[simp] theorem execEmit_kept (h : s.sound) : EndsKept (execEmit t w s) := by simp [execEmit, h.kept]
@[simp] theorem execEmitCreditAvailable_kept (h : s.sound) : EndsKept (execEmitCreditAvailable tk t s) := by
  refine EndsKept.eventAt (fun s => ?_) h _
  dsimp only
  (repeat' split) <;> simp

/-! ### RecordEv -/

@[simp] theorem execTriggerLineEdge_kept (i : Fin 32) (level : Bool) (te : Nat) (h : s.sound) :
    EndsKept (execTriggerLineEdge tk n i level te s) := by
  refine EndsKept.eventAt (fun s => ?_) h tk
  dsimp only
  repeat' split
  all_goals simp
@[simp] theorem execRecordEnd_kept (h : s.sound) : EndsKept (execRecordEnd tk c s) := by
  refine EndsKept.eventAt (fun s => ?_) h _
  (repeat' split) <;> simp
@[simp] theorem execRecordFinalize_kept (h : s.sound) : EndsKept (execRecordFinalize tk c s) := by
  refine EndsKept.eventAt (fun s => ?_) h _
  (repeat' split) <;> simp
@[simp] theorem execChunkEnd_kept (h : s.sound) : EndsKept (execChunkEnd tk c s) := by simp [execChunkEnd, h.kept]
@[simp] theorem execMarkSpanClose_kept (h : s.sound) : EndsKept (execMarkSpanClose tk c s) := by
  refine EndsKept.eventAt (fun s => ?_) h _
  dsimp only
  split <;> simp
@[simp] theorem execSideRoomReturn_kept (h : s.sound) : EndsKept (execSideRoomReturn tk c s) := by simp [execSideRoomReturn, h.kept]

/-! ### GenCmd -/

@[simp] theorem execSeg_kept (h : s.sound) : EndsKept (execSeg t w s) := by simp [execSeg, h.kept]
@[simp] theorem execJump_kept (h : s.sound) : EndsKept (execJump t w s) := by simp [execJump, h.kept]
@[simp] theorem execRate_kept (h : s.sound) : EndsKept (execRate t w s) := by simp [execRate, h.kept]
@[simp] theorem execMark_kept (h : s.sound) : EndsKept (execMark t w s) := by simp [execMark, h.kept]

/-! ### HostPkt -/

@[simp] theorem execNop_kept (h : s.sound) : EndsKept (execNop p s) := by simp [execNop, h.kept]
@[simp] theorem execRingCreate_kept (h : s.sound) : EndsKept (execRingCreate p s) := by simp [execRingCreate, h.kept]
@[simp] theorem execRingDestroy_kept (h : s.sound) : EndsKept (execRingDestroy p s) := by
  refine EndsKept.runPkt (fun s => ?_) h p _
  dsimp only
  (repeat' split) <;> simp
@[simp] theorem execRingQuery_kept (h : s.sound) : EndsKept (execRingQuery p s) := by simp [execRingQuery, h.kept]
@[simp] theorem execLoad_kept (h : s.sound) : EndsKept (execLoad p s) := by
  refine EndsKept.runPkt (fun s => ?_) h p _
  have put : ∀ f : Cluster → Cluster, (∀ k, k.sramOk → (f k).sramOk) → (s.1.modCl (destCl p.hdr) f).kept :=
    fun f hf => MemsOk.modCl (hf _) s.2
  dsimp only
  split
  · simp
  rw [State.ok_kept]
  split
  · exact put _ fun _ ⟨hi, hd, ht⟩ => ⟨Memory.wf_setBytes _ _ hi, hd, ht⟩
  · exact put _ fun _ ⟨hi, hd, ht⟩ => ⟨hi, Memory.wf_setBytes _ _ hd, ht⟩
  all_goals simp
@[simp] theorem execMemrd_kept (h : s.sound) : EndsKept (execMemrd p s) := by
  refine EndsKept.runPkt (fun s => ?_) h p _
  dsimp only
  (repeat' split) <;> simp [-State.logUe_clus]
@[simp] theorem execStart_kept (h : s.sound) : EndsKept (execStart p s) := by simp [execStart, h.kept]
@[simp] theorem execStop_kept (h : s.sound) : EndsKept (execStop p s) := by
  refine EndsKept.runPkt (fun s => ?_) h p _
  rw [State.ok_kept]
  exact State.haltBusy_kept _ _ s.2
@[simp] theorem execPoke_kept (h : s.sound) : EndsKept (execPoke p s) := by
  refine EndsKept.runPkt (fun s => ?_) h p _
  simp
@[simp] theorem execChcmd_kept (h : s.sound) : EndsKept (execChcmd p s) := by
  simp only [execChcmd, endsKept_next]
  (repeat' split) <;> simp [h.kept]
@[simp] theorem execResults_kept (h : s.sound) : EndsKept (execResults p s) := by simp [execResults, h.kept]
@[simp] theorem execReadout_kept (h : s.sound) : EndsKept (execReadout p s) := by
  refine EndsKept.runPkt (fun s => ?_) h p _
  dsimp only
  (repeat' split) <;> simp [-State.logUe_clus]

/-! ### HubPkt -/

@[simp] theorem execRefAssign_kept (h : s.sound) : EndsKept (execRefAssign p s) := by simp [execRefAssign, h.kept]
@[simp] theorem execPairReinstall_kept (h : s.sound) : EndsKept (execPairReinstall p s) := by simp [execPairReinstall, h.kept]
@[simp] theorem execSznReport_kept (h : s.sound) : EndsKept (execSznReport p s) := by simp [execSznReport, h.kept]
@[simp] theorem execFwLoad_kept (h : s.sound) : EndsKept (execFwLoad p s) := by
  refine EndsKept.runPkt (fun s => ?_) h p _
  obtain ⟨ha, hm, hx, hy, hc⟩ := s.2
  dsimp only
  generalize hf : (if fld p.hdr.arg0 0 32 = 0 then s.1.fw.setValid (!s.1.fw.slot) false else s.1.fw) = f
  have hA : Memory.wf f.imgA = true := by subst hf; split <;> simpa using hx
  have hB : Memory.wf f.imgB = true := by subst hf; split <;> simpa using hy
  have hI : Memory.wf (f.img (!s.1.fw.slot)) = true := by unfold Fw.img; split <;> assumption
  have stored (l : List Byte) : ({ s.1 with fw := { f.setImg (!s.1.fw.slot) (memSetBytes (f.img (!s.1.fw.slot)) (fld p.hdr.arg0 0 32) l) with
      loadPos := fld p.hdr.arg0 0 32 + p.payload.length } } : State).kept := by
    have hI := Memory.wf_setBytes (fld p.hdr.arg0 0 32) l hI
    unfold Fw.setImg
    split
    · exact ⟨ha, hm, hA, hI, hc⟩
    · exact ⟨ha, hm, hI, hB, hc⟩
  repeat' split
  all_goals simp only [State.ok_kept, State.failed_kept, State.kept, Fw.setValid_imgA, Fw.setValid_imgB]
  all_goals exact stored _
@[simp] theorem execFwActivate_kept (h : s.sound) : EndsKept (execFwActivate p s) := by simp [execFwActivate, h.kept]
@[simp] theorem execFwSwitch_kept (h : s.sound) : EndsKept (execFwSwitch tk s) := by simp [execFwSwitch, h.kept]
@[simp] theorem execFwActivated_kept (h : s.sound) : EndsKept (execFwActivated tk s) := by simp [execFwActivated, h.kept]
@[simp] theorem execFwReverted_kept (h : s.sound) : EndsKept (execFwReverted tk s) := by simp [execFwReverted, h.kept]

/-! ### SecPkt -/

@[simp] theorem execIdGet_kept (h : s.sound) : EndsKept (execIdGet p s) := by simp [execIdGet, h.kept]
@[simp] theorem execQuote_kept (h : s.sound) : EndsKept (execQuote p s) := by simp [execQuote, h.kept]
@[simp] theorem execCheckpoint_kept (h : s.sound) : EndsKept (execCheckpoint p s) := by
  refine EndsKept.runPkt (fun s => ?_) h p _
  dsimp only
  (repeat' split) <;> simp
@[simp] theorem execPedRead_kept (h : s.sound) : EndsKept (execPedRead p s) := by
  refine EndsKept.runPkt (fun s => ?_) h p _
  dsimp only
  (repeat' split) <;> simp [-State.logUe_clus]
@[simp] theorem execPedCfg_kept (h : s.sound) : EndsKept (execPedCfg p s) := by simp [execPedCfg, h.kept]
@[simp] theorem execCtxOpen_kept (h : s.sound) : EndsKept (execCtxOpen p s) := by simp [execCtxOpen, h.kept]
@[simp] theorem execCtxMove_kept (h : s.sound) : EndsKept (execCtxMove p s) := by simp [execCtxMove, h.kept]
@[simp] theorem execCtxClose_kept (h : s.sound) : EndsKept (execCtxClose p s) := by
  have shut (u : State) (k : Ctx) (f : CtxState → CtxState) : (u.modCtx k f).kept ↔ u.kept := .rfl
  refine EndsKept.runPkt (fun s => ?_) h p _
  dsimp only
  split
  · exact (State.secOk_kept ..).mpr s.2
  split
  · exact (State.secOk_kept ..).mpr s.2
  have moved := (State.moveChs_kept s.1 0x5A (argCtx p 0) 0 (allChs.filter fun c => s.1.owner.get c == argCtx p 0)).mpr s.2
  generalize s.1.moveChs 0x5A (argCtx p 0) 0 _ = u at moved ⊢
  have closed := (State.disableRings_kept u (argCtx p 0)).mpr moved
  split
  · exact (State.secOk_kept ..).mpr ((shut ..).mpr closed)
  · exact closed
@[simp] theorem execSvnCommit_kept (h : s.sound) : EndsKept (execSvnCommit p s) := by
  refine EndsKept.runPkt (fun s => ?_) h p _
  dsimp only
  split <;> simp
@[simp] theorem execProvisionXref_kept (h : s.sound) : EndsKept (execProvisionXref p s) := by simp [execProvisionXref, h.kept]
@[simp] theorem execProvisionSsid_kept (h : s.sound) : EndsKept (execProvisionSsid p s) := by simp [execProvisionSsid, h.kept]
@[simp] theorem execProvisionMemorg_kept (h : s.sound) : EndsKept (execProvisionMemorg p s) := by simp [execProvisionMemorg, h.kept]

/-! ### PowerPkt -/

@[simp] theorem execPwrStateDeepSleep_kept (h : s.sound) : EndsKept (execPwrStateDeepSleep p s) := by simp [execPwrStateDeepSleep, h.kept]
@[simp] theorem execPwrStateStandby_kept (h : s.sound) : EndsKept (execPwrStateStandby p s) := by simp [execPwrStateStandby, h.kept]
@[simp] theorem execRegionPwrUp_kept (h : s.sound) : EndsKept (execRegionPwrUp p s) := by simp [execRegionPwrUp, h.kept]
@[simp] theorem execRegionPwrDown_kept (h : s.sound) : EndsKept (execRegionPwrDown p s) := by simp [execRegionPwrDown, h.kept]
@[simp] theorem execSclkSet_kept (h : s.sound) : EndsKept (execSclkSet p s) := by simp [execSclkSet, h.kept]
@[simp] theorem execChReset_kept (h : s.sound) : EndsKept (execChReset p s) := by
  refine EndsKept.runPkt (fun s => ?_) h p _
  have reset (c : Ch) (t : Nat) (u : State) (hu : u.sound) : ((u.chanReset c t).unfreeze c).kept := by simp [hu.kept]
  rw [State.secOk_kept]
  exact reset _ _ _ (State.tripFirst_kept _ _ s.2)
@[simp] theorem execWakeAt_kept (h : s.sound) : EndsKept (execWakeAt p s) := by simp [execWakeAt, h.kept]
@[simp] theorem execRegionUp_kept (unres act : BitVec 64) (h : s.sound) : EndsKept (execRegionUp tk r unres act s) := by
  refine EndsKept.eventAt (fun s => ?_) h _
  have up : (s.1.upEnd r unres act).sound := by simp
  dsimp only
  (repeat' split) <;> simp [up.kept]
@[simp] theorem execRegionDown_kept (h : s.sound) : EndsKept (execRegionDown tk r s) := by simp [execRegionDown, h.kept]
@[simp] theorem execSclkLocked_kept (h : s.sound) : EndsKept (execSclkLocked tk r s) := by
  refine EndsKept.eventAt (fun s => ?_) h _
  dsimp only
  split <;> simp
@[simp] theorem execSampleClockLost_kept (power : Bool) (h : s.sound) : EndsKept (execSampleClockLost tk r power s) := by
  simp [execSampleClockLost, h.kept]
@[simp] theorem execSampleClockReturn_kept (h : s.sound) : EndsKept (execSampleClockReturn tk r s) := by
  refine EndsKept.eventAt (fun s => ?_) h _
  dsimp only
  split
  · simp
  refine State.each_kept_of _ (fun c u => ?_) s.2
  have back : ((u.1.convBack c .a (u.1.now c)).convBack c .b (u.1.now c)).sound := by simp
  (repeat' split) <;> simp [back.kept]
@[simp] theorem execRefFault_kept (h : s.sound) : EndsKept (execRefFault tk r s) := by simp [execRefFault, h.kept]
@[simp] theorem execThermalSample_kept (temp : Int) (h : s.sound) : EndsKept (execThermalSample tk r temp s) := by
  refine EndsKept.eventAt (fun s => ?_) h _
  dsimp only
  split
  · simp
  rw [State.ite_kept]
  generalize (decide (105 ≤ temp) && !(s.1.rg r).warned && (s.1.rg r).on) = b
  cases b <;> split <;> simp

/-! ### DieEv -/

@[simp] theorem execTickCheck_kept (h : s.sound) : EndsKept (execTickCheck tk s) := by simp [execTickCheck, h.kept]
@[simp] theorem execDieLinkCrcFail_kept (h : s.sound) : EndsKept (execDieLinkCrcFail tk d s) := by
  refine EndsKept.eventAt (fun s => ?_) h tk
  exact s.2
@[simp] theorem execDieLinkDown_kept (h : s.sound) : EndsKept (execDieLinkDown tk d s) := by
  have cut (u : State) (hu : u.sound) : ((u.each (chsOfDie d) fun c s => s.cutReceived c).each (chsOfDie d) fun c s => s.freeze c).sound :=
    State.each_kept_of _ (by simp) (State.each_kept_of _ (by simp) hu)
  have drained (u : State) : (u.each (clsOfDie d) fun n s => s.modCl n fun k => { k with intake := 0 }).kept ↔ u.kept :=
    State.each_kept _ (fun n s => MemsOk.modCl_iff n _ ⟨rfl, rfl, rfl⟩) u
  refine EndsKept.eventAt (fun s => ?_) h tk
  dsimp only
  split
  · simp
  rw [drained]
  refine State.haltDie_kept _ _ (cut _ ?_)
  simp
@[simp] theorem execDieClockLost_kept (h : s.sound) : EndsKept (execDieClockLost tk d s) := by
  refine EndsKept.eventAt (fun s => ?_) h _
  have frozen : (s.1.each (chsOfDie d) fun c s => (s.freeze c).closeWins c).sound := State.each_kept_of _ (by simp) s.2
  dsimp only
  split <;> simp [frozen.kept]
@[simp] theorem execDieLinkReturn_kept (h : s.sound) : EndsKept (execDieLinkReturn tk d s) := by simp [execDieLinkReturn, h.kept]
theorem State.pllLock_kept (phases : List (Fin 9)) (h : s.sound) : (s.pllLock d phases).kept := by
  unfold State.pllLock
  rw [State.each_kept (f := fun p s => s.setPhase p) _ fun p s => MemsOk.modCl_iff p.1 _ ⟨rfl, rfl, rfl⟩]
  exact (State.realign_kept ..).mpr h
@[simp] theorem execDieCorePllLock_kept (phases : List (Fin 9)) (h : s.sound) : EndsKept (execDieCorePllLock tk d phases s) := by
  refine EndsKept.eventAt (fun s => ?_) h tk
  dsimp only
  split
  · simp
  · exact State.pllLock_kept _ _ _ s.2
@[simp] theorem execClusterHalt_kept (cl : Cl) (cause : Byte) (h : s.sound) : EndsKept (execClusterHalt tk cl cause s) := by
  simp [execClusterHalt, h.kept]

/-! ### FabricEv -/

@[simp] theorem execQueueIntegrity_kept (q : QueueRef) (second : Nat) (h : s.sound) : EndsKept (execQueueIntegrity tk q second s) := by
  refine EndsKept.eventAt (fun s => ?_) h _
  dsimp only
  (repeat' split) <;> simp
@[simp] theorem execCoalesceWindowEnd_kept (n : Src) (h : s.sound) : EndsKept (execCoalesceWindowEnd tk n s) := by
  refine EndsKept.eventAt (fun s => ?_) h _
  (repeat' split) <;> simp
@[simp] theorem execHeldPacketRelease_kept (n : Src) (h : s.sound) : EndsKept (execHeldPacketRelease tk n s) := by simp [execHeldPacketRelease, h.kept]

/-! ### Flow -/

@[simp] theorem execJmp_kept (t : Thr) (w : ZWord) (h : s.sound) : EndsKept (execJmp t w s) := by
  refine EndsKept.issue (fun s u hs hu => ?_) h t w _ _
  cases e : s.jumpTo t w <;> rw [e] at hu <;> cases hu
  simp [hs.kept]
@[simp] theorem execBrCond_kept (h : s.sound) : EndsKept (execBrCond t w s) := by simp [execBrCond, h.kept]
@[simp] theorem execCall_kept (t : Thr) (w : ZWord) (h : s.sound) : EndsKept (execCall t w s) := by
  refine EndsKept.issue (fun s u hs hu => ?_) h t w _ _
  split at hu
  · cases hu
  · cases e : s.jumpTo t w <;> rw [e] at hu <;> cases hu
    simp [hs.kept]
@[simp] theorem execRet_kept (h : s.sound) : EndsKept (execRet t w s) := by
  refine EndsKept.issueOk (fun s => ?_) h t w _
  split <;> simp
@[simp] theorem execLoop_kept (h : s.sound) : EndsKept (execLoop t w s) := by simp [execLoop, h.kept]

/-! ### GenEv -/

@[simp] theorem execGeneratorStart_kept (h : s.sound) : EndsKept (execGeneratorStart tk c s) := by
  refine EndsKept.eventAt (fun s => ?_) h _
  dsimp only
  split <;> simp
@[simp] theorem execGeneratorSample_kept (h : s.sound) : EndsKept (execGeneratorSample c s) := by simp [execGeneratorSample, h.kept]
@[simp] theorem execFetchBlockArrival_kept (next : Bool) (block : Nat) (h : s.sound) : EndsKept (execFetchBlockArrival tk c next block s) := by
  refine EndsKept.eventAt (fun s => ?_) h _
  dsimp only
  (repeat' split) <;> simp
@[simp] theorem execMarkerEdge_kept (m1 level : Bool) (h : s.sound) : EndsKept (execMarkerEdge tk c m1 level s) := by
  refine EndsKept.eventAt (fun s => ?_) h _
  (repeat' split) <;> simp
@[simp] theorem execTrgEdge_kept (pin : Fin 16) (rising fast : Bool) (h : s.sound) :
    EndsKept (execTrgEdge tk pin rising fast s) := by simp [execTrgEdge, h.kept]
@[simp] theorem execClusterTimerExpiry_kept (i : Fin 8) (h : s.sound) : EndsKept (execClusterTimerExpiry n i s) := by
  unfold execClusterTimerExpiry
  split
  · refine (endsKept_next _).mpr (State.dueAt_kept (fun s => ?_) h _ _)
    dsimp only
    split
    · simp
    · exact MemsOk.modCl (fun ⟨hi, hd, ht⟩ => ⟨hi, hd, Memory.wf_setWord _ _ ht⟩) s.2
  · simp [h.kept]

/-! ### PackEv -/

@[simp] theorem execProbeReturn_kept (rtt : BitVec 16) (h : s.sound) : EndsKept (execProbeReturn tk rtt s) := by simp [execProbeReturn, h.kept]
@[simp] theorem execOriginPulse_kept (h : s.sound) : EndsKept (execOriginPulse tk s) := by
  refine EndsKept.eventAt (fun s => ?_) h _
  dsimp only
  split <;> simp
@[simp] theorem execFormTimeout_kept (h : s.sound) : EndsKept (execFormTimeout tk s) := by
  refine EndsKept.eventAt (fun s => ?_) h _
  dsimp only
  split <;> simp
@[simp] theorem execPackTriggerDrive_kept (n : Fin 8) (h : s.sound) : EndsKept (execPackTriggerDrive tk n s) := by
  refine EndsKept.eventAt (fun s => ?_) h _
  dsimp only
  split <;> simp
@[simp] theorem execPackTriggerLanding_kept (n : Fin 8) (h : s.sound) : EndsKept (execPackTriggerLanding tk n s) := by
  simp [execPackTriggerLanding, h.kept]
@[simp] theorem execPackKeepPulse_kept (h : s.sound) : EndsKept (execPackKeepPulse tk s) := by simp [execPackKeepPulse, h.kept]
@[simp] theorem execKeepPulseMissing_kept (h : s.sound) : EndsKept (execKeepPulseMissing tk s) := by simp [execKeepPulseMissing, h.kept]
@[simp] theorem execPackClkLost_kept (h : s.sound) : EndsKept (execPackClkLost tk s) := by simp [execPackClkLost, h.kept]

/-! ### MemEv -/

@[simp] theorem execRetrainStart_kept (h : s.sound) : EndsKept (execRetrainStart tk s) := by simp [execRetrainStart, h.kept]
@[simp] theorem execTrainingComplete_kept (eyes : Vector (Nat × Nat) 4) (h : s.sound) : EndsKept (execTrainingComplete tk eyes s) := by
  refine EndsKept.eventAt (fun s => ?_) h _
  dsimp only
  (repeat' split) <;> simp
@[simp] theorem execRefreshDue_kept (rank : Fin 4) (busy waiting : Bool) (h : s.sound) :
    EndsKept (execRefreshDue tk rank busy waiting s) := by simp [execRefreshDue, h.kept]
@[simp] theorem execMr4RateChange_kept (sub : Fin 4) (hot : Bool) (h : s.sound) :
    EndsKept (execMr4RateChange tk sub hot s) := by simp [execMr4RateChange, h.kept]
@[simp] theorem execPatrolScrub_kept (res : ScrubRead) (h : s.sound) : EndsKept (execPatrolScrub tk res s) := by
  refine EndsKept.eventAt (fun s => ?_) h _
  dsimp only
  (repeat' split) <;> simp [-State.logUe_clus]
@[simp] theorem execDdrClockStop_kept (h : s.sound) : EndsKept (execDdrClockStop tk s) := by simp [execDdrClockStop, h.kept]

/-! ### LinkEv -/

@[simp] theorem execRingService_kept (r : RingNo) (ps : List Fetched) (h : s.sound) :
    EndsKept (execRingService tk k r ps s) := by simp [execRingService, h.kept]
@[simp] theorem execDescriptorFetch_kept (r : RingNo) (ue : Bool) (h : s.sound) :
    EndsKept (execDescriptorFetch tk k r ue s) := by simp [execDescriptorFetch, h.kept, -State.logUe_clus]
@[simp] theorem execCompletionWrite_kept (r : RingNo) (h : s.sound) : EndsKept (execCompletionWrite tk k r s) := by
  refine EndsKept.eventAt (fun s => ?_) h _
  dsimp only
  split <;> simp
@[simp] theorem execMsixModerationTimeout_kept (r : RingNo) (h : s.sound) :
    EndsKept (execMsixModerationTimeout tk k r s) := by simp [execMsixModerationTimeout, h.kept]
@[simp] theorem execDoorbellSqTail_kept (d : Bell) (h : s.sound) : EndsKept (execDoorbellSqTail tk k d s) := by simp [execDoorbellSqTail, h.kept]
@[simp] theorem execDoorbellCqHead_kept (d : Bell) (h : s.sound) : EndsKept (execDoorbellCqHead tk k d s) := by simp [execDoorbellCqHead, h.kept]
@[simp] theorem execRegisterWrite_kept (w : PageWrite) (h : s.sound) : EndsKept (execRegisterWrite tk k w s) := by simp [execRegisterWrite, h.kept]
@[simp] theorem execCrCtlEnable_kept (fresh disable : Bool) (posted : List (RingNo × Hdr)) (h : s.sound) :
    EndsKept (execCrCtlEnable tk k fresh disable posted s) := by simp [execCrCtlEnable, h.kept]
@[simp] theorem execCrCtlDisable_kept (h : s.sound) : EndsKept (execCrCtlDisable tk k s) := by simp [execCrCtlDisable, h.kept]
@[simp] theorem execSwreset_kept (key : BitVec 16) (h : s.sound) : EndsKept (execSwreset tk k key s) := by simp [execSwreset, h.kept]
@[simp] theorem execProbe_kept (h : s.sound) : EndsKept (execProbe tk k s) := by simp [execProbe, h.kept]
@[simp] theorem execForm_kept (h : s.sound) : EndsKept (execForm tk k s) := by simp [execForm, h.kept]
@[simp] theorem execRetrain_kept (h : s.sound) : EndsKept (execRetrain tk k s) := by simp [execRetrain, h.kept]
@[simp] theorem execEvstatPendClear_kept (n : Src) (h : s.sound) : EndsKept (execEvstatPendClear tk k n s) := by simp [execEvstatPendClear, h.kept]
@[simp] theorem execRegDirectWrite_kept (off : BitVec 20) (h : s.sound) : EndsKept (execRegDirectWrite tk off s) := by simp [execRegDirectWrite, h.kept]
@[simp] theorem execMsixTableWrite_kept (off : BitVec 15) (data : Word) (h : s.sound) :
    EndsKept (execMsixTableWrite tk off data s) := by
  have put (u : State) (hu : u.sound) (o : Nat) (v : Word) : { u with msixTbl := memSetWord u.msixTbl o v }.sound := by
    obtain ⟨ha, hm, hrest⟩ := hu
    exact ⟨ha, Memory.wf_setWord _ _ hm, hrest⟩
  have fires (u : State) (hu : u.sound) (v : Nat) (b : Bool) (m : BitVec 2048) : (if b then { u with pba := m }.msix v else u).kept := by
    split <;> simp [hu.kept]
  refine EndsKept.eventAt (fun s => ?_) h _
  exact fires _ (put _ ((State.linkUse_kept _).mpr s.2) _ _) _ _ _
@[simp] theorem execRcFieldRead_kept (f : RcField) (h : s.sound) : EndsKept (execRcFieldRead tk f s) := by
  unfold execRcFieldRead
  split <;> simp [h.kept]
@[simp] theorem execPmD3hot_kept (h : s.sound) : EndsKept (execPmD3hot tk s) := by simp [execPmD3hot, h.kept]
@[simp] theorem execD0Entry_kept (h : s.sound) : EndsKept (execD0Entry tk s) := by simp [execD0Entry, h.kept]
@[simp] theorem execL1Entry_kept (h : s.sound) : EndsKept (execL1Entry tk s) := by simp [execL1Entry, h.kept]

/-! ### ResetEv -/

@[simp] theorem execPerstNAssert_kept (straps : BitVec 2) (test : Bool) (h : s.sound) :
    EndsKept (execPerstNAssert tk straps test s) := by
  have replaced (u : State) (hu : u.sound) (p : BitVec 2048) (b : Hub) : { u with msixTbl := msixReset, pba := p, hub := b }.kept := by
    have hm := Memory.wf_msixReset
    generalize msixReset = m at hm ⊢
    exact ⟨hu.1, hm, hu.2.2⟩
  refine EndsKept.eventAt (fun s => ?_) h _
  have reset := State.pinReset_kept s.1 0 straps test s.2
  obtain ⟨u, e⟩ := (s.1.pinReset 0 straps test).hide
  rw [e] at reset ⊢
  exact replaced u reset _ _
@[simp] theorem execResetNAssert_kept (ns : Nat) (straps : BitVec 2) (test : Bool) (h : s.sound) :
    EndsKept (execResetNAssert tk ns straps test s) := by simp [execResetNAssert, h.kept]
@[simp] theorem execHubBoot_kept (cause : Fin 5) (h : s.sound) : EndsKept (execHubBoot tk cause s) := by simp [execHubBoot, h.kept]
@[simp] theorem execRefclkLost_kept (h : s.sound) : EndsKept (execRefclkLost tk s) := by
  refine EndsKept.eventAt (fun s => ?_) h _
  have fault : (s.1.hubFault 2).sound := by simp
  obtain ⟨u, e⟩ := (s.1.hubFault 2).hide
  rw [e] at fault ⊢
  split
  · exact s.2
  · exact fault
@[simp] theorem execHubFault_kept (cause : BitVec 8) (h : s.sound) : EndsKept (execHubFault tk cause s) := by simp [execHubFault, h.kept]
@[simp] theorem execSupplyFall_kept (u : Supply) (h : s.sound) : EndsKept (execSupplyFall tk u s) := by
  unfold execSupplyFall
  split <;> simp [h.kept]
@[simp] theorem State.aonRise_kept (h : s.sound) : s.aonRise.kept := by
  obtain ⟨ha, hm, hx, hy, hc⟩ := h
  refine ⟨ha, ?_, hx, hy, fun n => ?_⟩
  · simp only [State.aonRise, State.msixTbl_reset]
    exact Memory.wf_msixReset
  · have kept := hc n
    simp only [State.aonRise, Vector.get_map]
    rw [Vector.get_eq_getElem, Vector.getElem_zip]
    exact kept
@[simp] theorem execVddAonRise_kept (h : s.sound) : EndsKept (execVddAonRise tk s) := EndsKept.eventAt (by simp) h tk
@[simp] theorem execSupplyRise_kept (x : Supply) (h : s.sound) : EndsKept (execSupplyRise tk x s) := by
  refine EndsKept.eventAt (fun s => ?_) h tk
  dsimp only
  (repeat' split) <;> simp
@[simp] theorem execDeepSleepEntry_kept (h : s.sound) : EndsKept (execDeepSleepEntry tk s) := by simp [execDeepSleepEntry, h.kept]
@[simp] theorem execClkreqWake_kept (h : s.sound) : EndsKept (execClkreqWake tk s) := by simp [execClkreqWake, h.kept]
@[simp] theorem execWakeAtExpiry_kept (h : s.sound) : EndsKept (execWakeAtExpiry tk s) := by
  refine EndsKept.eventAt (fun s => ?_) h _
  dsimp only
  split <;> simp
@[simp] theorem execWake_kept (us pulses : Nat) (gap : Bool) (h : s.sound) : EndsKept (execWake tk us pulses gap s) := by simp [execWake, h.kept]

/-! ### Waits -/

@[simp] theorem execWaitTick_kept (h : s.sound) : EndsKept (execWaitTick t w s) := by simp [execWaitTick, h.kept]
@[simp] theorem execWaitTrig_kept (h : s.sound) : EndsKept (execWaitTrig t w s) := by simp [execWaitTrig, h.kept]
@[simp] theorem execWaitEvt_kept (h : s.sound) : EndsKept (execWaitEvt t w s) := by simp [execWaitEvt, h.kept]
@[simp] theorem execWaitTickDone_kept (h : s.sound) : EndsKept (execWaitTickDone t s) := by
  unfold execWaitTickDone
  (repeat' split) <;> simp [h.kept]
@[simp] theorem execWaitTrigDone_kept (h : s.sound) : EndsKept (execWaitTrigDone t s) := by
  unfold execWaitTrigDone
  (repeat' split) <;> simp [h.kept]
@[simp] theorem execWaitEvtDone_kept (h : s.sound) : EndsKept (execWaitEvtDone tk t s) := by
  refine EndsKept.eventAt (fun s => ?_) h _
  dsimp only
  (repeat' split) <;> simp
@[simp] theorem execWaitTimeout_kept (h : s.sound) : EndsKept (execWaitTimeout t s) := by
  unfold execWaitTimeout
  (repeat' split) <;> simp [h.kept]
@[simp] theorem execSyncCluster_kept (h : s.sound) : EndsKept (execSyncCluster t w s) := by simp [execSyncCluster, h.kept]
@[simp] theorem execSyncPackage_kept (h : s.sound) : EndsKept (execSyncPackage t w s) := by
  refine EndsKept.issue (fun s u hs hu => ?_) h t w _ _
  split at hu <;> cases hu
  simp [hs.kept]
@[simp] theorem execSyncRelease_kept (b : BarRef) (h : s.sound) : EndsKept (execSyncRelease b s) := by
  unfold execSyncRelease
  split <;> simp [h.kept]

end

/-! ## One step -/

@[simp] theorem execRemap_kept (p : Pkt) (s : State) (h : s.sound) : EndsKept (execRemap p s) := by
  refine EndsKept.runPkt (fun s => ?_) h p _
  dsimp only
  split
  · simp
  next a b _ =>
    have swapped : (s.1.exchange a b).kept := s.2
    simp [swapped]

@[simp] theorem pktExec_kept (p : Pkt) (s : State) (h : s.sound) : EndsKept (pktExec p s) := by
  unfold pktExec
  split <;> simp [h.kept]

@[simp] theorem execFenceRelease_kept (tk : Nat) (k : Ctx) (r : RingNo) (s : State) (h : s.sound) : EndsKept (execFenceRelease tk k r s) := by
  unfold execFenceRelease
  (repeat' split) <;> simp [h.kept]

/-- Each row keeps the memories in canonical form. -/
theorem exec_kept (i : Instr) (s : State) (h : s.sound) : EndsKept (exec i s) := by
  cases i
  all_goals simp [exec, h.kept]

theorem latheSlot_kept (s : State) (n : Cl) (h : s.sound) : EndsKept (s.latheSlot n) := by
  unfold State.latheSlot
  dsimp only
  split
  · split
    · exact exec_kept _ s h
    · rw [endsKept_next]
      exact State.issueOk_kept (f := id) (fun s => s.2) h _ _ _
  · exact (endsKept_next s).mpr h

theorem latheSlots_kept (l : List Cl) (s : State) (h : s.sound) : EndsKept (latheSlots l s) := by
  induction l generalizing s with
  | nil => exact (endsKept_next s).mpr h
  | cons n l ih =>
    unfold latheSlots
    split
    next u e => exact ih u (latheSlot_kept s n h u e)
    all_goals
      intro u hu
      cases hu

theorem idleTick_kept (s : State) (h : s.sound) : EndsKept s.idleTick := by
  unfold State.idleTick
  split
  · exact (endsKept_next s).mpr h
  · exact latheSlots_kept _ _ ((State.advance_kept ..).mpr h)

/-- Settles O59: one lemma per operation shows that an operation either writes no memory or changes one by single bytes, by a cleared
range or by its reset value, each of which keeps the canonical form; a step is made of such operations. -/
theorem keepsMemory : Obligations.KeepsMemory := by
  intro s u hs hu
  rw [State.memOk_iff] at hs ⊢
  unfold step at hu
  split at hu
  · exact idleTick_kept s hs u hu
  · refine exec_kept _ _ ?_ u hu
    exact hs

end Sys2Proof.Machine
end

section
/-! PROOFS. Registers (R249) and memory words (R279), read back after a write. -/

namespace Sys2Proof.Machine

/-! ### Registers -/

@[simp] theorem Thread.gr_zero (h : Thread) : h.gr 0 = 0 := if_pos rfl

@[simp] theorem Thread.setG_zero (h : Thread) (v : Word) : h.setG 0 v = h := if_pos rfl

/-- A register reads what was written to it, and any other what it held. -/
theorem Thread.gr_setG (h : Thread) {r : BitVec 4} (q : BitVec 4) (v : Word) (hr : r ≠ 0) :
    (h.setG r v).gr q = if q = r then v else h.gr q := by
  unfold Thread.setG Thread.gr
  rw [if_neg hr]
  by_cases hq : q = 0
  · rw [if_pos hq, if_neg (hq ▸ hr.symm), if_pos hq]
  · have key : (h.g.set r.toNat v r.isLt).get q.toFin = if q = r then v else h.g.get q.toFin := by
      refine (vget_set h.g r.toFin v q.toFin).trans (if_congr ?_ rfl rfl)
      exact ⟨fun e => (BitVec.eq_of_toFin_eq e).symm, fun e => e ▸ rfl⟩
    rw [if_neg hq, if_neg hq, key]

theorem Thread.gr_setG_ne (h : Thread) {r q : BitVec 4} (v : Word) (hq : q ≠ r) : (h.setG r v).gr q = h.gr q := by
  by_cases hr : r = 0
  · rw [hr, Thread.setG_zero]
  · rw [Thread.gr_setG h q v hr, if_neg hq]

/-- Settles O5: a register file read after a write by cases on the register, and the bytes of a word one by one. -/
theorem registersAndBytes : Obligations.RegistersAndBytes :=
  ⟨fun h r _ v => ⟨h.gr_zero, h.setG_zero v, fun hr => (h.gr_setG r v hr).trans (if_pos rfl), h.gr_setG_ne v⟩,
    fun m a _ v => ⟨memWord_memSetWord m a v, memByte_memSetWord_ne m v, Memory.wf_setWord a v⟩⟩

end Sys2Proof.Machine
end

section
/-! PROOFS. The waits of a thread (9.8, 10.9): a wait that completes in its slot, a wait that begins, and what ends it. -/

namespace Sys2Proof.Machine

/-! ### Operations that cannot fault and move their thread alone -/

theorem State.runsTo_of_issueOk {s : State} {i : Instr} {t : Thr} {w : ZWord} {f : State → State} (hi : s.issues i t w)
    (he : exec i s = .next (s.issueOk t w (zlegal i) f)) {g : Thread → Thread} (hf : f (s.atIssue t w) = (s.atIssue t w).modTh t g)
    (hg : ∀ h n, g { h with ready := n } = { g h with ready := n }) : s.runsTo i t w g :=
  State.runsTo_of_issue (tk := false) hi he nofun g (congrArg Except.ok hf) hg

/-- A wait that completes at once with this status. -/
theorem State.waitNow_eq (s : State) (t : Thr) (status : Nat) :
    s.waitNow t status = s.modTh t fun h => { h with waited := 0, last := .ofNat 8 status } := by
  simp [State.waitNow, State.setLast]

theorem waitTimeoutOf_eq (w : ZWord) : waitTimeoutOf w = if w.x = true ∧ w.e ≠ 0 then some w.e.toNat else none := by
  simp [waitTimeoutOf]

/-! ### The rows of waits (R264, R265, R304) -/

/-- Settles O24: each branch of a row is one update of its thread at the issue tick (`State.runsTo_of_issueOk`). -/
theorem waitRows : Obligations.WaitRows := by
  unfold Obligations.WaitRows
  intro s t w s1 now v rel ahead lim mask set waits
  refine ⟨fun hi => ⟨fun h0 => ?inSlot, fun hr hl => ?late, fun h0 hl => ?tick⟩, fun hi => ?trig, fun hi => ⟨fun hs => ?evt, fun hs => ?noEvt⟩⟩
  case inSlot =>
    have notLate : ¬ (!rel && decide (2 ^ 31 ≤ ahead)) = true := by simp [h0]
    refine State.runsTo_of_issueOk hi rfl ?_ fun _ _ => rfl
    rw [State.opV_atIssue]
    exact (if_neg notLate).trans <| (if_pos h0).trans <| State.waitNow_eq ..
  case late =>
    have isLate : (!rel && decide (2 ^ 31 ≤ ahead)) = true := by
      rw [hr]
      exact decide_eq_true hl
    refine State.runsTo_of_issueOk hi rfl ?_ fun _ _ => rfl
    rw [State.opV_atIssue]
    refine (if_pos isLate).trans <| (State.waitNow_eq ..).trans ?_
    rw [State.stickTh, if_pos rfl, State.modTh_modTh]
    rfl
  case tick =>
    have notLate : ¬ (!rel && decide (2 ^ 31 ≤ ahead)) = true := by
      rcases hl with h | h
      · simp [h]
      · rw [decide_eq_false (by omega), Bool.and_false]
        exact Bool.false_ne_true
    refine State.runsTo_of_issueOk hi rfl ?_ fun _ _ => rfl
    rw [State.opV_atIssue]
    exact (if_neg notLate).trans (if_neg h0.ne')
  case trig =>
    refine State.runsTo_of_issueOk hi rfl ?_ fun _ _ => rfl
    rw [waitTimeoutOf_eq, ← BitVec.setWidth_eq_extractLsb' (by decide)]
    rfl
  case evt =>
    have some : ((s.th t).evt &&& mask != 0) = true := bne_iff_ne.mpr hs
    refine State.runsTo_of_issueOk hi rfl ?_ fun h n => by rw [Thread.setG_ready]
    rw [State.g_atIssue, State.th_atIssue]
    refine (if_pos some).trans <| (State.waitNow_eq ..).trans ?_
    exact State.modTh_modTh ..
  case noEvt =>
    have none : ¬ ((s.th t).evt &&& mask != 0) = true := by simpa using hs
    refine State.runsTo_of_issueOk hi rfl ?_ fun _ _ => rfl
    rw [State.g_atIssue, State.th_atIssue, waitTimeoutOf_eq]
    exact if_neg none

end Sys2Proof.Machine
end

section
/-! PROOFS. What ends a wait (9.8, 10.9). -/

namespace Sys2Proof.Machine

/-! ### Barriers beside the threads -/

@[simp] theorem State.th_advance (s : State) (n : Nat) (t : Thr) : (s.advance n).th t = s.th t := State.th_of_bare (State.bare_advance ..) t

theorem State.bar_of_bare {s u : State} (h : u.bare = s.bare) (b : BarRef) : u.bar b = s.bar b := by
  have clus := State.clus_of_bare h
  have bars : u.bars = s.bars := by simpa [State.bare] using congrArg State.bars h
  cases b <;> simp [State.bar, State.cl, clus, bars]

@[simp] theorem State.th_modBar (s : State) (b : BarRef) (f : Barrier → Barrier) (t : Thr) : (s.modBar b f).th t = s.th t := by
  cases b with
  | package i => rfl
  | cluster n i =>
    by_cases e : t.cl = n
    · subst e
      exact (congrArg (fun k : Cluster => k.thr.get t.k) (State.cl_modCl_self s t.cl _)).trans rfl
    · exact congrArg (fun k : Cluster => k.thr.get t.k) (State.cl_modCl_ne s _ e)

@[simp] theorem State.bar_modTh (s : State) (t : Thr) (f : Thread → Thread) (b : BarRef) : (s.modTh t f).bar b = s.bar b := by
  cases b with
  | package i => rfl
  | cluster n i =>
    by_cases e : n = t.cl
    · subst e
      exact (congrArg (fun k : Cluster => k.bars.get i) (State.cl_modCl_self s t.cl _)).trans rfl
    · exact congrArg (fun k : Cluster => k.bars.get i) (State.cl_modCl_ne s _ e)

@[simp] theorem State.bar_modBar_self (s : State) (b : BarRef) (f : Barrier → Barrier) : (s.modBar b f).bar b = f (s.bar b) := by
  cases b with
  | package i => exact (vget_set ..).trans (if_pos rfl)
  | cluster n i => exact (congrArg (fun k : Cluster => k.bars.get i) (State.cl_modCl_self s n _)).trans ((vget_set ..).trans (if_pos rfl))

/-! ### The end of a wait -/

/-- Thread h once its wait has ended with this status. -/
def Thread.resumed (h : Thread) (status : Byte) (ready waited : Nat) : Thread :=
  { h with st := .running, wait := none, last := status, ready := ready, waited := waited }

/-- From s to x the wait of thread t has ended with this status, f says what else became of the thread, and nothing else moved. -/
def State.resumes (s x : State) (t : Thr) (status : Byte) (f : Thread → Thread) : Prop :=
  ∃ ready waited, x.bare = (s.modTh t fun h => (f h).resumed status ready waited).bare

theorem State.resumes.congr {s x : State} {t : Thr} {status : Byte} {f g : Thread → Thread} (h : s.resumes x t status f)
    (e : f (s.th t) = g (s.th t)) : s.resumes x t status g := by
  obtain ⟨ready, waited, hx⟩ := h
  exact ⟨ready, waited, hx.trans (congrArg State.bare (State.modTh_congr _ _ _ _ (congrArg (Thread.resumed · status ready waited) e)))⟩

theorem State.resumes.ends {s x : State} {i : Instr} {t : Thr} {status : Byte} {f : Thread → Thread} (h : s.resumes x t status f)
    (he : exec i s = .next x.settle) :
    s.ends i fun u => u.bare = (s.modTh t fun h => (f h).resumed status (u.th t).ready (u.th t).waited).bare := by
  obtain ⟨ready, waited, hx⟩ := h
  have moved : x.settle.bare = (s.modTh t fun h => (f h).resumed status ready waited).bare := (State.bare_settle x).trans hx
  refine ⟨_, he, moved.trans ?_⟩
  rw [State.th_of_bare moved, State.th_modTh_self]
  rfl

/-- The end of a wait with its status. -/
theorem State.resumes_endWait {s y : State} (hy : y.bare = s.bare) (t : Thr) (w : Wait) (c status : Nat) :
    s.resumes ((y.endWait t w c).setLast t status) t (.ofNat 8 status) id := by
  refine ⟨max c (w.issued + 1), min 255 ((y.issueTick t (max c (w.issued + 1)) - w.issued) / 9 - 1), ?_⟩
  rw [State.endWait, State.setLast, State.modTh_modTh, State.bare_modTh, hy]
  rfl

/-- The end of a wait with its status and its result. -/
theorem State.resumes_endWait_setG {s y : State} (hy : y.bare = s.bare) (t : Thr) (w : Wait) (c : Nat) (rd : BitVec 4) (v : Word)
    (status : Nat) : s.resumes (((y.endWait t w c).setG t rd v).setLast t status) t (.ofNat 8 status) fun h => h.setG rd v := by
  refine ⟨max c (w.issued + 1), min 255 ((y.issueTick t (max c (w.issued + 1)) - w.issued) / 9 - 1), ?_⟩
  rw [State.endWait, State.setG, State.setLast, State.modTh_modTh, State.modTh_modTh, State.bare_modTh, hy, State.bare_modTh]
  refine State.modTh_congr _ _ _ _ ?_
  unfold Thread.setG
  split <;> rfl

/-- What a wait dropped before its end is does not show after it. -/
theorem State.resumes.of_dropped {s x : State} {t : Thr} {status : Byte} {f : Thread → Thread}
    (h : (s.modTh t fun h => { h with wait := none }).resumes x t status f)
    (hf : ∀ h : Thread, f { h with wait := none } = { f h with wait := none }) : s.resumes x t status f := by
  obtain ⟨ready, waited, hx⟩ := h
  refine ⟨ready, waited, hx.trans (congrArg State.bare ?_)⟩
  rw [State.modTh_modTh]
  refine State.modTh_congr _ _ _ _ ?_
  rw [hf]
  rfl

/-- A wait elsewhere than at a barrier is dropped without a trace. -/
theorem State.dropWait_eq {s : State} {t : Thr} {w : Wait} (h : (s.th t).wait = some w) (hs : ∀ b rd, w.kind ≠ .sync b rd) :
    s.dropWait t = s.modTh t fun h => { h with wait := none } := by
  unfold State.dropWait
  simp only [h]

/-- A withdrawal before the release tick is set takes the member's arrival back, and nothing else of the arrivals. -/
theorem State.bar_withdraw {s : State} {b : BarRef} (t : Thr) (hr : (s.bar b).release = none) :
    ((s.withdraw t b).bar b).arrived = (s.bar b).arrived &&& ~~~barBit t b ∧ ((s.withdraw t b).bar b).release = none := by
  rw [State.withdraw, State.bar_modBar_self, hr]
  rw [if_neg (by simp)]
  dsimp only
  split
  next e => exact ⟨e.symm, rfl⟩
  next => exact ⟨rfl, rfl⟩

theorem Wait.inTime_iff (w : Wait) (c : Nat) : w.inTime c = true ↔ ∀ n, w.timeout = some n → c ≤ w.issued + n := by
  unfold Wait.inTime
  split <;> simp_all

/-- A wait elsewhere than at a barrier times out unless what it waits for has come in time. -/
theorem State.mayTimeOut_of {s : State} {w : Wait} {n : Nat} (hn : w.timeout = some n) (hc : ∀ c, w.hit = some c → ¬ c ≤ w.issued + n)
    (hs : ∀ b rd, w.kind ≠ .sync b rd) : s.mayTimeOut w = true := by
  unfold State.mayTimeOut
  split
  next b rd e => exact absurd e (hs b rd)
  split
  next c e => simp [Wait.inTime, hn, hc c e]
  next => rfl

/-- Settles O25: a wait that ends is one update of its thread (`State.resumes`); at a barrier the arrival goes back as well. -/
theorem waitEnds : Obligations.WaitEnds := by
  unfold Obligations.WaitEnds
  intro s t wt tk hw done inTime
  refine ⟨fun n rel hk => ?tick, fun line rd c hk hc hi => ?trig, fun m rd c hk hc hi => ?evt, fun n hn hc hs => ?timeout,
    fun n b rd hn hk hr => ?barrier⟩
  case tick =>
    refine (State.resumes_endWait (State.bare_advanceDie s (dieOfCl t.cl) n) t wt n 0).ends ?_
    show execWaitTickDone t s = _
    simp only [execWaitTickDone, hw, hk, State.dueAt]
  case trig =>
    refine (State.resumes_endWait_setG (State.bare_advanceDie s (dieOfCl t.cl) c) t wt c rd (.ofNat 32 (c - 1)) 0).ends ?_
    show execWaitTrigDone t s = _
    simp only [execWaitTrigDone, hw, hk, hc, (Wait.inTime_iff wt c).mpr hi, if_true, State.dueAt, wd]
  case evt =>
    refine ((State.resumes_endWait_setG ((State.bare_advanceDie _ (dieOfCl t.cl) c).trans (State.bare_advance s tk)) t wt c rd
      ((s.th t).evt &&& m) 0).congr rfl).ends ?_
    show execWaitEvtDone tk t s = _
    simp only [execWaitEvtDone, State.eventAt, State.th_advance, hw, hk, hc, (Wait.inTime_iff wt c).mpr hi, if_true, State.th_advanceDie]
  case timeout =>
    have may := State.mayTimeOut_of (s := s) hn hc hs
    have dropped := State.dropWait_eq (s := s.advanceDie (dieOfCl t.cl) (wt.issued + n)) (by rwa [State.th_advanceDie]) hs
    have start : ((s.advanceDie (dieOfCl t.cl) (wt.issued + n)).dropWait t).bare = (s.modTh t fun h => { h with wait := none }).bare := by
      rw [dropped, State.bare_modTh, State.bare_advanceDie, ← State.bare_modTh]
    have plain := (State.resumes_endWait start t wt (wt.issued + n) 0x28).of_dropped fun _ => rfl
    have runs : exec (.waitTimeout t) s = execWaitTimeout t s := rfl
    simp only [execWaitTimeout, hw, hn, may, if_true, State.dueAt] at runs
    cases hk : wt.kind with
    | evt m rd =>
      have cleared := (State.resumes_endWait_setG start t wt (wt.issued + n) rd 0 0x28).of_dropped fun h => by
        unfold Thread.setG
        split <;> rfl
      exact cleared.ends (by simpa only [hk] using runs)
    | tick c rel => exact plain.ends (by simpa only [hk] using runs)
    | trig line rd => exact plain.ends (by simpa only [hk] using runs)
    | emit ra tag => exact plain.ends (by simpa only [hk] using runs)
    | sync b rd => exact absurd hk (hs b rd)
  case barrier =>
    have may : s.mayTimeOut wt = true := by simp [State.mayTimeOut, hk, hr]
    have runs : exec (.waitTimeout t) s = execWaitTimeout t s := rfl
    simp only [execWaitTimeout, hw, hn, may, if_true, State.dueAt, hk] at runs
    refine ⟨_, runs, ?_⟩
    beta_reduce
    rw [State.th_of_bare (State.bare_settle _), State.bar_of_bare (State.bare_settle _)]
    have bars : (s.advanceDie (dieOfCl t.cl) (wt.issued + n)).bar b = s.bar b := State.bar_of_bare (State.bare_advanceDie ..) b
    obtain ⟨arrived, open_⟩ := State.bar_withdraw t (bars ▸ hr)
    rw [bars] at arrived
    have back (u : State) : (u.withdraw t b).th t = u.th t := State.th_modBar ..
    simp only [State.dropWait, State.endWait, State.setLast, State.th_advanceDie, hw, hk, State.modTh_modTh, State.th_modTh_self, back,
      State.bar_modTh]
    exact ⟨trivial, trivial, rfl, trivial, arrived, open_⟩

end Sys2Proof.Machine
end

section
/-! PROOFS. Barriers (9.9, 10.9): what an arrival does, and the release of the members that wait. -/

namespace Sys2Proof.Machine

/-! ### An arrival (R266) -/

@[simp] theorem State.bar_atIssue (s : State) (t : Thr) (w : ZWord) (b : BarRef) : (s.atIssue t w).bar b = s.bar b :=
  (State.bar_modTh ..).trans (State.bar_of_bare (State.bare_advanceDie ..) b)

@[simp] theorem State.owner_atIssue (s : State) (t : Thr) (w : ZWord) : (s.atIssue t w).owner = s.owner := by
  simpa [State.bare] using congrArg State.owner (State.bare_atIssue s t w)

/-- The mask names a cluster of another owner (R266). -/
def State.foreign (s : State) (t : Thr) (mask : BitVec 12) : BarRef → Bool
  | .package _ => (List.finRange 12).any fun i => bit mask i.1 && !s.ownsAll (s.groupOwner (chsOfCl t.cl)) (chsOfCl i)
  | .cluster _ _ => false

theorem State.foreign_package (s : State) (t : Thr) (mask : BitVec 12) (i : Fin 8) : s.foreign t mask (.package i) = true ↔
    ∃ n : Cl, bit mask n.1 = true ∧ s.ownsAll (s.groupOwner (chsOfCl t.cl)) (chsOfCl n) = false := by
  simp [State.foreign]

theorem State.foreign_atIssue (s : State) (t : Thr) (w : ZWord) (mask : BitVec 12) (b : BarRef) :
    (s.atIssue t w).foreign t mask b = s.foreign t mask b := by
  cases b <;> simp [State.foreign, State.ownsAll, State.groupOwner]

/-- A barrier whose release tick has not come releases nobody. -/
theorem State.releaseDue_early {s : State} {b : BarRef} {now : Nat} (h : ∀ n, (s.bar b).release = some n → now < n) :
    s.releaseDue b now = s := by
  unfold State.releaseDue
  split
  next r e => exact if_neg (Nat.not_le.mpr (h r e))
  next => rfl

/-- What an arrival does at a barrier that no release holds. -/
theorem State.sync_eq {s : State} {t : Thr} {b : BarRef} (h : ∀ n, (s.bar b).release = some n → s.thNow t < n) (w : ZWord)
    (mask : BitVec 12) : s.sync t w b mask =
      if mask &&& barBit t b = 0 then s.waitNow t 0x29
      else if s.foreign t mask b then s.waitNow t 0x2A
      else if (s.bar b).arrived ≠ 0 ∧ (s.bar b).mask ≠ mask then s.waitNow t 0x2B
      else (s.modBar b fun _ => { mask := mask, arrived := (s.bar b).arrived ||| barBit t b, release :=
        if (s.bar b).arrived ||| barBit t b = mask then some (s.thNow t + barDelay mask b) else none }).beginWait t (.sync b w.rd)
          (waitTimeoutOf w) none := by
  unfold State.sync
  simp only [State.releaseDue_early h]
  cases b <;> rfl

/-- A row that answers an arrival at once. -/
theorem State.runsTo_waitNow {s : State} {i : Instr} {t : Thr} {w : ZWord} {x : State} {status : Nat} (he : exec i s = .next x.settle)
    (hx : x = (s.atIssue t w).waitNow t status) : s.runsTo i t w fun h => { h with waited := 0, last := .ofNat 8 status } := by
  refine State.runsTo_of _ he (congrArg State.bare (hx.trans (State.waitNow_eq ..))) ?_
  rw [State.th_atIssue]

/-- The four outcomes of an arrival by row i (R266, R267). -/
theorem State.sync_row {s : State} {i : Instr} {t : Thr} {w : ZWord} {b : BarRef} {mask : BitVec 12}
    (he : exec i s = .next ((s.atIssue t w).sync t w b mask).settle)
    (hr : ∀ n, (s.bar b).release = some n → (s.atIssue t w).thNow t < n) {denied : Prop} (hd : s.foreign t mask b = true ↔ denied) :
    (mask &&& barBit t b = 0 → s.runsTo i t w fun h => { h with waited := 0, last := 0x29 })
    ∧ (mask &&& barBit t b ≠ 0 → denied → s.runsTo i t w fun h => { h with waited := 0, last := 0x2A })
    ∧ (mask &&& barBit t b ≠ 0 → ¬ denied → (s.bar b).arrived ≠ 0 → (s.bar b).mask ≠ mask →
      s.runsTo i t w fun h => { h with waited := 0, last := 0x2B })
    ∧ (mask &&& barBit t b ≠ 0 → ¬ denied → (s.bar b).arrived = 0 ∨ (s.bar b).mask = mask → s.ends i fun u =>
      (u.th t).st = .waiting ∧ (u.bar b).mask = mask ∧ (u.bar b).arrived = (s.bar b).arrived ||| barBit t b
      ∧ (u.bar b).release = if (s.bar b).arrived ||| barBit t b = mask then some ((s.atIssue t w).thNow t + barDelay mask b) else none) := by
  have arrives := State.sync_eq (s := s.atIssue t w) (t := t) (b := b) (by rwa [State.bar_atIssue]) w mask
  rw [State.foreign_atIssue, State.bar_atIssue] at arrives
  refine ⟨fun h0 => ?_, fun h0 h1 => ?_, fun h0 h1 h2 h3 => ?_, fun h0 h1 h2 => ?_⟩
  · exact State.runsTo_waitNow he (arrives.trans (if_pos h0))
  · exact State.runsTo_waitNow he (arrives.trans ((if_neg h0).trans (if_pos (hd.mpr h1))))
  · exact State.runsTo_waitNow he (arrives.trans ((if_neg h0).trans ((if_neg (h1 ∘ hd.mp)).trans (if_pos ⟨h2, h3⟩))))
  · refine ⟨_, he, ?_⟩
    beta_reduce
    rw [State.th_of_bare (State.bare_settle _), State.bar_of_bare (State.bare_settle _), arrives, if_neg h0, if_neg (h1 ∘ hd.mp),
      if_neg (by tauto), State.beginWait, State.th_modTh_self, State.bar_modTh, State.bar_modBar_self]
    exact ⟨rfl, rfl, rfl, rfl⟩

/-! ### The release (R267) -/

/-- What a release does to one thread. -/
def State.releaseMember (b : BarRef) (r : Nat) (t : Thr) (s : State) : State :=
  match (s.th t).wait with
  | some w => match w.kind with
    | .sync x rd =>
      if x = b then
        ((s.endWait t w r).modTh t fun h => h.setPair rd (wd r) (wd (r / 2 ^ 32))).setLast t 0
      else s
    | _ => s
  | none => s

theorem State.releaseBar_eq (s : State) (b : BarRef) (r : Nat) :
    s.releaseBar b r = (s.modBar b fun _ => .empty).each (barThreads b) (State.releaseMember b r) := rfl

theorem State.th_releaseMember_ne (s : State) (b : BarRef) (r : Nat) {t u : Thr} (h : u ≠ t) :
    (State.releaseMember b r t s).th u = s.th u := by
  unfold State.releaseMember
  repeat' split
  all_goals simp [State.endWait, State.setLast, State.th_modTh_ne, h]

theorem State.bar_releaseMember (b x : BarRef) (r : Nat) (t : Thr) (s : State) : (State.releaseMember b r t s).bar x = s.bar x := by
  unfold State.releaseMember
  repeat' split
  all_goals simp [State.endWait, State.setLast]

/-- A member that waits at the barrier runs on with the tick in its pair. -/
theorem State.th_releaseMember {s : State} {b : BarRef} {t : Thr} {wt : Wait} {rd : BitVec 4} (hw : (s.th t).wait = some wt)
    (hk : wt.kind = .sync b rd) (r : Nat) : ∃ ready waited, (State.releaseMember b r t s).th t =
      ((s.th t).setPair rd (wd r) (wd (r / 2 ^ 32))).resumed 0 ready waited := by
  refine ⟨max r (wt.issued + 1), min 255 ((s.issueTick t (max r (wt.issued + 1)) - wt.issued) / 9 - 1), ?_⟩
  simp only [State.releaseMember, hw, hk, if_true, State.endWait, State.setLast, State.modTh_modTh, State.th_modTh_self]
  unfold Thread.setPair Thread.setG
  split <;> split <;> rfl

theorem Thread.setG_pc (h : Thread) (r : BitVec 4) (v : Word) : (h.setG r v).pc = h.pc := by
  unfold Thread.setG
  split <;> rfl

/-- A loop whose body moves its own thread alone leaves the threads that it does not name. -/
theorem State.th_each_of_not_mem {f : Thr → State → State} (hf : ∀ a b s, a ≠ b → (f b s).th a = s.th a) {l : List Thr} {t : Thr}
    (ht : t ∉ l) (s : State) : (s.each l f).th t = s.th t := by
  induction l generalizing s with
  | nil => rfl
  | cons a l ih =>
    obtain ⟨hne, ht⟩ := List.ne_and_not_mem_of_not_mem_cons ht
    exact (ih ht (f a s)).trans (hf t a s hne)

/-- A loop whose body moves its own thread alone acts on each thread as if on it alone. -/
theorem State.each_th {f : Thr → State → State} (hf : ∀ a b s, a ≠ b → (f b s).th a = s.th a) {l : List Thr} (hn : l.Nodup) (s : State)
    {t : Thr} (ht : t ∈ l) : ∃ y : State, y.th t = s.th t ∧ (s.each l f).th t = (f t y).th t := by
  induction l generalizing s with
  | nil => cases ht
  | cons a l ih =>
    obtain ⟨ha, hn⟩ := List.nodup_cons.mp hn
    rw [State.each_cons]
    rcases List.mem_cons.mp ht with rfl | ht
    · exact ⟨s, rfl, State.th_each_of_not_mem hf ha (f t s)⟩
    · obtain ⟨y, hy, e⟩ := ih hn (f a s) ht
      exact ⟨y, hy.trans (hf t a s (fun e => ha (e ▸ ht))), e⟩

theorem barThreads_nodup (b : BarRef) : (barThreads b).Nodup := by
  cases b with
  | cluster n _ => exact (List.nodup_finRange 9).map fun a c e => (Thr.mk.injEq .. ▸ e).2
  | package _ => exact (List.nodup_finRange 12).map fun a c e => (Thr.mk.injEq .. ▸ e).1

/-- Settles O26: an arrival takes one of four branches at the issue tick (`State.sync_eq`); a release empties the barrier and moves each
member once (`State.each_th`). -/
theorem barrierRows : Obligations.BarrierRows := by
  unfold Obligations.BarrierRows
  intro s t w s1 now row mine m8
  refine ⟨fun hi hr => ?cluster, fun h8 hi hr => ?package, fun b r hb => ?release⟩
  case cluster =>
    obtain ⟨hr0, hp, hl, -⟩ := hi
    refine State.sync_row (i := .syncCluster t w) (b := .cluster t.cl (fBar4 w)) ?_ hr (by simp [State.foreign])
    exact congrArg Host.Outcome.next (State.issueOk_eq s t w _ _ hr0 hp hl)
  case package =>
    obtain ⟨hr0, hp, hl, -⟩ := hi
    refine State.sync_row (i := .syncPackage t w) (b := .package (fBar8 w)) ?_ hr (State.foreign_package ..)
    refine congrArg Host.Outcome.next ((State.issue_eq s t w _ false _ hr0 hp hl nofun).trans ?_)
    rw [h8]
    rfl
  case release =>
    have runs : exec (.syncRelease b) s = execSyncRelease b s := rfl
    simp only [execSyncRelease, hb, State.dueAt] at runs
    refine ⟨_, runs, ?_, fun t ht wt rd hw hk => ?_⟩
    · rw [State.bar_of_bare (State.bare_settle _), State.releaseBar_eq,
        State.each_frame (fun u => u.bar b) _ fun t s => State.bar_releaseMember b b r t s, State.bar_modBar_self]
    · obtain ⟨y, hy, moved⟩ := State.each_th (f := State.releaseMember b r) (fun _ _ s h => State.th_releaseMember_ne s b r h)
        (barThreads_nodup b) ((s.advanceDie (s.barDie b) r).modBar b fun _ => .empty) ht
      rw [State.th_modBar, State.th_advanceDie] at hy
      obtain ⟨ready, waited, ends⟩ := State.th_releaseMember (hy ▸ hw) hk r
      rw [State.th_of_bare (State.bare_settle _), State.releaseBar_eq, moved, ends, hy]
      exact ⟨rfl, rfl, rfl, (Thread.setG_pc ..).trans (Thread.setG_pc ..), rfl⟩

end Sys2Proof.Machine
end

section
/-! PROOFS. The faults of a word (10.1, 10.2): a thread that halts keeps what it held, whatever its halt sets off. -/

namespace Sys2Proof.Machine

/-! ### The files of the threads -/

/-- A thread without the events that it latches and without its wait. -/
def Thread.file (h : Thread) : Thread := { h with evt := 0, wait := none }

/-- The files of the threads of a cluster. -/
def Cluster.files (k : Cluster) : Vector Thread 9 := k.thr.map Thread.file

/-- The files of the threads of every cluster: what no event of a channel moves. -/
def State.files (s : State) : Vector (Vector Thread 9) 12 := s.clus.map Cluster.files

theorem State.file_of_files {s u : State} (h : u.files = s.files) (t : Thr) : (u.th t).file = (s.th t).file := by
  have e := congrArg (fun v => (v.get t.cl).get t.k) h
  simp only [State.files, Cluster.files, vget_map] at e
  exact e

theorem State.files_of_clus {s u : State} (h : u.clus = s.clus) : u.files = s.files := by rw [State.files, h, State.files]

theorem State.files_of_bare {s u : State} (h : u.bare = s.bare) : u.files = s.files := State.files_of_clus (State.clus_of_bare h)

theorem State.modCl_files {s : State} {n : Cl} {f : Cluster → Cluster} (h : (f (s.cl n)).thr = (s.cl n).thr) :
    (s.modCl n f).files = s.files := vmap_set_of Cluster.files s.clus n _ (congrArg (Vector.map Thread.file) h)

theorem State.modTh_files {s : State} {t : Thr} {f : Thread → Thread} (h : (f (s.th t)).file = (s.th t).file) :
    (s.modTh t f).files = s.files :=
  vmap_set_of Cluster.files s.clus t.cl { s.cl t.cl with thr := (s.cl t.cl).thr.set t.k.1 (f (s.th t)) t.k.2 }
    (vmap_set_of Thread.file (s.cl t.cl).thr t.k (f (s.th t)) h)

@[simp] theorem State.ite_files (p : Prop) [Decidable p] (s u : State) : (if p then s else u).files = if p then s.files else u.files :=
  apply_ite ..

@[simp] theorem State.each_files {α : Type} (l : List α) {f : α → State → State} (h : ∀ a s, (f a s).files = s.files) (s : State) :
    (s.each l f).files = s.files := State.each_frame State.files l h s

section
variable (s : State) (c : Ch) (t b : Nat) (r : Rg)

/-! ### Operations that leave the files alone -/

@[simp] theorem State.modCh_files (f : Channel → Channel) : (s.modCh c f).files = s.files := rfl
@[simp] theorem State.modRg_files (f : Region → Region) : (s.modRg r f).files = s.files := rfl
@[simp] theorem State.modTrip_files (f : TripSt → TripSt) : (s.modTrip c f).files = s.files := rfl
@[simp] theorem State.modGen_files (f : GenSt → GenSt) : (s.modGen c f).files = s.files := rfl
@[simp] theorem State.modCap_files (f : CapSt → CapSt) : (s.modCap c f).files = s.files := rfl
@[simp] theorem State.raiseAt_files (n : Src) (code : Nat) (d : Word) : (s.raiseAt n code d t).files = s.files :=
  State.files_of_bare (State.bare_raiseAt ..)
@[simp] theorem State.logUe_files (finder lch : Nat) : (s.logUe finder lch b).files = s.files :=
  State.files_of_clus (State.logUe_clus ..)
@[simp] theorem State.modBar_files (b : BarRef) (f : Barrier → Barrier) : (s.modBar b f).files = s.files := by
  cases b with
  | cluster n i => exact State.modCl_files rfl
  | package i => rfl
@[simp] theorem State.latchEvtAt_files (t : Thr) (now : Nat) : (s.latchEvtAt t b now).files = s.files := by
  refine State.modTh_files ?_
  dsimp only
  (repeat' split) <;> rfl
@[simp] theorem State.latchEvt_files (t : Thr) : (s.latchEvt t b).files = s.files := State.latchEvtAt_files ..
@[simp] theorem State.chEvAt_files (e : ChEv) (detail : Word) : (s.chEvAt c e detail t).files = s.files := by
  unfold State.chEvAt
  split <;> simp
@[simp] theorem State.chEv_files (e : ChEv) (detail : Word) : (s.chEv c e detail).files = s.files := State.chEvAt_files ..
@[simp] theorem State.dropWait_files (t : Thr) : (s.dropWait t).files = s.files := by
  unfold State.dropWait
  refine (State.modTh_files rfl).trans ?_
  (repeat' split) <;> simp [State.withdraw]

/-! ### Trip and pulse -/

@[simp] theorem State.refreshGates_files : (s.refreshGates c).files = s.files := rfl
@[simp] theorem State.stepOff_files : (s.stepOff r).files = s.files := by
  unfold State.stepOff
  dsimp only
  split <;> rfl
@[simp] theorem State.stepDiscard_files : (s.stepDiscard r).files = s.files := by simp [State.stepDiscard]
@[simp] theorem State.stepDisturb_files : (s.stepDisturb c).files = s.files := by simp [State.stepDisturb]
@[simp] theorem State.latchTrip_files (m : Cmp) : (s.latchTrip c m t).files = s.files := by simp [State.latchTrip]
@[simp] theorem State.evalCmp_files (m : Cmp) : (s.evalCmp c m t).files = s.files := by simp [State.evalCmp]
@[simp] theorem State.evalTrip_files : (s.evalTrip c t).files = s.files := by simp [State.evalTrip]
@[simp] theorem State.openWin_files (i : Fin 5) (len : Nat) (mask : BitVec 4) : (s.openWin c i t len mask).files = s.files := by
  simp [State.openWin]
@[simp] theorem State.pulseEdgeFx_files (act : Bool) : (s.pulseEdgeFx c act t).files = s.files := by simp [State.pulseEdgeFx]
@[simp] theorem State.pulseStart_files : (s.pulseStart c t).files = s.files := by simp [State.pulseStart]
@[simp] theorem State.pulseStop_files : (s.pulseStop c t).files = s.files := by simp [State.pulseStop]
@[simp] theorem State.pulseCheck_files : (s.pulseCheck c t).files = s.files := by simp [State.pulseCheck]

/-! ### Generator and records -/

@[simp] theorem State.genStop_files : (s.genStop c t).files = s.files := by simp [State.genStop]
@[simp] theorem State.genArm_files : (s.genArm c t).files = s.files := rfl
@[simp] theorem State.stimFollow_files : (s.stimFollow c t).files = s.files := by simp [State.stimFollow]
@[simp] theorem State.disarm_files : (s.disarm c).files = s.files := rfl
@[simp] theorem State.endRec_files : (s.endRec c).files = s.files := rfl
@[simp] theorem State.cutRec_files (fl : Word) : (s.cutRec c b fl).files = s.files := by
  unfold State.cutRec
  split <;> simp
@[simp] theorem State.truncRec_files : (s.truncRec c b).files = s.files := by simp [State.truncRec]
@[simp] theorem State.acqPut_files (lch base size tot : Nat) (bs : List Byte) : (s.acqPut lch base size tot bs).files = s.files := by
  unfold State.acqPut
  dsimp only
  split
  · rfl
  · refine (State.each_files _ (fun b s => ?_) _).trans rfl
    split
    · rfl
    · exact (State.logUe_files _ b 6 lch).trans rfl
@[simp] theorem State.sideWrite_files (bs : List Byte) : (s.sideWrite c bs).files = s.files := by simp [State.sideWrite]
@[simp] theorem State.side_files (q : Nat) (bs : List Byte) : (s.side c q bs).files = s.files := by simp [State.side]
@[simp] theorem State.closeStream_files : (s.closeStream c b).files = s.files := by simp [State.closeStream]
@[simp] theorem State.freezeAt_files : (s.freezeAt c t).files = s.files := by simp [State.freezeAt]

end

/-! ### A halt -/

/-- A halted thread holds its cause and what it held before. -/
theorem State.halt_file (s : State) (t : Thr) (cause : Byte) (tf : Nat) :
    ((s.halt t cause tf).th t).file = { (s.th t).file with st := .halted, cause := cause, tfTick := wd tf } := by
  have put : (((s.dropWait t).modTh t fun h => { h with st := .halted, cause := cause, tfTick := wd tf }).th t).file =
      { (s.th t).file with st := .halted, cause := cause, tfTick := wd tf } := by
    rw [State.th_modTh_self]
    have kept := State.file_of_files (State.dropWait_files s t) t
    rw [← kept]
    rfl
  unfold State.halt
  dsimp only
  split
  · exact (State.file_of_files (State.freezeAt_files ..) t).trans put
  · exact put

theorem State.threadFault_file (s : State) (t : Thr) (cause : Byte) : ((s.threadFault t cause).th t).file =
    { (s.th t).file with st := .halted, cause := cause, tfTick := wd (s.thNow t) } := by
  refine (State.file_of_files ?_ t).trans (State.halt_file s t cause (s.thNow t))
  have others (l : List Thr) (x : State) : (x.each l fun u s => if u = t then s else s.latchEvt u 17).files = x.files :=
    State.each_files l (by simp) x
  unfold State.threadFault
  dsimp only
  split
  · rw [State.chEv_files, others]
  · rw [State.raise, State.raiseAt_files, others]

/-! ### The faults of a word (R254, R277, R281) -/

/-- A thread that faults halts with its cause, its PC at the instruction. -/
theorem State.halts_threadFault {s : State} {t : Thr} {i : Instr} {cause : Byte} {n : Nat}
    (he : exec i s = .next ((s.advanceDie (dieOfCl t.cl) n).threadFault t cause).settle) : ∃ u, exec i s = .next u ∧
      (u.th t).st = .halted ∧ (u.th t).cause = cause ∧ (u.th t).pc = (s.th t).pc := by
  have halted := State.threadFault_file (s.advanceDie (dieOfCl t.cl) n) t cause
  rw [State.th_advanceDie] at halted
  refine ⟨_, he, ?_⟩
  rw [State.th_of_bare (State.bare_settle _)]
  have pc := congrArg Thread.pc halted
  exact ⟨congrArg Thread.st halted, congrArg Thread.cause halted, pc⟩

/-- What the issue of a Running thread's word answers, by the rules in their order. -/
theorem State.issue_faults {s : State} {t : Thr} {w : ZWord} {legal tk : Bool} {f : State → Except Byte State}
    (hr : (s.th t).st = .running) :
    let n := (s.th t).pc + 1 + b1 w.x
    let faults := fun (cause : Byte) =>
      s.issue t w legal tk f = ((s.advanceDie (dieOfCl t.cl) (s.nextIssue t)).threadFault t cause).settle
    (16384 < n → faults causeFetchRange)
    ∧ (n ≤ 16384 → legal = false → faults causeBadOpcode)
    ∧ (n ≤ 16384 → legal = true → tk = true → t.k = 8 → faults causeNoChan) := by
  have runs : ¬ ((s.th t).st != .running) = true := by simp [hr]
  refine ⟨fun hn => ?_, fun hn hl => ?_, fun hn hl hk h8 => ?_⟩
  all_goals
    refine (if_neg runs).trans ?_
    simp only [State.th_advanceDie]
  · rw [if_pos hn]
  · rw [if_neg hn.not_gt, hl, if_pos (by rfl)]
  · rw [if_neg hn.not_gt, hl, hk, h8, if_neg (by simp), if_pos (by rfl)]

section
variable (s : State) (t : Thr) (w : ZWord) (legal : Bool)

theorem State.issueOk_issues (f : State → State) : ∃ g, Host.Outcome.next (s.issueOk t w legal f) =
    (.next (s.issue t w legal false g) : Host.Outcome State Fault Refusal) := ⟨_, rfl⟩

theorem State.alu_issues (mask : BitVec 13) (f : Word → Word → Word × Bool) : ∃ g, Host.Outcome.next (s.alu t w mask f) =
    (.next (s.issue t w (legalAlu w mask) false g) : Host.Outcome State Fault Refusal) := by
  unfold State.alu
  exact State.issueOk_issues ..

theorem State.issueCh_issues (f : Ch → State → State × Nat) : ∃ g, Host.Outcome.next (s.issueCh t w legal f) =
    (.next (s.issue t w legal true g) : Host.Outcome State Fault Refusal) := ⟨_, rfl⟩

end

/-- Every row that Table 10-21 gives a word issues that word, judged by the rules of its row. -/
theorem exec_issues {i : Instr} {t : Thr} {w : ZWord} (h : zparts i = some (t, w)) (s : State) :
    ∃ f, exec i s = .next (s.issue t w (zlegal i) (tkOnly i) f) := by
  cases i
  case add | sub | mul | shl | shr | and | or | xor | min | max =>
    cases h
    exact State.alu_issues ..
  case jmp | call | ld | st | syncPackage | read | calRes =>
    cases h
    exact ⟨_, rfl⟩
  case brCond | ret | loop | sat | mov | ldi | movs | movd | evt | emit | waitTick | waitTrig | waitEvt | syncCluster =>
    cases h
    exact State.issueOk_issues ..
  case mode | forceSetpoint | forceBase | forceParkcode | forceClearcode | forceList | limit | range | law | coef | openLoop | closeLoop
      | heel | park | tripclr | blank | seq | inj | avg | seg | jump | rate | mark | arm | armOff | stay | recSet | strm | cal | calgap
      | syscalZero | syscalFull | syscalApply =>
    cases h
    exact State.issueCh_issues ..
  all_goals cases h

/-- Settles O10: a row with a word issues it (`exec_issues`), each broken rule answers a thread fault (`State.issue_faults`), and nothing
that the fault sets off moves the file of the thread (`State.threadFault_file`). -/
theorem wordFaults : Obligations.WordFaults := by
  intro s i t w hz hr n halts
  obtain ⟨f, he⟩ := exec_issues hz s
  obtain ⟨fetch, opcode, chan⟩ := State.issue_faults (legal := zlegal i) (tk := tkOnly i) (f := f) hr
  refine ⟨fun hn => ?_, fun hn hl => ?_, fun hn hl hk h8 => ?_⟩
  · exact State.halts_threadFault (he.trans (congrArg Host.Outcome.next (fetch hn)))
  · exact State.halts_threadFault (he.trans (congrArg Host.Outcome.next (opcode hn hl)))
  · exact State.halts_threadFault (he.trans (congrArg Host.Outcome.next (chan hn hl hk h8)))


end Sys2Proof.Machine
end

section
/-! PROOFS. An idle tick (9.1, 9.2): every row of the machine steps on, and the Lathes issue in the order of the clusters. -/

namespace Sys2Proof.Machine

/-! ### No row stops -/

theorem pktExec_next (p : Pkt) (s : State) : ∃ u, pktExec p s = .next u := by
  unfold pktExec
  split <;> exact ⟨_, rfl⟩

theorem execFenceRelease_next (tk : Nat) (k : Ctx) (r : RingNo) (s : State) : ∃ u, execFenceRelease tk k r s = .next u := by
  unfold execFenceRelease
  split
  · split
    · exact pktExec_next ..
    · exact ⟨_, rfl⟩
  · exact ⟨_, rfl⟩

theorem exec_next (i : Instr) (s : State) : ∃ u, exec i s = .next u := by
  cases i
  case fenceRelease tk k r => exact execFenceRelease_next tk k r s
  all_goals exact ⟨_, rfl⟩

theorem latheSlot_next (s : State) (n : Cl) : ∃ u, s.latheSlot n = .next u := by
  unfold State.latheSlot
  dsimp only
  split
  · split
    · exact exec_next ..
    · exact ⟨_, rfl⟩
  · exact ⟨_, rfl⟩

theorem latheSlots_cons {s u : State} {n : Cl} {l : List Cl} (h : s.latheSlot n = .next u) : latheSlots (n :: l) s = latheSlots l u := by
  rw [latheSlots, h]

theorem latheSlots_next (l : List Cl) (s : State) : ∃ u, latheSlots l s = .next u := by
  induction l generalizing s with
  | nil => exact ⟨s, rfl⟩
  | cons n l ih =>
    obtain ⟨u, h⟩ := latheSlot_next s n
    rw [latheSlots_cons h]
    exact ih u

theorem step_next (s : State) : Safety.StepsOn s := by
  unfold Safety.StepsOn step
  split
  · unfold State.idleTick
    split
    · exact ⟨s, rfl⟩
    · exact latheSlots_next ..
  · exact exec_next ..

/-! ### A slot -/

/-- The Lathe of cluster n issues in the slot that the tick of s is: its region is on, its die's clock runs, and the slot's thread is Running
and free to issue (R245, R246). -/
def State.slotIssues (s : State) (n : Cl) : Prop :=
  (s.rg (rgOfCl n)).on = true ∧ (s.die.get (dieOfCl n)).clkOk = true ∧ (s.th (s.slotThr n)).st = .running
    ∧ (s.th (s.slotThr n)).ready ≤ s.dt (dieOfCl n)

theorem State.fetchZ_advance (s : State) (n : Nat) (t : Thr) : (s.advance n).fetchZ t = s.fetchZ t := by
  simp [State.fetchZ, State.cl]

theorem latheSlot_idle {s : State} {n : Cl} (h : ¬ s.slotIssues n) : s.latheSlot n = .next s := by
  refine if_neg fun on => h ?_
  simp only [Bool.and_eq_true, beq_iff_eq, decide_eq_true_eq, and_assoc] at on
  exact on

theorem latheSlot_issues {s : State} {n : Cl} {i : Instr} (h : s.slotIssues n)
    (hi : zheve (s.slotThr n) (s.fetchZ (s.slotThr n)).1 (s.fetchZ (s.slotThr n)).2 = some i) : s.latheSlot n = exec i s := by
  refine (if_pos ?_).trans ?_
  · simp only [Bool.and_eq_true, beq_iff_eq, decide_eq_true_eq, and_assoc]
    exact h
  · rw [hi]

/-- Clusters that do not issue pass the tick. -/
theorem latheSlots_idle {s : State} {l : List Cl} (h : ∀ n ∈ l, ¬ s.slotIssues n) (m : List Cl) :
    latheSlots (l ++ m) s = latheSlots m s := by
  induction l with
  | nil => rfl
  | cons n l ih =>
    obtain ⟨hn, hl⟩ := List.forall_mem_cons.mp h
    exact (latheSlots_cons (latheSlot_idle hn)).trans (ih hl)

theorem State.slotIssues_advance (s : State) (t : Nat) (n : Cl) : (s.advance t).slotIssues n ↔
    (s.rg (rgOfCl n)).on = true ∧ (s.die.get (dieOfCl n)).clkOk = true ∧ (s.th ((s.advance t).slotThr n)).st = .running
      ∧ (s.th ((s.advance t).slotThr n)).ready ≤ (s.advance t).dt (dieOfCl n) := by
  have die : (s.advance t).die = s.die := by
    unfold State.advance
    split <;> rfl
  rw [State.slotIssues, State.rg, State.rgn_advance, die, State.th_advance, State.rg]

theorem mem_take_finRange {k : Nat} {n m : Fin k} (h : m ∈ (List.finRange k).take n.1) : m < n := by
  obtain ⟨i, hi, rfl⟩ := List.mem_take_iff_getElem.mp h
  rw [List.getElem_finRange]
  exact Fin.lt_def.mpr (by simp at hi ⊢; omega)

theorem drop_finRange {k : Nat} (n : Fin k) : (List.finRange k).drop n.1 = n :: (List.finRange k).drop (n.1 + 1) := by
  rw [List.drop_eq_getElem_cons (by simp), List.getElem_finRange]
  rfl

/-- Settles O2: no row stops (`exec_next`); on an empty queue the clusters before the first that issues leave the state as the tick made it
(`latheSlots_idle`). -/
theorem idleTick : Obligations.IdleTick := by
  intro s n i
  refine ⟨step_next s, fun hp => ?_⟩
  intro s1 slot t a
  refine ⟨fun hs => ?_, fun hs hn => ?_, fun hs hb hn hz => ?_⟩
  all_goals have start : step s = s.idleTick := by rw [step, hp]
  · exact start.trans (if_pos hs)
  all_goals
    have idle : step s = latheSlots (List.finRange 12) s1 := start.trans (if_neg hs)
    have slots (m : Cl) : s1.slotIssues m ↔ slot m := State.slotIssues_advance s _ m
  · rw [idle, ← List.append_nil (List.finRange 12), latheSlots_idle fun m _ => mt (slots m).mp (hn m), latheSlots]
  · have issued : s1.latheSlot n = exec i s1 := by
      refine latheSlot_issues ((slots n).mpr hn) ?_
      rw [State.fetchZ_advance]
      exact hz
    obtain ⟨u, hu⟩ := exec_next i s1
    refine ⟨u, hu, ?_⟩
    have before : ∀ m ∈ (List.finRange 12).take n.1, ¬ s1.slotIssues m := fun m hm =>
      mt (slots m).mp (hb m (mem_take_finRange hm))
    calc step s = latheSlots ((List.finRange 12).take n.1 ++ (List.finRange 12).drop n.1) s1 := by rw [idle, List.take_append_drop]
      _ = latheSlots ((List.finRange 12).drop n.1) s1 := latheSlots_idle before _
      _ = latheSlots (n :: (List.finRange 12).drop (n.1 + 1)) s1 := by rw [drop_finRange n]
      _ = latheSlots ((List.finRange 12).drop (n.1 + 1)) u := latheSlots_cons (issued.trans hu)

end Sys2Proof.Machine
end

section
/-! PROOFS. A packet that executes now (14.5): the state in which its operation acts, and the completion that it gives. -/

namespace Sys2Proof.Machine

/-! ### The state in which a packet acts -/

/-- The state at the packet's tick, in which it has begun. -/
def State.began (s : State) (p : Pkt) : State := (s.advance p.tk).mark p 1

/-- What looks at neither time nor the journal reads the same in the state in which a packet acts. -/
theorem State.of_began {α : Type} (F : State → α) (hF : ∀ s a b j, F { s with tick := a, dieTick := b, journal := j } = F s) (s : State)
    (p : Pkt) : F (s.began p) = F s := by
  unfold State.began State.advance
  split
  · exact hF s s.tick s.dieTick _
  · exact hF s _ _ _

theorem State.of_advance {α : Type} (F : State → α) (hF : ∀ s a b, F { s with tick := a, dieTick := b } = F s) (s : State) (t : Nat) :
    F (s.advance t) = F s := by
  unfold State.advance
  split
  · rfl
  · exact hF s _ _

/-- A packet that executes now begins. -/
theorem State.runPkt_ripe {s : State} {p : Pkt} {type : Byte} (h : s.ripe p type) (f : State → State) :
    s.runPkt p type f = (f (s.began p)).settle := by
  obtain ⟨item, -, ofType, stage, free, ring, die⟩ := h
  have ring' : ((s.advance p.tk).ring p.ctx p.ring).st = (s.ring p.ctx p.ring).st :=
    State.of_advance (fun s => (s.ring _ _).st) (fun _ _ _ => rfl) s _
  have item' : (s.advance p.tk).isItem p = true := (State.of_advance (State.isItem · p) (fun _ _ _ => rfl) s _).trans item
  have stage' : (s.advance p.tk).stage p = 0 := (State.of_advance (State.stage · p) (fun _ _ _ => rfl) s _).trans stage
  have free' : (s.advance p.tk).mustWait p = false := (State.of_advance (State.mustWait · p) (fun _ _ _ => rfl) s _).trans free
  have die' (d : Die) : (s.advance p.tk).dieLost d = s.dieLost d := State.of_advance (State.dieLost · d) (fun _ _ _ => rfl) s _
  have begins : (s.advance p.tk).begin_ p f = f (s.began p) := by
    unfold State.begin_
    split
    next d e => rw [die' d, die d e, if_neg Bool.false_ne_true, State.began]
    next => rfl
  unfold State.runPkt State.eventAt
  have notRecap : ¬ (((s.advance p.tk).ring p.ctx p.ring).st == .recap) = true := by simp [ring', ring]
  dsimp only
  rw [if_neg notRecap]
  simp only [item', ofType, stage', free', begins, if_true, BEq.rfl, Bool.and_self, Bool.not_false]

/-- A row that completes its packet answers it. -/
theorem State.answers_of {s x : State} {i : Instr} {p : Pkt} {status code : Byte} {res0 : Word} {res1 : DWord} {pay : List Byte}
    {P : State → Prop} (he : exec i s = .next (x.complete p status code res0 res1 pay).settle) (hi : s.isItem p = true) (ho : s.Out x)
    (hx : x.items = s.items) (hP : ∀ u : State, u.apart = x.apart → P u) : s.answers i p status code res0 res1 pay P := by
  have apart : (x.complete p status code res0 res1 pay).settle.apart = x.apart :=
    (State.apart_congr (State.bare_settle _)).trans (State.complete_apart ..)
  refine ⟨_, he, ⟨?_, ((State.sent_complete ..).before ho).after (State.out_settle _)⟩, hP _ apart⟩
  obtain ⟨q, hq, same⟩ := List.any_eq_true.mp hi
  have left := (State.complete_items x p status code res0 res1 pay).length_le
  have gone := List.length_eraseP_add_one hq same
  rw [hx] at left
  rw [State.items_of_calm (State.settle_calm _)]
  omega

end Sys2Proof.Machine
end

section
/-! PROOFS. LOAD into the table space (9.11): its writes read neither the journal nor the fabric, so that they do the same to two states
that are alike beside those. -/

namespace Sys2Proof.Machine

/-- `bare` at its tick, without the journal. -/
def State.body (s : State) : State := { s.bare with journal := [], tick := s.tick, dieTick := s.dieTick }

/-- What looks at the body alone reads the same in two states with one body. -/
theorem State.read {α : Type} (F : State → α) (hF : ∀ s : State, F s.body = F s) {x y : State} (h : x.body = y.body) : F x = F y := by
  rw [← hF x, h, hF y]

theorem State.apart_of_body {x y : State} (h : x.body = y.body) : x.apart = y.apart := by
  have e (s : State) : s.apart = s.body.apart := rfl
  rw [e x, h, ← e y]

theorem State.raiseAt_body (s : State) (n : Src) (code : Nat) (d : Word) (t : Nat) : (s.raiseAt n code d t).body = s.body := by
  unfold State.body
  rw [State.bare_raiseAt, State.raiseAt_tick, State.raiseAt_dieTick]

section
variable {x y : State} (h : x.body = y.body)
include h

/-! ### Updates -/

theorem State.ite_alike (p : Prop) [Decidable p] {u v : State} (k : u.body = v.body) :
    (if p then x else u).body = (if p then y else v).body := by
  split <;> assumption

theorem State.modCh_alike (c : Ch) {f g : Channel → Channel} (e : f (x.ch c) = g (x.ch c)) : (x.modCh c f).body = (y.modCh c g).body := by
  have push (s : State) (k : Channel → Channel) : (s.modCh c k).body = s.body.modCh c k := rfl
  rw [State.modCh_congr x c f g e, push, h, ← push]

theorem State.modCl_alike (n : Cl) {f g : Cluster → Cluster} (e : f (x.cl n) = g (x.cl n)) : (x.modCl n f).body = (y.modCl n g).body := by
  have push (s : State) (k : Cluster → Cluster) : (s.modCl n k).body = s.body.modCl n k := rfl
  rw [State.modCl_congr x n e, push, h, ← push]

theorem State.modRg_alike (r : Rg) (f : Region → Region) : (x.modRg r f).body = (y.modRg r f).body := by
  have push (s : State) : (s.modRg r f).body = s.body.modRg r f := rfl
  rw [push, h, ← push]

theorem State.raiseHub_alike (n : Fin 112) (d : Word) : (x.raiseHub n d).body = (y.raiseHub n d).body :=
  (State.raiseAt_body ..).trans (h.trans (State.raiseAt_body ..).symm)

theorem State.latchEvtAt_alike (t : Thr) (b now : Nat) : (x.latchEvtAt t b now).body = (y.latchEvtAt t b now).body := by
  have push (s : State) (f : Thread → Thread) : (s.modTh t f).body = s.body.modTh t f := rfl
  unfold State.latchEvtAt
  rw [push, h, ← push]

theorem State.chEvAt_alike (c : Ch) (e : ChEv) (d : Word) (t : Nat) : (x.chEvAt c e d t).body = (y.chEvAt c e d t).body := by
  unfold State.chEvAt
  dsimp only
  rw [State.raiseAt_body, State.raiseAt_body]
  split
  · exact State.latchEvtAt_alike h _ _ _
  · exact h

/-- An event of the trip block, with TSTAT as it stands. -/
theorem State.tripEv_alike (c : Ch) (e : ChEv) (t : Nat) :
    (x.chEvAt c e (x.ch c).trip.tstat t).body = (y.chEvAt c e (y.ch c).trip.tstat t).body := by
  rw [State.read (State.ch · c) (fun _ => rfl) h]
  exact State.chEvAt_alike h ..

/-! ### Trips -/

theorem State.refreshGates_alike (c : Ch) : (x.refreshGates c).body = (y.refreshGates c).body := by
  have level : x.gateLevel c = y.gateLevel c := State.read (State.gateLevel · c) (fun _ => rfl) h
  refine State.modCh_alike h c ?_
  rw [level]

theorem State.stepOff_alike (r : Rg) : (x.stepOff r).body = (y.stepOff r).body := by
  have rg : x.rg r = y.rg r := State.read (State.rg · r) (fun _ => rfl) h
  have now : x.now = y.now := State.read State.now (fun _ => rfl) h
  unfold State.stepOff
  simp only [rg, now]
  exact State.modRg_alike (State.ite_alike (State.modCh_alike h _ rfl) _ h) _ _

theorem State.stepDiscard_alike (r : Rg) : (x.stepDiscard r).body = (y.stepDiscard r).body := by
  unfold State.stepDiscard
  rw [State.read (State.rg · r) (fun _ => rfl) h]
  exact State.ite_alike (State.modRg_alike (State.stepOff_alike h r) r _) _ h

theorem State.stepDisturb_alike (c : Ch) : (x.stepDisturb c).body = (y.stepDisturb c).body := by
  unfold State.stepDisturb
  rw [State.read (State.stepOn · c) (fun _ => rfl) h, State.read (State.ch · c) (fun _ => rfl) h,
    State.read (State.rg · (rgOf c)) (fun _ => rfl) h]
  exact State.ite_alike (State.stepDiscard_alike h _) _ h

theorem State.latchTrip_alike (c : Ch) (m : Cmp) (t : Nat) : (x.latchTrip c m t).body = (y.latchTrip c m t).body := by
  have step := State.stepDisturb_alike h c
  have st := State.read (State.ch · c) (fun _ => rfl) step
  refine State.tripEv_alike (State.refreshGates_alike (State.modCh_alike step c ?_) c) c .trip t
  rw [st]

theorem State.evalCmp_alike (c : Ch) (m : Cmp) (t : Nat) : (x.evalCmp c m t).body = (y.evalCmp c m t).body := by
  have ch := State.read (State.ch · c) (fun _ => rfl) h
  have level : x.hasLevel c m = y.hasLevel c m := State.read (State.hasLevel · c m) (fun _ => rfl) h
  unfold State.evalCmp
  simp only [ch, level]
  refine State.ite_alike (State.modCh_alike h c rfl) _ <| State.ite_alike (State.modCh_alike h c rfl) _ <|
    State.ite_alike (State.ite_alike h _ (State.latchTrip_alike (State.modCh_alike h c rfl) c m t)) _ <| State.ite_alike h _ ?_
  exact State.tripEv_alike (State.modCh_alike h c rfl) c .cmpWatch t

theorem State.each_alike {α : Type} (l : List α) {f : α → State → State}
    (hf : ∀ (a : α) {u v : State}, u.body = v.body → (f a u).body = (f a v).body) : (x.each l f).body = (y.each l f).body := by
  induction l generalizing x y with
  | nil => exact h
  | cons a l ih => exact ih (hf a h)

theorem State.evalTrip_alike (c : Ch) (t : Nat) : (x.evalTrip c t).body = (y.evalTrip c t).body := by
  unfold State.evalTrip
  rw [State.read (State.ch · c) (fun _ => rfl) h]
  exact State.ite_alike h _ (State.each_alike h _ fun m _ _ k => State.evalCmp_alike k c m t)

/-! ### Words of the table space -/

theorem State.recalcThr_alike (c : Ch) (e : RangeEntry) : (x.recalcThr c e).body = (y.recalcThr c e).body := by
  unfold State.recalcThr
  simp only [State.read (State.ch · c) (fun _ => rfl) h, State.read (State.ctl · c) (fun _ => rfl) h]
  exact State.modCh_alike h c rfl

theorem State.checkRing_alike (c : Ch) (side : Bool) : (x.checkRing c side).body = (y.checkRing c side).body := by
  unfold State.checkRing
  rw [State.read (State.ringOk · c) (fun _ => rfl) h, State.read (State.sring · c) (fun _ => rfl) h,
    State.read (State.dring · c) (fun _ => rfl) h]
  exact State.ite_alike h _ (State.raiseHub_alike h ..)

theorem State.ctlEffect_alike (c : Ch) (o t : Nat) (changed : Bool) : (x.ctlEffect c o t changed).body = (y.ctlEffect c o t changed).body := by
  unfold State.ctlEffect
  rw [State.read (State.ch · c) (fun _ => rfl) h, State.read (State.ctl · c) (fun _ => rfl) h]
  refine State.ite_alike (State.evalTrip_alike (State.refreshGates_alike h c) c t) _ <| State.ite_alike (State.refreshGates_alike h c) _ <|
    State.ite_alike (State.recalcThr_alike h c _) _ <| State.ite_alike (State.modCh_alike h c rfl) _ <|
    State.ite_alike (State.ite_alike (State.checkRing_alike h c _) _ h) _ <| State.ite_alike (State.modCh_alike h c rfl) _ h

theorem State.writeCtl_alike (c : Ch) (o : Nat) (v : Word) : (x.writeCtl c o v).body = (y.writeCtl c o v).body := by
  have word : ((x.setCtl c o (v &&& ctlMask o)).ctlEffect c o (x.bnd c) (x.ctl c o != (v &&& ctlMask o))).body =
      ((y.setCtl c o (v &&& ctlMask o)).ctlEffect c o (y.bnd c) (y.ctl c o != (v &&& ctlMask o))).body := by
    rw [State.read (State.bnd · c) (fun _ => rfl) h, State.read (State.ctl · c) (fun _ => rfl) h]
    exact State.ctlEffect_alike (State.modCl_alike h _ rfl) ..
  unfold State.writeCtl
  dsimp only
  split
  case h_4 =>
    rw [State.read State.now (fun _ => rfl) h]
    exact State.evalTrip_alike (State.modCh_alike h c rfl) ..
  case h_11 => exact State.ite_alike h _ word
  all_goals exact State.modCh_alike h c rfl

theorem State.syncLine_alike (n : Cl) (i : Nat) : (x.syncLine n i).body = (y.syncLine n i).body := by
  unfold State.syncLine
  rw [State.read (State.lineLevel · n i) (fun _ => rfl) h]
  exact State.modCl_alike h n rfl

theorem State.tmrEn_alike (n : Cl) (i : Fin 8) (en : Bool) (t : Nat) : (x.tmrEn n i en t).body = (y.tmrEn n i en t).body := by
  unfold State.tmrEn
  rw [State.read (State.tmrPer · n i.1) (fun _ => rfl) h]
  exact State.modCl_alike h n rfl

theorem State.writeBlk_alike (n : Cl) (o : Nat) (v : Word) (t : Nat) : (x.writeBlk n o v t).body = (y.writeBlk n o v t).body := by
  have put : (x.modCl n fun k => { k with tmem := memSetWord k.tmem (0x4000 + o) (v &&& blkMask o) }).body =
      (y.modCl n fun k => { k with tmem := memSetWord k.tmem (0x4000 + o) (v &&& blkMask o) }).body := State.modCl_alike h n rfl
  unfold State.writeBlk
  dsimp only
  refine State.ite_alike h _ (State.ite_alike (State.syncLine_alike put n _) _ ?_)
  split
  · exact State.tmrEn_alike put ..
  · exact put

theorem State.writeTable_alike (n : Cl) (o : Nat) (v : Word) (t : Nat) : (x.writeTable n o v t).body = (y.writeTable n o v t).body := by
  unfold State.writeTable
  split
  · exact State.writeCtl_alike h ..
  · exact State.ite_alike (State.writeBlk_alike h ..) _ (State.modCl_alike h n rfl)

end

theorem State.loadTable_alike (n : Cl) (t : Nat) : ∀ (l : List Byte) (o : Nat) {x y : State}, x.body = y.body →
    (x.loadTable n o t l).body = (y.loadTable n o t l).body
  | _ :: _ :: _ :: _ :: l, o, _, _, h => State.loadTable_alike n t l (o + 4) (State.writeTable_alike h ..)
  | [], _, _, _, h | [_], _, _, _, h | [_, _], _, _, _, h | [_, _, _], _, _, _, h => h

/-! ### What the writes send -/

/-- u stands after s with the same items and what the host was sent in between. -/
def State.Sends (s u : State) : Prop := s.Out u ∧ u.items = s.items

theorem State.Sends.refl (s : State) : s.Sends s := ⟨.refl s, rfl⟩

theorem State.Sends.trans {s u v : State} (h : s.Sends u) (k : u.Sends v) : s.Sends v := ⟨h.1.trans k.1, k.2.trans h.2⟩

theorem State.sends_ite (p : Prop) [Decidable p] {s u v : State} (h : s.Sends u) (k : s.Sends v) : s.Sends (if p then u else v) := by
  split <;> assumption

section
variable (s : State) (c : Ch) (n : Cl)

theorem State.sends_modCh (f : Channel → Channel) : s.Sends (s.modCh c f) := ⟨State.out_of_eq rfl rfl, rfl⟩
theorem State.sends_modCl (f : Cluster → Cluster) : s.Sends (s.modCl n f) := ⟨State.out_of_eq rfl rfl, rfl⟩
theorem State.sends_modRg (r : Rg) (f : Region → Region) : s.Sends (s.modRg r f) := ⟨State.out_of_eq rfl rfl, rfl⟩
theorem State.sends_raiseHub (h : Fin 112) (d : Word) : s.Sends (s.raiseHub h d) :=
  ⟨State.out_raiseHub .., State.items_of_calm (State.raiseHub_calm ..)⟩
theorem State.sends_chEvAt (e : ChEv) (d : Word) (t : Nat) : s.Sends (s.chEvAt c e d t) :=
  ⟨State.out_chEvAt .., State.items_of_calm (State.chEvAt_calm ..)⟩
theorem State.sends_each {α : Type} (l : List α) {f : α → State → State} (h : ∀ a (s : State), s.Sends (f a s)) : s.Sends (s.each l f) := by
  induction l generalizing s with
  | nil => exact .refl s
  | cons a l ih => exact (h a s).trans (ih (f a s))

theorem State.sends_stepDisturb : s.Sends (s.stepDisturb c) := by
  have off (r : Rg) : s.Sends (s.stepOff r) := (State.sends_ite _ (State.sends_modCh ..) (.refl s)).trans (State.sends_modRg ..)
  exact State.sends_ite _ (State.sends_ite _ ((off _).trans (State.sends_modRg ..)) (.refl s)) (.refl s)

theorem State.sends_evalTrip (t : Nat) : s.Sends (s.evalTrip c t) := by
  have latch (u : State) (m : Cmp) : u.Sends (u.latchTrip c m t) :=
    (State.sends_stepDisturb u c).trans <| (State.sends_modCh ..).trans <| (State.sends_modCh ..).trans (State.sends_chEvAt ..)
  refine State.sends_ite _ (.refl s) (State.sends_each s _ fun m u => ?_)
  refine State.sends_ite _ (State.sends_modCh ..) <| State.sends_ite _ (State.sends_modCh ..) <|
    State.sends_ite _ (State.sends_ite _ (.refl u) ((State.sends_modCh ..).trans (latch ..))) <| State.sends_ite _ (.refl u) ?_
  exact (State.sends_modCh ..).trans (State.sends_chEvAt ..)

theorem State.sends_ctlEffect (o t : Nat) (changed : Bool) : s.Sends (s.ctlEffect c o t changed) := by
  have ring (side : Bool) : s.Sends (s.checkRing c side) := State.sends_ite _ (.refl s) (State.sends_raiseHub ..)
  refine State.sends_ite _ ((State.sends_modCh ..).trans (State.sends_evalTrip ..)) <| State.sends_ite _ (State.sends_modCh ..) <|
    State.sends_ite _ (State.sends_modCh ..) <| State.sends_ite _ (State.sends_modCh ..) <|
    State.sends_ite _ (State.sends_ite _ (ring _) (.refl s)) <| State.sends_ite _ (State.sends_modCh ..) (.refl s)

theorem State.sends_writeCtl (o : Nat) (v : Word) : s.Sends (s.writeCtl c o v) := by
  unfold State.writeCtl
  dsimp only
  split
  case h_4 => exact (State.sends_modCh ..).trans (State.sends_evalTrip ..)
  case h_11 => exact State.sends_ite _ (.refl s) ((State.sends_modCl ..).trans (State.sends_ctlEffect ..))
  all_goals exact State.sends_modCh ..

theorem State.sends_writeTable (o : Nat) (v : Word) (t : Nat) : s.Sends (s.writeTable n o v t) := by
  have block (o : Nat) : s.Sends (s.writeBlk n o v t) := by
    refine State.sends_ite _ (.refl s) <| State.Sends.trans
      (State.sends_modCl s n fun k => { k with tmem := memSetWord k.tmem (0x4000 + o) (v &&& blkMask o) }) ?_
    refine State.sends_ite _ (State.sends_modCl ..) ?_
    split
    · exact State.sends_modCl ..
    · exact .refl _
  unfold State.writeTable
  split
  · exact State.sends_writeCtl ..
  · exact State.sends_ite _ (block _) (State.sends_modCl ..)

end

theorem State.sends_loadTable (n : Cl) (t : Nat) : ∀ (l : List Byte) (o : Nat) (s : State), s.Sends (s.loadTable n o t l)
  | _ :: _ :: _ :: _ :: l, o, s => (State.sends_writeTable s ..).trans (State.sends_loadTable n t l (o + 4) _)
  | [], _, s | [_], _, s | [_, _], _, s | [_, _, _], _, s => .refl s

end Sys2Proof.Machine
end

section
/-! PROOFS. LOAD, MEMRD, RESULTS and READOUT (15.3): the bytes that they move. -/

namespace Sys2Proof.Machine

/-! ### What the operations read at their tick -/

section
variable (s : State) (p : Pkt)

theorem State.sends_began : s.Sends (s.began p) :=
  ⟨State.out_of_eq (State.of_began State.hostOut (fun _ _ _ _ => rfl) s p) (State.of_began State.cqWait (fun _ _ _ _ => rfl) s p),
    State.of_began State.items (fun _ _ _ _ => rfl) s p⟩

theorem State.began_apart : (s.began p).apart = (s.advance p.tk).apart := State.mark_apart ..
theorem State.began_body : (s.began p).body = (s.advance p.tk).body := rfl
@[simp] theorem State.began_cl (n : Cl) : (s.began p).cl n = s.cl n := State.of_began (State.cl · n) (fun _ _ _ _ => rfl) s p
@[simp] theorem State.began_ch (c : Ch) : (s.began p).ch c = s.ch c := State.of_began (State.ch · c) (fun _ _ _ _ => rfl) s p
@[simp] theorem State.began_acq : (s.began p).acq = s.acq := State.of_began State.acq (fun _ _ _ _ => rfl) s p
@[simp] theorem State.began_window (k : Ctx) : (s.began p).window k = s.window k :=
  State.of_began (State.window · k) (fun _ _ _ _ => rfl) s p
@[simp] theorem State.began_spaceOk (n : Nat) (write : Bool) : (s.began p).spaceOk p n write = s.spaceOk p n write :=
  State.of_began (State.spaceOk · p n write) (fun _ _ _ _ => rfl) s p
@[simp] theorem State.began_dring (c : Ch) : (s.began p).dring c = s.dring c := State.of_began (State.dring · c) (fun _ _ _ _ => rfl) s p
@[simp] theorem State.began_sring (c : Ch) : (s.began p).sring c = s.sring c := State.of_began (State.sring · c) (fun _ _ _ _ => rfl) s p
@[simp] theorem State.began_bad : (s.began p).mem.bad = s.mem.bad := State.of_began (fun s => s.mem.bad) (fun _ _ _ _ => rfl) s p
end

section
variable (s : State)

@[simp] theorem State.touchMem_bad : s.touchMem.mem.bad = s.mem.bad := by
  unfold State.touchMem
  split <;> rfl

@[simp] theorem State.touchMem_acq : s.touchMem.acq = s.acq := by
  unfold State.touchMem
  split <;> rfl

theorem State.touchMem_window (k : Ctx) : s.touchMem.window k = s.window k := by
  unfold State.touchMem
  split <;> rfl

theorem State.touchMem_ch (c : Ch) : s.touchMem.ch c = s.ch c := by
  unfold State.touchMem
  split <;> rfl

theorem State.sends_touchMem : s.Sends s.touchMem := by
  unfold State.touchMem
  exact State.sends_ite _ ⟨State.out_of_eq rfl rfl, rfl⟩ (.refl s)

theorem State.touchMem_mark (p : Pkt) (n : Fin 3) : (s.mark p n).touchMem = s.touchMem.mark p n := by
  have mem : (s.mark p n).mem = s.mem := rfl
  unfold State.touchMem
  rw [mem]
  split <;> rfl

end

theorem State.touchMem_began_apart (s : State) (p : Pkt) : (s.began p).touchMem.apart = (s.advance p.tk).touchMem.apart := by
  rw [State.began, State.touchMem_mark, State.mark_apart]

/-- With no bad block every range reads (R396). -/
theorem State.firstBad_clean {s : State} (h : s.mem.bad = []) (base size tot n : Nat) : s.firstBad base size tot n = none := by
  simp [State.firstBad, h]

/-- A packet that executes now, whose operation completes it. -/
theorem State.answers_run {s x : State} {i : Instr} {p : Pkt} {type status code : Byte} {res0 : Word} {res1 : DWord} {pay : List Byte}
    {P : State → Prop} {f : State → State} (h : s.ripe p type) (he : exec i s = .next (s.runPkt p type f))
    (hf : f (s.began p) = x.complete p status code res0 res1 pay) (hx : (s.began p).Sends x) (hP : ∀ u : State, u.apart = x.apart → P u) :
    s.answers i p status code res0 res1 pay P := by
  have sends := (State.sends_began s p).trans hx
  exact State.answers_of (he.trans (by rw [State.runPkt_ripe h, hf])) h.1 sends.1 sends.2 hP

/-- What a write to cluster n in the state in which a packet acts leaves. -/
theorem State.became_modCl {s u : State} {p : Pkt} {n : Cl} {f : Cluster → Cluster} (hu : u.apart = ((s.began p).modCl n f).apart) :
    u.cl n = f (s.cl n) ∧ ∀ g : Cluster → Cluster, f (s.cl n) = g (s.cl n) → s.became p.tk (·.modCl n g) u := by
  constructor
  · rw [State.cl, State.clus_of_apart hu, ← State.cl, State.cl_modCl_self, State.began_cl]
  · intro g e
    rw [← State.began_cl s p] at e
    exact hu.trans (State.apart_of_body (State.modCl_alike (State.began_body s p) n e))

/-! ### Bytes in acquisition memory -/

/-- A ring that the bytes do not wrap around takes them from their address up. -/
theorem ringPut_eq_memSetBytes (m : Memory) {size tot : Nat} (l : List Byte) (h : tot + l.length ≤ size) :
    ringPut m 0 size tot l = memSetBytes m tot l := by
  induction l generalizing m tot with
  | nil => rfl
  | cons b l ih =>
    rw [List.length_cons] at h
    rw [ringPut, memSetBytes, Nat.zero_add, Nat.mod_eq_of_lt (by omega), ih _ (by omega)]

/-- A write where no block is bad. -/
theorem State.acqWrite_clean {s : State} (h : s.mem.bad = []) (lch a : Nat) {l : List Byte} (hl : a + l.length ≤ 2 ^ 37) :
    s.acqWrite lch a l = { s with acq := memSetBytes s.acq a l } := by
  unfold State.acqWrite State.acqPut
  simp only [h, List.filter_nil, List.isEmpty_nil, if_true]
  rw [ringPut_eq_memSetBytes _ _ hl]

/-! ### LOAD (R268, R384, R424) -/

section
variable {s : State} {p : Pkt} (h : s.ripe p 0x10)
include h

theorem exec_load_refuses (no : s.spaceOk p p.payload.length true = false) :
    s.answers (.load p) p 1 0x41 0 0 [] (s.became p.tk id) := by
  refine State.answers_run h rfl ?_ (.refl _) fun u hu => hu.trans (State.began_apart s p)
  simp only [State.began_spaceOk, no, Bool.not_false, if_true, State.failed]
  rfl

variable (ok : s.spaceOk p p.payload.length true = true)
include ok

theorem exec_load_imem (sp : fld p.hdr.arg0 0 2 = 0) : s.answers (.load p) p 0 0 0 0 [] fun u =>
    putBytes (s.cl (destCl p.hdr)).imem (u.cl (destCl p.hdr)).imem (fld p.hdr.arg0 32 32) p.payload
      ∧ s.became p.tk (fun s => s.modCl (destCl p.hdr) fun k => { k with imem := (u.cl (destCl p.hdr)).imem }) u := by
  refine State.answers_run (x := (s.began p).modCl (destCl p.hdr) fun k =>
    { k with imem := memSetBytes k.imem (fld p.hdr.arg0 32 32) p.payload }) h rfl ?_ (State.sends_modCl ..) fun u hu => ?_
  · simp only [State.began_spaceOk, ok, sp, Bool.not_true, Bool.false_eq_true, if_false]
    rfl
  · obtain ⟨put, became⟩ := State.became_modCl hu
    rw [put]
    exact ⟨putBytes_memSetBytes _ _ _, became _ rfl⟩

theorem exec_load_dmem (sp : fld p.hdr.arg0 0 2 = 1) : s.answers (.load p) p 0 0 0 0 [] fun u =>
    putBytes (s.cl (destCl p.hdr)).dmem (u.cl (destCl p.hdr)).dmem (fld p.hdr.arg0 32 32) p.payload
      ∧ s.became p.tk (fun s => s.modCl (destCl p.hdr) fun k => { k with dmem := (u.cl (destCl p.hdr)).dmem }) u := by
  refine State.answers_run (x := (s.began p).modCl (destCl p.hdr) fun k =>
    { k with dmem := memSetBytes k.dmem (fld p.hdr.arg0 32 32) p.payload }) h rfl ?_ (State.sends_modCl ..) fun u hu => ?_
  · simp only [State.began_spaceOk, ok, sp, Bool.not_true, Bool.false_eq_true, if_false]
    rfl
  · obtain ⟨put, became⟩ := State.became_modCl hu
    rw [put]
    exact ⟨putBytes_memSetBytes _ _ _, became _ rfl⟩

theorem exec_load_table (sp : fld p.hdr.arg0 0 2 = 2) : s.answers (.load p) p 0 0 0 0 [] (s.became p.tk fun v =>
    v.loadTable (destCl p.hdr) (fld p.hdr.arg0 32 32) ((s.advance p.tk).dt (dieOfCl (destCl p.hdr))) p.payload) := by
  refine State.answers_run h rfl ?_ (State.sends_loadTable ..) fun u hu =>
    hu.trans (State.apart_of_body (State.loadTable_alike _ _ _ _ (State.began_body s p)))
  simp only [State.began_spaceOk, ok, sp, Bool.not_true, Bool.false_eq_true, if_false]
  rfl

theorem exec_load_acq (sp : fld p.hdr.arg0 0 2 = 3) (good : s.mem.bad = [])
    (fits : (s.window p.ctx).1 + fld p.hdr.arg0 32 32 + p.payload.length ≤ 2 ^ 37) : s.answers (.load p) p 0 0 0 0 [] fun u =>
      putBytes s.acq u.acq ((s.window p.ctx).1 + fld p.hdr.arg0 32 32) p.payload
      ∧ s.became p.tk (fun s => { s.touchMem with acq := u.acq }) u := by
  refine State.answers_run (x := { (s.began p).touchMem with
    acq := memSetBytes s.acq ((s.window p.ctx).1 + fld p.hdr.arg0 32 32) p.payload }) h rfl ?_
    ((State.sends_touchMem _).trans ⟨State.out_of_eq rfl rfl, rfl⟩) fun u hu => ?_
  · have write := State.acqWrite_clean (s := (s.began p).touchMem) (by simpa using good) 255 _ fits
    simp only [State.touchMem_acq, State.began_acq] at write
    simp only [State.began_spaceOk, State.began_window, ok, sp, Bool.not_true, Bool.false_eq_true, if_false, write]
    rfl
  · have put : u.acq = memSetBytes s.acq ((s.window p.ctx).1 + fld p.hdr.arg0 32 32) p.payload := congrArg State.acq hu
    rw [put]
    refine ⟨putBytes_memSetBytes _ _ _, hu.trans ?_⟩
    rw [State.began, State.touchMem_mark]
    rfl

end

/-! ### MEMRD (R384, R396, R424) -/

/-- The words of the table space read the same in the state in which a packet acts. -/
theorem State.began_tableBytes (s : State) (p : Pkt) (n : Cl) (o k : Nat) : (s.began p).tableBytes n o k = (s.advance p.tk).tableBytes n o k := by
  induction k generalizing o with
  | zero => rfl
  | succ k ih =>
    have word : (s.began p).readTable n o = (s.advance p.tk).readTable n o := rfl
    rw [State.tableBytes, State.tableBytes, word, ih]

/-- The range that a MEMRD names is one that it does not return. -/
def State.noRead (s : State) (p : Pkt) : Prop :=
  p.hdr.arg1.toNat % 32 ≠ 0 ∨ p.hdr.arg1.toNat < 32 ∨ 65536 < p.hdr.arg1.toNat ∨ (!s.spaceOk p p.hdr.arg1.toNat false) = true

section
variable {s : State} {p : Pkt} (h : s.ripe p 0x14)
include h

theorem exec_memrd_refuses (no : s.noRead p) : s.answers (.memrd p) p 1 0x41 0 0 [] (s.became p.tk id) := by
  refine State.answers_run h rfl ?_ (.refl _) fun u hu => hu.trans (State.began_apart s p)
  simp only [State.began_spaceOk]
  exact if_pos no

variable (go : ¬ s.noRead p)
include go

theorem exec_memrd_imem (sp : fld p.hdr.arg0 0 2 = 0) : s.answers (.memrd p) p 0 0 0 0
    (memBytes (s.cl (destCl p.hdr)).imem (fld p.hdr.arg0 32 32) p.hdr.arg1.toNat) (s.became p.tk id) := by
  refine State.answers_run h rfl ?_ (.refl _) fun u hu => hu.trans (State.began_apart s p)
  simp only [State.began_spaceOk, State.began_cl, sp]
  exact if_neg go

theorem exec_memrd_dmem (sp : fld p.hdr.arg0 0 2 = 1) : s.answers (.memrd p) p 0 0 0 0
    (memBytes (s.cl (destCl p.hdr)).dmem (fld p.hdr.arg0 32 32) p.hdr.arg1.toNat) (s.became p.tk id) := by
  refine State.answers_run h rfl ?_ (.refl _) fun u hu => hu.trans (State.began_apart s p)
  simp only [State.began_spaceOk, State.began_cl, sp]
  exact if_neg go

theorem exec_memrd_table (sp : fld p.hdr.arg0 0 2 = 2) : s.answers (.memrd p) p 0 0 0 0
    ((s.advance p.tk).tableBytes (destCl p.hdr) (fld p.hdr.arg0 32 32) (p.hdr.arg1.toNat / 4)) (s.became p.tk id) := by
  refine State.answers_run h rfl ?_ (.refl _) fun u hu => hu.trans (State.began_apart s p)
  simp only [State.began_spaceOk, State.began_tableBytes, sp]
  exact if_neg go

theorem exec_memrd_acq (sp : fld p.hdr.arg0 0 2 = 3) (good : s.mem.bad = []) : s.answers (.memrd p) p 0 0 0 0
    (memBytes s.acq ((s.window p.ctx).1 + fld p.hdr.arg0 32 32) p.hdr.arg1.toNat) (s.became p.tk State.touchMem) := by
  have clean := State.firstBad_clean (s := (s.began p).touchMem) (by simpa using good)
  refine State.answers_run h rfl ?_ (State.sends_touchMem _) fun u hu => hu.trans (State.touchMem_began_apart s p)
  simp only [State.began_spaceOk, State.touchMem_acq, State.touchMem_window, State.began_acq, State.began_window, clean, sp]
  exact if_neg go

end

/-! ### RESULTS (R384, R386) -/

theorem exec_results {s : State} {p : Pkt} (h : s.ripe p 0x21) : s.answers (.results p) p 0 0 0 0
    ((s.ch (destCh p.hdr)).res.toList.flatMap fun r => leBytes 4 r.res.toNat ++ leBytes 4 r.tstamp.toNat) (s.became p.tk id) := by
  refine State.answers_run h rfl ?_ (.refl _) fun u hu => hu.trans (State.began_apart s p)
  simp only [State.began_ch]
  rfl

/-! ### READOUT (R386, R396) -/

section
variable (s : State) (p : Pkt)

/-- The address and the size of the ring that a READOUT names. -/
def State.outRing : Nat × Nat := if bit p.hdr.arg0 32 then s.sring (destCh p.hdr) else s.dring (destCh p.hdr)
/-- Its free point. -/
def State.outFree : Nat := if bit p.hdr.arg0 32 then (s.ch (destCh p.hdr)).cap.sfTot else (s.ch (destCh p.hdr)).cap.fTot
/-- Its write point. -/
def State.outWritten : Nat := if bit p.hdr.arg0 32 then (s.ch (destCh p.hdr)).cap.swTot else (s.ch (destCh p.hdr)).cap.wTot
/-- From the free point to the offset that the READOUT names. -/
def State.outRel : Nat := (p.hdr.arg1.toNat + (s.outRing p).2 - s.outFree p % (s.outRing p).2) % (s.outRing p).2
/-- The end of the range that the READOUT names. -/
def State.outEnd : Nat := s.outFree p + s.outRel p + fld p.hdr.arg0 0 17
/-- The free point after the READOUT: FREE moves it up to the end of a range that is written. -/
def State.outFreed : Nat := if bit p.hdr.arg0 33 ∧ s.outEnd p ≤ s.outWritten p then s.outEnd p else s.outFree p
theorem State.outFree_add : s.outFree p + (if bit p.hdr.arg0 33 = true ∧ s.outFree p + s.outRel p + fld p.hdr.arg0 0 17 ≤ s.outWritten p
    then s.outRel p + fld p.hdr.arg0 0 17 else 0) = s.outFreed p := by
  unfold State.outFreed State.outEnd
  split
  · exact (Nat.add_assoc ..).symm
  · exact Nat.add_zero _

/-- The range that a READOUT names is one that it does not return. -/
def State.noOut : Prop :=
  fld p.hdr.arg0 0 17 % 32 ≠ 0 ∨ 65536 < fld p.hdr.arg0 0 17 ∨ p.hdr.arg1.toNat % 32 ≠ 0 ∨ (s.outRing p).2 ≤ p.hdr.arg1.toNat
    ∨ (0 < fld p.hdr.arg0 0 17 ∧ s.outWritten p < s.outEnd p)

end

/-- The capture unit with the free point of a side at f. -/
def CapSt.freeTo (k : CapSt) (side : Bool) (f : Nat) : CapSt := if side then { k with sfTot := f } else { k with fTot := f }

/-- A free point that moves stands the way farther. -/
theorem State.modCap_free (s : State) (c : Ch) (side : Bool) (n : Nat) : s.modCap c (·.free side n) =
    s.modCap c (·.freeTo side ((if side then (s.ch c).cap.sfTot else (s.ch c).cap.fTot) + n)) := by
  refine State.modCh_congr s c _ _ ?_
  cases side <;> rfl

/-- The request of memory that a READOUT makes. -/
def State.requested (s : State) (p : Pkt) : State := if 0 < fld p.hdr.arg0 0 17 then s.touchMem else s

section
variable (s : State) (p : Pkt)

theorem State.requested_of {α : Type} (F : State → α) (hF : F s.touchMem = F s) : F (s.requested p) = F s := by
  unfold State.requested
  split
  · exact hF
  · rfl

@[simp] theorem State.requested_ch (c : Ch) : (s.requested p).ch c = s.ch c := s.requested_of p (State.ch · c) (s.touchMem_ch c)
@[simp] theorem State.requested_acq : (s.requested p).acq = s.acq := s.requested_of p State.acq s.touchMem_acq
@[simp] theorem State.requested_bad : (s.requested p).mem.bad = s.mem.bad := s.requested_of p (fun s => s.mem.bad) s.touchMem_bad
theorem State.sends_requested : s.Sends (s.requested p) := State.sends_ite _ (State.sends_touchMem s) (.refl s)
theorem State.requested_mark (q : Pkt) (n : Fin 3) : (s.mark q n).requested p = (s.requested p).mark q n := by
  unfold State.requested
  rw [State.touchMem_mark]
  split <;> rfl
theorem State.requested_began_body : ((s.began p).requested p).body = ((s.advance p.tk).requested p).body := by
  rw [State.began, State.requested_mark]
  rfl

end

section
variable {s : State} {p : Pkt} (h : s.ripe p 0x30) (pos : 0 < (s.outRing p).2)
include h pos

theorem exec_readout_refuses (no : s.noOut p) : s.answers (.readout p) p 1 0x42 (.ofNat 32 (s.outFree p % (s.outRing p).2))
    (.ofNat 64 (s.outWritten p % (s.outRing p).2)) [] (s.became p.tk id) := by
  have size := Nat.max_eq_right pos
  unfold State.outRing at size
  refine State.answers_run h rfl ?_ (.refl _) fun u hu => hu.trans (State.began_apart s p)
  simp only [State.began_ch, State.began_sring, State.began_dring, size]
  exact if_pos no

theorem exec_readout_gives (go : ¬ s.noOut p) (good : s.mem.bad = []) : s.answers (.readout p) p 0 0
    (.ofNat 32 (s.outFreed p % (s.outRing p).2)) (.ofNat 64 (s.outWritten p % (s.outRing p).2))
    ((List.range (fld p.hdr.arg0 0 17)).map fun i => memByte s.acq ((s.outRing p).1 + (s.outFree p + s.outRel p + i) % (s.outRing p).2))
    (s.became p.tk fun v => (v.requested p).modCap (destCh p.hdr) (·.freeTo (bit p.hdr.arg0 32) (s.outFreed p))) := by
  have clean := State.firstBad_clean (s := (s.began p).requested p) (by simpa using good)
  have ring : (if bit p.hdr.arg0 32 then s.sring (destCh p.hdr) else s.dring (destCh p.hdr)) = s.outRing p := rfl
  have free : (if bit p.hdr.arg0 32 then (s.ch (destCh p.hdr)).cap.sfTot else (s.ch (destCh p.hdr)).cap.fTot) = s.outFree p := rfl
  have written : (if bit p.hdr.arg0 32 then (s.ch (destCh p.hdr)).cap.swTot else (s.ch (destCh p.hdr)).cap.wTot) = s.outWritten p := rfl
  have rel : (p.hdr.arg1.toNat + (s.outRing p).2 - s.outFree p % (s.outRing p).2) % (s.outRing p).2 = s.outRel p := rfl
  have asked : (if 0 < fld p.hdr.arg0 0 17 then (s.began p).touchMem else s.began p) = (s.began p).requested p := rfl
  refine State.answers_run (x := ((s.began p).requested p).modCap (destCh p.hdr) (·.freeTo (bit p.hdr.arg0 32) (s.outFreed p)))
    h rfl ?_ ((State.sends_requested ..).trans (State.sends_modCh ..)) fun u hu => hu.trans ?_
  · simp only [State.began_ch, State.began_sring, State.began_dring, ring, free, written, rel, asked, clean, State.modCap_free,
      State.requested_ch, State.requested_acq, State.began_acq, State.outFree_add, ringBytes, Nat.max_eq_right (show 1 ≤ _ from pos)]
    exact if_neg go
  · exact State.apart_of_body (State.modCh_alike (State.requested_began_body s p) (destCh p.hdr) rfl)

end

/-- Settles O41. -/
theorem memoryPackets : Obligations.MemoryPackets := by
  intro s p s1 n sp o base len gives c side d cap f w a m rel
  refine ⟨fun h => ⟨exec_load_refuses h, fun ok =>
      ⟨exec_load_imem h ok, exec_load_dmem h ok, exec_load_table h ok, exec_load_acq h ok⟩⟩,
    fun h => ⟨fun no => exec_memrd_refuses h (by rwa [State.noRead, Bool.not_eq_true']), fun whole low high ok => ?_⟩,
    exec_results, fun h pos => ⟨exec_readout_refuses h pos, fun whole short aligned inside written good => ?_⟩⟩
  · have go : ¬ s.noRead p := by
      rintro (no | no | no | no)
      · exact no whole
      · exact Nat.not_lt.mpr low no
      · exact Nat.not_lt.mpr high no
      · exact Bool.false_ne_true (((Bool.not_eq_true' _).mp no).symm.trans ok)
    exact ⟨exec_memrd_imem h go, exec_memrd_dmem h go, exec_memrd_table h go, exec_memrd_acq h go⟩
  · have go : ¬ s.noOut p := by
      rintro (no | no | no | no | ⟨some, no⟩)
      · exact no whole
      · exact Nat.not_lt.mpr short no
      · exact no aligned
      · exact Nat.not_lt.mpr no inside
      · exact written.elim some.ne' (Nat.not_le.mpr no)
    exact exec_readout_gives h pos go good

end Sys2Proof.Machine
end
